-- ==== Sys2Proof/Word.lean ====
section
/-! DEFINITION. The plain words of the block: bytes, the time word of R9 and its tick arithmetic. -/

namespace Sys2Proof

/-- One byte of a packet, a record, the flash or a parcel. -/
abbrev Byte := BitVec 8

/-- A TW80 time word (R9): seconds (40 bits), tick (32 bits) and fine bin (7 bits).
The three fields are kept apart because the spec never computes on the packed word. -/
structure TimeWord where
  /-- seconds, 40 bits -/
  seconds : Nat
  /-- tick within the second, 0 to 2,559,999,999 in a legal word -/
  tick : Nat
  /-- fine bin, 0 to 127 in a legal word; the byte as read for a parameter -/
  fine : Nat
  deriving DecidableEq, Repr

/-- Ticks in one second (R8). -/
def ticksPerSecond : Nat := 2560000000

/-- Ticks in one tag frame (R8). -/
def tagFrameTicks : Nat := 262144

/-- The zero time word. -/
def TimeWord.zero : TimeWord := ⟨0, 0, 0⟩

/-- The global tick count of a time word (R233): ticks since second 0, tick 0. -/
def TimeWord.globalTick (t : TimeWord) : Nat := t.seconds * ticksPerSecond + t.tick

/-- The time word, fine bin 0, of a global tick count. -/
def TimeWord.ofGlobalTick (g : Nat) : TimeWord :=
  ⟨g / ticksPerSecond % 2 ^ 40, g % ticksPerSecond, 0⟩

/-- R10: a time word given as a command parameter is legal when its tick is at most
2,559,999,999 and bit 7 of its fine-bin byte is clear. -/
def TimeWord.legal (t : TimeWord) : Bool := t.tick < ticksPerSecond && t.fine < 128

/-- A time word in fine bins since second 0, for comparisons (R8: 128 fine bins in a tick). -/
def TimeWord.fineCount (t : TimeWord) : Nat := t.globalTick * 128 + t.fine

/-- `t` lies at or before `u`. -/
def TimeWord.le (t u : TimeWord) : Bool := t.fineCount ≤ u.fineCount

/-- An inclusive range of pixels, tiles or other targets of a command (R448). -/
structure Range where
  first : Nat
  last : Nat
  deriving DecidableEq, Repr

/-- `i` lies in the range. -/
def Range.has (r : Range) (i : Nat) : Bool := r.first ≤ i && i ≤ r.last

/-- `n` fits in a field of `w` bits. -/
def fits (w n : Nat) : Bool := n < 2 ^ w

end Sys2Proof
end

