-- ==== Sys2Proof/Machine/Bits.lean ====
section
/-! DEFINITION. Bit fields, byte order (R5, R14) and small list operations. -/

namespace Sys2Proof.Machine

/-- The low `n` bytes of `v`, least significant byte first (R5). -/
def leBytes : Nat → Nat → List Byte
  | 0, _ => []
  | n + 1, v => BitVec.ofNat 8 v :: leBytes n (v / 256)

/-- The number whose bytes, least significant first, are given (R5). -/
def ofLe : List Byte → Nat
  | [] => 0
  | b :: bs => b.toNat + 256 * ofLe bs

/-- Bits `hi` down to `lo` of a number. -/
def bits (v hi lo : Nat) : Nat := v / 2 ^ lo % 2 ^ (hi + 1 - lo)

/-- Bit `i` of a number. -/
def bit (v i : Nat) : Bool := v / 2 ^ i % 2 == 1

/-- A flag as a number. -/
def b2n (b : Bool) : Nat := if b then 1 else 0

/-- `n` bytes of a list from an offset, fewer where the list ends. -/
def sliceBytes (bs : List Byte) (off n : Nat) : List Byte := (bs.drop off).take n

/-- The little-endian number of `n` bytes at an offset of a list; bytes beyond the end count as 0. -/
def fieldAt (bs : List Byte) (off n : Nat) : Nat := ofLe (sliceBytes bs off n)

/-- `n` zero bytes. -/
def zeros (n : Nat) : List Byte := List.replicate n 0

/-- Two's complement of a signed number in `w` bits. -/
def toTwos (w : Nat) (i : Int) : Nat := (i % (2 ^ w : Int)).toNat

/-- The signed number a `w`-bit field holds. -/
def ofTwos (w n : Nat) : Int := if n % 2 ^ w < 2 ^ (w - 1) then (n % 2 ^ w : Int) else (n % 2 ^ w : Int) - 2 ^ w

/-- A signed number kept between two bounds. -/
def clampInt (lo hi i : Int) : Int := if i < lo then lo else if hi < i then hi else i

/-- A count of `w` bits that stays at its largest value. -/
def satInc (w n : Nat) : Nat := if n + 1 < 2 ^ w then n + 1 else 2 ^ w - 1

/-- A number kept within `w` bits at its largest value. -/
def saturate (w n : Nat) : Nat := if n < 2 ^ w then n else 2 ^ w - 1

/-- A number that moves towards a target by at most a step. -/
def moveTowards (x target step : Nat) : Nat := if x ≤ target then min target (x + step) else max target (x - step)

/-- A division rounded up. -/
def ceilDiv (a b : Nat) : Nat := (a + b - 1) / b

/-- The bytes of a time word, 12 bytes (R9): fine bin, tick, seconds, the reserved bits 0. -/
def twBytes (t : TimeWord) : List Byte :=
  leBytes 1 t.fine ++ leBytes 4 t.tick ++ leBytes 7 t.seconds

/-- The time word that 12 bytes spell (R9). -/
def timeWordAt (bs : List Byte) (off : Nat) : TimeWord :=
  ⟨fieldAt bs (off + 5) 5, fieldAt bs (off + 1) 4, fieldAt bs off 1⟩

/-- Bytes of a list of bits, least significant bit first, the last byte filled with 0. -/
def bytesOfBits : Nat → List Bool → List Byte
  | 0, _ => []
  | n + 1, bs => BitVec.ofNat 8 (((bs.take 8).foldr (fun b acc => b2n b + 2 * acc) 0)) :: bytesOfBits n (bs.drop 8)

/-- The low `w` bits of a number, least significant first. -/
def bitsOf : Nat → Nat → List Bool
  | 0, _ => []
  | w + 1, v => (v % 2 == 1) :: bitsOf w (v / 2)

/-- Change the element at an index of a vector, where the index is one of it. -/
def modAt {α : Type} {n : Nat} (v : Vector α n) (i : Nat) (f : α → α) : Vector α n :=
  if h : i < n then v.set i (f v[i]) h else v

/-- Change every element of a vector whose index lies in a range. -/
def modRange {α : Type} {n : Nat} (v : Vector α n) (r : Range) (f : Nat → α → α) : Vector α n :=
  v.mapIdx fun i a => if r.has i then f i a else a

/-- An element of a vector by number, with a default beyond its end. -/
def getD {α : Type} {n : Nat} (v : Vector α n) (i : Nat) (d : α) : α :=
  if h : i < n then v[i] else d

end Sys2Proof.Machine
end

