-- ==== Sys2Proof/Machine/Float32.lean ====
section
/-! DEFINITION. binary32 arithmetic, rounded to nearest with ties to even (R89, R119). -/

namespace Sys2Proof.Machine

/-- A fraction rounded to the nearest integer, ties to even. -/
def rneNat (num den : Nat) : Nat :=
  let q := num / den
  let r := num % den
  if 2 * r < den then q else if den < 2 * r then q + 1 else if q % 2 = 0 then q else q + 1

/-- A signed fraction rounded to the nearest integer, ties to even. -/
def rneInt (num : Int) (den : Nat) : Int :=
  if num < 0 then -(rneNat num.natAbs den : Int) else rneNat num.natAbs den

/-- A sign bit in front of 31 bits. -/
def f32Sign (neg : Bool) (m : Nat) : Nat := (if neg then 2 ^ 31 else 0) + m

/-- The binary32 nearest to a fraction, with a sign; the sign of a zero result is the one given. -/
def f32Round (neg : Bool) (num den : Nat) : Nat :=
  if num = 0 then f32Sign neg 0
  else
    -- exponent of the value: 2 ^ e ≤ num / den < 2 ^ (e + 1)
    let e0 : Int := (Nat.log2 num : Int) - (Nat.log2 den : Int)
    let below : Bool := if 0 ≤ e0 then num < den * 2 ^ e0.toNat else num * 2 ^ (-e0).toNat < den
    let e : Int := if below then e0 - 1 else e0
    let e : Int := if e < -126 then -126 else e
    -- the quantum is 2 ^ (e - 23)
    let q : Int := e - 23
    let m := if 0 ≤ q then rneNat num (den * 2 ^ q.toNat) else rneNat (num * 2 ^ (-q).toNat) den
    let bitsOf := (e + 126).toNat * 2 ^ 23 + m
    f32Sign neg (if 255 * 2 ^ 23 ≤ bitsOf then 255 * 2 ^ 23 else bitsOf)

/-- A binary32 is finite. -/
def f32Finite (w : Nat) : Bool := bits w 30 23 != 255

/-- The sign of a binary32. -/
def f32Neg (w : Nat) : Bool := bit w 31

/-- A finite binary32 as mantissa and power of two. -/
def f32Parts (w : Nat) : Nat × Int :=
  let e := bits w 30 23
  if e = 0 then (bits w 22 0, -149) else (2 ^ 23 + bits w 22 0, (e : Int) - 150)

/-- A signed finite binary32 as an integer over a power of two: numerator and the exponent of the denominator. -/
def f32Frac (w : Nat) : Int × Nat :=
  let (m, e) := f32Parts w
  let n : Int := if f32Neg w then -(m : Int) else m
  if 0 ≤ e then (n * 2 ^ e.toNat, 0) else (n, (-e).toNat)

/-- The binary32 nearest to a signed fraction; zero is positive. -/
def f32OfFrac (num : Int) (den : Nat) : Nat := f32Round (num < 0) num.natAbs den

/-- Not a number, the value every operation on a value that is not finite gives here: R89 only asks whether the
result is finite, and no later operation makes it finite again. -/
def f32Nan : Nat := 0x7FC00000

/-- The product of two binary32 values. -/
def f32Mul (a b : Nat) : Nat :=
  if f32Finite a && f32Finite b then
    let (n, i) := f32Frac a
    let (m, j) := f32Frac b
    f32Round (f32Neg a != f32Neg b) (n * m).natAbs (2 ^ (i + j))
  else f32Nan

/-- The sum of two binary32 values. -/
def f32Add (a b : Nat) : Nat :=
  if f32Finite a && f32Finite b then
    let (n, i) := f32Frac a
    let (m, j) := f32Frac b
    let s := n * 2 ^ j + m * 2 ^ i
    if s = 0 then f32Sign (f32Neg a && f32Neg b) 0 else f32OfFrac s (2 ^ (i + j))
  else f32Nan

/-- The difference of two binary32 values. -/
def f32Sub (a b : Nat) : Nat := f32Add a (if f32Neg b then b - 2 ^ 31 else b + 2 ^ 31)

end Sys2Proof.Machine
end

