-- ==== Sys2Proof/Machine/Crc.lean ====
section
/-! DEFINITION. CRC-32C (R390) and the Schuss check (R358). -/

namespace Sys2Proof.Machine

/-- One bit of the reflected CRC-32C, generator 0x1EDC6F41 (R390). -/
def crc32cBit (c : Nat) : Nat := if c % 2 = 1 then (c / 2) ^^^ 0x82F63B78 else c / 2

/-- One byte of CRC-32C. -/
def crc32cByte (c : Nat) (b : Byte) : Nat :=
  crc32cBit (crc32cBit (crc32cBit (crc32cBit (crc32cBit (crc32cBit (crc32cBit (crc32cBit (c ^^^ b.toNat))))))))

/-- CRC-32C of a byte string (R390). -/
def crc32c (bs : List Byte) : Nat := (bs.foldl crc32cByte 0xFFFFFFFF) ^^^ 0xFFFFFFFF

/-- A byte string followed by its CRC-32C, least significant byte first. -/
def withCrc (bs : List Byte) : List Byte := bs ++ leBytes 4 (crc32c bs)

/-- The 12-bit check of a Schuss message over its 52 content bits, most significant first (R358):
generator x^12 + x^11 + x^3 + x^2 + x + 1, from all ones, no final inversion. -/
def crc12 (content : Nat) : Nat :=
  (bitsOf 52 content).reverse.foldl
    (fun c b =>
      let top := (c / 2048 % 2 == 1) != b
      let sh := c * 2 % 4096
      if top then sh ^^^ 0x80F else sh)
    0xFFF

end Sys2Proof.Machine
end

