-- ==== Sys2Proof/Config.lean ====
section
/-! DEFINITION. What the spec leaves to the chip or leaves open: factory values, and free values that nothing
constrains. Each is opaque, so no statement can rest on a number. -/

namespace Sys2Proof.Config

/-! ### Factory calibration (R543: the region's layout is not given) -/

/-- Factory offset of a converter slice, in 1/64 code (R105). -/
opaque sliceOffset : (pixel slice : Nat) → Int
/-- Factory gain of a converter slice, in 2^-16 (R105). -/
opaque sliceGain : (pixel slice : Nat) → Int
/-- Factory delay trim of a converter slice, in 0.1 ps (R105). -/
opaque sliceDelay : (pixel slice : Nat) → Int
/-- Factory interpolator pair (R168). -/
opaque factoryC1 : (pixel : Nat) → BitVec 13
/-- Factory interpolator pair (R168). -/
opaque factoryC2 : (pixel : Nat) → BitVec 13
/-- Factory edge-path delay in fine bins (R171). -/
opaque edgeDelay : (pixel : Nat) → BitVec 12
/-- Factory trigger-path delay of a pixel, rounded to whole ticks (R185). -/
opaque triggerDelay : (pixel : Nat) → BitVec 8
/-- Factory delay of an external trigger input, rounded to whole ticks (R185). -/
opaque xtDelay : (xt : Nat) → BitVec 8
/-- Factory-calibrated excitation current of a monitor input at a setting of `i_exc`, in picoamperes (R91). -/
opaque excitation : (input setting : Nat) → Nat
/-- Factory calibration of an internal point of MON (R113): the reading as a fraction, scaled, to binary32 bits. -/
opaque pointValue : (input : Nat) → (num : Int) → (den : Nat) → BitVec 32

/-- Factory gain trim of a pixel (R513). -/
opaque factoryTrim : (pixel : Nat) → Nat
/-- Factory single-photoelectron charge of a pixel at a gain step, binary32 bits (R520, R521). -/
opaque factoryCharge : (pixel gain : Nat) → BitVec 32
/-- Factory gain ratio r of a gain step of a pixel, in an unstated unit (R521 uses quotients of two). -/
opaque gainRatio : (pixel gain : Nat) → Nat
/-- Factory value of the learned INT correction, in 0.001 ppm (R141). -/
opaque factoryCorrection : Int
/-- The bytes of the factory calibration region of the flash (R543). -/
opaque factoryRegion : List Byte

/-! ### The chip and its firmware -/

/-- Stepping of the module, 0 to 31 (R33, R455). -/
opaque stepping : BitVec 5
/-- Grade of the module: 0 PX1024-LG, 1 PX1024-LG-H (R455). -/
opaque grade : BitVec 1
/-- Serial number (R455). -/
opaque serial : BitVec 64
/-- Images a module is shipped with in slots A, by kind: 0 control, 1 lane (R551). -/
opaque shippedImage : (kind : Nat) → List Byte
/-- Their versions, as the shipped boot-selector record holds them (R550). -/
opaque shippedVersion : (kind : Nat) → BitVec 32
/-- A version that `SYS.IDENTIFY` reports while no image runs: 0 control, 1 lane, 2 the schema minor (R455). -/
opaque romVersion : (kind : Nat) → BitVec 32
/-- The release keys in ROM, of which the module uses at most 4 (R552). -/
opaque releaseKeys : List (List Byte)
/-- A target of a request kind stands in the table of legal targets of the control firmware (R469). -/
opaque legalTarget : (kind target : Nat) → Bool
/-- Where in a control member's state the target of a voted write lies, if it lies there: the manual gives no address map of the
members (R464, R473). -/
opaque memberOffset : (target : Nat) → Option Nat
/-- The result of a voted read: the manual does not say what stands at a target address (R463). -/
opaque readResult : (n : Nat) → List Byte
/-- `magic` of a record in the INT-correction area, whose layout is the module's own (R544, R548). -/
opaque correctionMagic : BitVec 64

/-! ### Free values -/

/-- The interval of an edge whose pair has c1 = c2 (R171 divides by their difference). -/
opaque edgeInterval : (use : Nat) → Int
/-- The bias of a tile that `FE.STATUS` reports while MON has no reading of it (R98, R119), binary32 bits. -/
opaque measuredBias : (tile use : Nat) → BitVec 32
/-- The output of a bias generator at a tick of its active discharge (R496), in 1/256,000 of 10 mV. -/
opaque dischargeBias : (tile tick : Nat) → BitVec 32
/-- The measured bias current of a tile that `FE.STATUS` reports (R98), binary32 bits. -/
opaque measuredCurrent : (tile use : Nat) → BitVec 32
/-- The tile temperature while no lid reading exists (R97), binary32 bits. -/
opaque firstTemperature : (use : Nat) → BitVec 32
/-- The code of event 1890 for what retired a slice (R124): 0 offset, 1 gain, 2 delay, 3 self-test. -/
opaque retireCode : (reason : Nat) → Nat
/-- The number an event carries for "none" (R411, R437). -/
opaque noneCode : Int
/-- The raw code of a converter sample that no operand has given. -/
opaque sampleCode : (pixel tick : Nat) → BitVec 12
/-- A code of a converter test's step that the row does not give (R528). -/
opaque testCode : (step index : Nat) → BitVec 12
/-- The running mean of a converter position (R106, which gives no rule for it), in 1/65,536 code. -/
opaque runningMean : (pixel tick : Nat) → BitVec 28
/-- An estimate of R106 whose regression has nothing to divide by, in 1/65,536 of its unit. -/
opaque noEstimate : (use : Nat) → BitVec 32

/-- The identity of a new log (R373, R389); 0 is not taken. -/
opaque freshLogId : (use : Nat) → BitVec 64

/-- A byte that an interrupted erase leaves (R546), or the bits of a byte in a page whose program was interrupted. -/
opaque tornByte : (offset use : Nat) → BitVec 8

/-- Input power in mW before the first window of R507 has ended. -/
opaque inputPower : (use : Nat) → Nat

/-- A reading of `PWR.STATUS` of which MON has no latest value yet, binary32 bits. -/
opaque firstReading : (input use : Nat) → BitVec 32

/-- The temperature and time that `CAL.STATUS` gives for the last run of a tile that has had none: 16 bytes. -/
opaque noRun : (tile use : Nat) → BitVec 128

/-- A raw code of a calibration slot that the outside does not give: of a pixel, the 16 one-tick codes and then the 16 two-tick
codes (R166). -/
opaque slotCode : (pixel code use : Nat) → BitVec 9

/-- The byte of segment memory from which free room is taken for a segment: where in segment memory it is placed is not stated
(R221). -/
opaque segmentStart : (use : Nat) → BitVec 26

/-- The number from which the free chain buffers are looked through when one is taken (R258): which free buffer a writer
takes is not stated. -/
opaque nextBuffer : (use : Nat) → BitVec 13

/-- Where a shortened FEC codeword's absent message symbols stand: before those that are sent, or after them (R308). -/
opaque absentFirst : Bool

/-- The bit that a received pair of two equal line bits reads as in a coded K nibble (R312). -/
opaque brokenPair : Bool → Bool

/-- PAM4 symbols of the 256 ns clock pattern of a wake burst at a stage with FEC, where they are no whole number (R330). -/
opaque clockSymbols : (stage : Nat) → Nat

/-- A field of a status reply that has nothing to report, where the spec states no value for that case: which field, and
a counter of uses. -/
opaque unstated : (field use : Nat) → Nat

/-- Latency in ps of a fire's formation or of a Schuss relay, which the model does not time (R536). -/
opaque latency : (quantity use : Nat) → Nat

end Sys2Proof.Config
end

