-- ==== Sys2Proof/Machine/FlashMem.lean ====
section
/-! DEFINITION. The bytes of the configuration flash as a list of those that are not blank, by rising offset (R542),
and the boot-selector record (R550). -/

namespace Sys2Proof.Machine

/-- The erased value (R542): what an unlisted offset reads as. -/
def flashBlank : Byte := 0xFF

/-- Bytes of the flash (R542). -/
def flashSize : Nat := 67108864

/-- The byte at an offset. -/
def flashByte (f : List Host.Cell) (a : Nat) : Byte := ((f.find? fun c => c.1 == a).map (·.2)).getD flashBlank

/-- `n` bytes from an offset, the cells below it left out already. -/
def flashRun (f : List Host.Cell) (a : Nat) : Nat → List Byte
  | 0 => []
  | n + 1 =>
    match f with
    | [] => flashBlank :: flashRun [] (a + 1) n
    | c :: r => if c.1 = a then c.2 :: flashRun r (a + 1) n else flashBlank :: flashRun f (a + 1) n

/-- `n` bytes from an offset. -/
def flashBytes (f : List Host.Cell) (a n : Nat) : List Byte := flashRun (f.dropWhile fun c => c.1 < a) a n

/-- Set the byte at an offset, keeping the list by rising offset and without blank bytes. -/
def flashPut (f : List Host.Cell) (a : Nat) (b : Byte) : List Host.Cell :=
  match f with
  | [] => if b = flashBlank then [] else [(a, b)]
  | c :: r =>
    if c.1 < a then c :: flashPut r a b
    else if c.1 = a then (if b = flashBlank then r else (a, b) :: r)
    else if b = flashBlank then c :: r else (a, b) :: c :: r

/-- Set consecutive bytes from an offset. -/
def flashWrite (f : List Host.Cell) (a : Nat) (bs : List Byte) : List Host.Cell :=
  match bs with
  | [] => f
  | b :: r => flashWrite (flashPut f a b) (a + 1) r

/-- Bytes of a sector (R542). -/
def sectorBytes : Nat := 65536

/-- Erase a sector: every byte of it reads blank (R542). -/
def flashErase (f : List Host.Cell) (sector : Nat) : List Host.Cell := f.filter fun c => c.1 / sectorBytes != sector

/-- The canonical form: offsets strictly rising, no blank byte listed. -/
def flashWf : List Host.Cell → Bool
  | [] => true
  | [c] => c.2 != flashBlank
  | c :: x :: r => c.2 != flashBlank && c.1 < x.1 && flashWf (x :: r)

/-- A boot-selector record as its fields (R550). -/
structure BootRecord where
  gen : Nat
  ctrlSlot : Nat
  laneSlot : Nat
  prevCtrl : Nat
  prevLane : Nat
  trial : Bool
  trialBoots : Nat
  bootMap : Nat
  ctrlVersion : Nat
  laneVersion : Nat
  written : TimeWord
  deriving DecidableEq, Repr

/-- The ASCII bytes of a text. -/
def textBytes (s : String) : List Byte := s.toList.map fun c => BitVec.ofNat 8 c.toNat

/-- The 64 bytes of a boot-selector record (R550). -/
def BootRecord.bytes (r : BootRecord) : List Byte :=
  withCrc (textBytes "PXBOOTSL" ++ leBytes 4 r.gen ++ leBytes 1 r.ctrlSlot ++ leBytes 1 r.laneSlot
    ++ leBytes 1 r.prevCtrl ++ leBytes 1 r.prevLane ++ leBytes 1 (b2n r.trial) ++ leBytes 1 r.trialBoots
    ++ leBytes 1 r.bootMap ++ zeros 1 ++ leBytes 4 r.ctrlVersion ++ leBytes 4 r.laneVersion ++ twBytes r.written
    ++ zeros 20)

end Sys2Proof.Machine
end

