-- ==== Sys2Proof/Machine/Line.lean ====
section
/-! DEFINITION. The line: bit order, stages, PAM4, scramblers, FEC, K frames and PRBS patterns (R305 to R309, R312, R326,
R344, R358). -/

namespace Sys2Proof.Machine

/-! ### Bits of a lane (R305) -/

/-- The bits of bytes in line order: the least significant bit of each byte first (R305). -/
def lineBits (bs : List Byte) : List Bool := bs.flatMap fun b => bitsOf 8 b.toNat

/-- The bytes that bits in line order spell. -/
def lineBytes (n : Nat) (bs : List Bool) : List Byte := bytesOfBits n bs

/-- The quarter of a parcel that travels on lane q of its port: bytes 16q to 16q + 15 (R305). -/
def parcelQuarter (bs : List Byte) (q : Nat) : List Byte := sliceBytes bs (16 * q) 16

/-- The number that bits spell, the first the least significant. -/
def ofBits (bs : List Bool) : Nat := bs.foldr (fun b acc => b2n b + 2 * acc) 0

/-! ### Stages (R306, R274) -/

/-- The modulation of a stage is PAM4; else it is NRZ (R306). -/
def isPam4 (stage : Nat) : Bool := 3 ≤ stage

/-- Data rate of one lane at a stage, in Gbit/s (R306). -/
def laneRate (stage : Nat) : Nat := 7 * 2 ^ stage

/-- Ticks that n bits of a lane last at the data rate of a stage, rounded up: 2.56 ticks a ns (R306). -/
def dataTicks (stage n : Nat) : Nat := ceilDiv (n * 256) (laneRate stage * 100)

/-- Ticks that n bits last at the signalling rate: the data rate, times 272/257 with FEC (R306). -/
def signalTicks (stage : Nat) (fec : Bool) (n : Nat) : Nat :=
  if fec then ceilDiv (n * 256 * 257) (laneRate stage * 100 * 272) else dataTicks stage n

/-- t_align: 65,536 chair times, each 128 bits on a lane (R274, R317). -/
def alignTicks (stage : Nat) : Nat := dataTicks stage (65536 * 128)

/-! ### PAM4 (R307) -/

/-- The level of two consecutive bits, the first the more significant: 00, 01, 11 and 10 map to 0, 1, 2 and 3 (R307). -/
def pam4Level : Bool → Bool → Nat
  | false, false => 0
  | false, true => 1
  | true, true => 2
  | true, false => 3

/-- The bits of a level. -/
def pam4Pair (level : Nat) : List Bool :=
  if level = 0 then [false, false] else if level = 1 then [false, true] else if level = 2 then [true, true] else [true, false]

/-- The levels of a stretch of bits (R307). -/
def pam4Levels : List Bool → List Nat
  | a :: b :: rest => pam4Level a b :: pam4Levels rest
  | _ => []

/-- What a lane's transmit pair carries for bits of a stage: a level of 0 or 1 for each in NRZ, of 0 to 3 for each two in PAM4
(R306, R307). -/
def lineLevels (stage : Nat) (bs : List Bool) : List Nat := if isPam4 stage then pam4Levels bs else bs.map b2n

/-- A byte as received over a pair of inverted polarity, put right (R304): every bit in NRZ; in PAM4 the levels run the other way,
which inverts the first bit of each pair. -/
def uninvert (stage : Nat) (b : Byte) : Byte := b ^^^ (if isPam4 stage then 0x55 else 0xFF)

/-- The bytes of a lane after its receiver's polarity correction (R304). -/
def polarised (stage : Nat) (inverted : Bool) (bs : List Byte) : List Byte := if inverted then bs.map (uninvert stage) else bs

/-- A 10-bit symbol of a codeword after the polarity correction: ten bits hold five PAM4 symbols (R304). -/
def polarisedSymbol (stage : Nat) (inverted : Bool) (x : Nat) : Nat :=
  if inverted then x ^^^ (if isPam4 stage then 0x155 else 0x3FF) else x

/-! ### The parcel scrambler (R344) -/

/-- The seed after the alignment block with counter c, on lane q. -/
def scrambleSeed (c q : Nat) : Nat := 2 ^ 22 + c % 2 ^ 20 * 4 + q

/-- One step: the bit that is added, and the next state. -/
def scrambleStep (s : Nat) : Bool × Nat :=
  let o := bit s 22 != bit s 17
  (o, (s * 2 + b2n o) % 2 ^ 23)

/-- The state after n bits. -/
def scrambleSkip : Nat → Nat → Nat
  | 0, s => s
  | n + 1, s => scrambleSkip n (scrambleStep s).2

/-- Bits of a rotation scrambled or descrambled from a state on. -/
def scrambleFrom (s : Nat) : List Bool → List Bool
  | [] => []
  | b :: bs => (b != (scrambleStep s).1) :: scrambleFrom (scrambleStep s).2 bs

/-- The 128 bits of a parcel quarter in a chair of the rotation whose block had counter c, on lane q; the same operation takes the
scrambling off again (R344). -/
def scrambleQuarter (c q chair : Nat) (bs : List Bool) : List Bool := scrambleFrom (scrambleSkip (128 * chair) (scrambleSeed c q)) bs

/-! ### FEC: RS(544,514) over 10-bit symbols (R308)

R308 names the code of IEEE 802.3. PRESUMED, from that standard (log entry 60): the field polynomial x^10 + x^3 + 1, the generator
polynomial with roots α^0 to α^29, the first symbol sent as the highest coefficient, each symbol least significant bit first. -/

/-- Multiplication by x in the field. -/
def gfDouble (a : Nat) : Nat := if 512 ≤ a then (a * 2) ^^^ 0x409 else a * 2

/-- Multiplication in the field, over the low n bits of the second factor. -/
def gfMulBits : Nat → Nat → Nat → Nat
  | 0, _, _ => 0
  | n + 1, a, b => (if b % 2 = 1 then a else 0) ^^^ gfMulBits n (gfDouble a) (b / 2)

/-- Multiplication in the field. -/
def gfMul (a b : Nat) : Nat := gfMulBits 10 a b

/-- A power of an element. -/
def gfPow (a : Nat) : Nat → Nat
  | 0 => 1
  | n + 1 => gfMul a (gfPow a n)

/-- α^n. -/
def alpha (n : Nat) : Nat := gfPow 2 (n % 1023)

/-- The inverse of an element: a^1022, by squaring; 0 for 0. -/
def gfInv (a : Nat) : Nat :=
  ((List.range 9).foldl (fun (x : Nat × Nat) _ => let sq := gfMul x.1 x.1; (sq, gfMul x.2 sq)) (a, 1)).2

/-- A polynomial's value, the lowest coefficient first. -/
def polyAt (p : List Nat) (x : Nat) : Nat := p.foldr (fun c acc => c ^^^ gfMul acc x) 0

/-- The sum of two polynomials. -/
def polyAdd : List Nat → List Nat → List Nat
  | [], q => q
  | p, [] => p
  | a :: p, b :: q => (a ^^^ b) :: polyAdd p q

/-- A polynomial times an element. -/
def polyScale (k : Nat) (p : List Nat) : List Nat := p.map (gfMul k)

/-- The product of two polynomials. -/
def polyMul : List Nat → List Nat → List Nat
  | [], _ => []
  | a :: p, q => polyAdd (polyScale a q) (0 :: polyMul p q)

/-- The generator polynomial, lowest coefficient first: the product of x + α^j for j from 0 to 29. -/
def rsGenerator : List Nat := (List.range 30).foldl (fun g j => polyMul g [alpha j, 1]) [1]

/-- One step of the encoder: a message symbol enters; the 30 remainders, highest first. -/
def rsStep (gen : List Nat) (r : List Nat) (m : Nat) : List Nat :=
  let f := m ^^^ r.headD 0
  polyAdd (r.drop 1 ++ [0]) (polyScale f gen)

/-- The 30 parity symbols of message symbols, in the order sent (R308). -/
def rsParity (message : List Nat) : List Nat :=
  let gen := (rsGenerator.take 30).reverse
  message.foldl (rsStep gen) (List.replicate 30 0)

/-- A shortened codeword's message: its absent symbols taken as 0 (R308), before or after those that are sent, which the spec
leaves open. -/
def fullMessage (message : List Nat) : List Nat :=
  if Config.absentFirst then List.replicate (514 - message.length) 0 ++ message
  else message ++ List.replicate (514 - message.length) 0

/-- The symbols of message bits: ten bits each, the last filled with 0 bits (R308). -/
def symbolsOf : Nat → List Bool → List Nat
  | 0, _ => []
  | n + 1, bs => if bs.isEmpty then [] else ofBits (bs.take 10) :: symbolsOf n (bs.drop 10)

/-- The bits of symbols in line order. -/
def symbolBits (ss : List Nat) : List Bool := ss.flatMap fun s => bitsOf 10 s

/-- The 300 parity bits of a codeword whose message bits are given: all 5,140, or fewer in a shortened one (R308). -/
def parityBits (message : List Bool) : List Bool := symbolBits (rsParity (fullMessage (symbolsOf 514 message)))

/-- Message bits go out on a lane with FEC: the codeword under way gathers them, and a whole one is followed by its parity. The
second part is what the codeword under way then holds. -/
def fecSend (held bs : List Bool) : List Bool × List Bool :=
  let all := held ++ bs
  if all.length < 5140 then (bs, all)
  else (bs.take (5140 - held.length) ++ parityBits (all.take 5140) ++ bs.drop (5140 - held.length), all.drop 5140)

/-- The end of a rotation's last codeword: 0 bits up to a whole symbol, and its parity (R308). -/
def fecFlush (held : List Bool) : List Bool :=
  if held.isEmpty then []
  else List.replicate ((10 - held.length % 10) % 10) false ++ parityBits held

/-- The syndromes of a received codeword, j from 0 to 29; the highest coefficient comes first. -/
def syndromes (word : List Nat) : List Nat :=
  (List.range 30).map fun j => word.foldl (fun acc c => c ^^^ gfMul acc (alpha j)) 0

/-- The error locator found from the syndromes: Berlekamp and Massey's iteration. -/
structure Locator where
  c : List Nat
  b : List Nat
  length : Nat
  shift : Nat
  last : Nat
  deriving DecidableEq, Repr

/-- One turn of the iteration, on syndrome n. -/
def Locator.turn (syn : List Nat) (x : Locator) (n : Nat) : Locator :=
  let delta := (List.range (x.length + 1)).foldl (fun acc i => acc ^^^ gfMul (x.c.getD i 0) (if i ≤ n then syn.getD (n - i) 0 else 0)) 0
  if delta = 0 then { x with shift := x.shift + 1 }
  else
    let c := polyAdd x.c (List.replicate x.shift 0 ++ polyScale (gfMul delta (gfInv x.last)) x.b)
    if 2 * x.length ≤ n then ⟨c, x.c, n + 1 - x.length, 1, delta⟩ else { x with c := c, shift := x.shift + 1 }

/-- The error locator of a set of syndromes. -/
def locate (syn : List Nat) : Locator := (List.range 30).foldl (Locator.turn syn) ⟨[1], [1], 0, 1, 1⟩

/-- The error values of a locator, by Forney's formula: each wrong position, counted from the last symbol, with its value. -/
def errorsOf (syn : List Nat) (x : Locator) : List (Nat × Nat) :=
  let omega := (polyMul syn x.c).take 30
  let derivative := (x.c.drop 1).zipIdx.map fun c => if c.2 % 2 = 0 then c.1 else 0
  ((List.range 544).filter fun i => polyAt x.c (alpha (1023 - i)) == 0).map fun i =>
    let at_ := alpha (1023 - i)
    (i, gfMul (alpha i) (gfMul (polyAt omega at_) (gfInv (polyAt derivative at_))))

/-- A decoded codeword: its symbols, the symbols corrected, and whether it was uncorrectable (R308). -/
structure FecWord where
  symbols : List Nat
  corrected : Nat
  uncorrectable : Bool
  deriving DecidableEq, Repr

/-- Decode a whole codeword of 544 symbols: up to 15 symbol errors are corrected; one with more passes on as received (R308). -/
def rsDecode (word : List Nat) : FecWord :=
  let syn := syndromes word
  if syn.all (· == 0) then ⟨word, 0, false⟩
  else
    let x := locate syn
    let errs := errorsOf syn x
    let fixed := word.mapIdx fun i c => c ^^^ (errs.foldl (fun acc e => if e.1 + i = 543 then acc ^^^ e.2 else acc) 0)
    if x.length ≤ 15 && errs.length == x.length && (syndromes fixed).all (· == 0) then ⟨fixed, errs.length, false⟩
    else ⟨word, 0, true⟩

/-- Decode a codeword of n sent message symbols and 30 of parity (R308): an error placed in a symbol that was not sent makes it
uncorrectable. The symbols answered are those of the message. -/
def fecDecode (n : Nat) (sent : List Nat) : FecWord :=
  let message := (sent ++ List.replicate n 0).take n
  let parity := (sent.drop n ++ List.replicate 30 0).take 30
  let whole := rsDecode (fullMessage message ++ parity)
  let part := if Config.absentFirst then (whole.symbols.take 514).drop (514 - n) else whole.symbols.take n
  let absent := if Config.absentFirst then whole.symbols.take (514 - n) else (whole.symbols.take 514).drop n
  if whole.uncorrectable || absent.any (· != 0) then ⟨message, 0, true⟩ else ⟨part, whole.corrected, false⟩

/-- Bits that a rotation carries on a lane: its block and 4,096 quarters of 128 bits (R342). -/
def rotationBits : Nat := 4097 * 128

/-- Message symbols of codeword k of a rotation: 514, or what is left for the last, shortened one (R308). -/
def codewordSymbols (k : Nat) : Nat := min 514 (ceilDiv (rotationBits - 5140 * k) 10)

/-! ### The forwarded-clock lane (R309, R312) -/

/-- The nibble's four bits as sent: bit 0 first, a 1 as 10 and a 0 as 01 (R312). -/
def manchester (nibble : Nat) : List Bool := (bitsOf 4 nibble).flatMap fun b => [b, !b]

/-- The 128 bits of a K frame (R309): the marker, one coded nibble, then 1 and 0 in turn. -/
def kFrame (nibble : Nat) : List Bool :=
  [true, true, true, true, false, false, false, false] ++ manchester nibble ++ (List.range 112).map fun i => i % 2 == 0

/-- The nibble that bits 8 to 15 of a K frame spell, here as a byte whose bit 0 was received first; what a pair that is neither 10
nor 01 reads as is open (R312). -/
def nibbleOf (coded : Byte) : Nat :=
  ofBits ((List.range 4).map fun i =>
    let a := bit coded.toNat (2 * i)
    let b := bit coded.toNat (2 * i + 1)
    if a != b then a else Config.brokenPair a)

/-- The nibble of a 16-byte message that its frame n carries: byte 0 first, the low nibble of each byte first (R312). -/
def messageNibble (message : List Byte) (n : Nat) : Nat := fieldAt message (n / 2) 1 / 16 ^ (n % 2) % 16

/-- The 16 bytes of 32 nibbles, the first received first (R312). -/
def messageOf : Nat → List Nat → List Byte
  | 0, _ => []
  | n + 1, ns => BitVec.ofNat 8 (ns.headD 0 + 16 * (ns.drop 1).headD 0) :: messageOf n (ns.drop 2)

/-! ### PRBS patterns (R326) -/

/-- Degree of a pattern and the taps of its polynomial below the constant term, as bits of the state. -/
def prbsTaps (code : Nat) : Nat × List Nat :=
  if code = 0 then (31, [30, 27]) else if code = 1 then (23, [22, 17]) else if code = 2 then (15, [14, 13])
  else if code = 3 then (13, [12, 11, 1, 0]) else if code = 4 then (9, [8, 4]) else (7, [6, 5])

/-- One step of a generator: the bit sent and the next state. -/
def prbsStep (code s : Nat) : Bool × Nat :=
  let (n, taps) := prbsTaps code
  let o := taps.foldl (fun acc i => acc != bit s i) false
  (o, (s * 2 + b2n o) % 2 ^ n)

/-- n bits of a generator from a state on. -/
def prbsFrom (code : Nat) : Nat → Nat → List Bool
  | 0, _ => []
  | n + 1, s => (prbsStep code s).1 :: prbsFrom code n (prbsStep code s).2

/-- The first n bits of a pattern: each generator starts from all ones (R326). -/
def prbsBits (code n : Nat) : List Bool := prbsFrom code n (2 ^ (prbsTaps code).1 - 1)

/-- A self-synchronous checker (R326). -/
structure PrbsChecker where
  /-- bits loaded so far, up to the degree -/
  loaded : Nat
  state : Nat
  /-- error-free bits since the load, up to 64 -/
  clean : Nat
  /-- the errors among the latest 256 bits in sync, newest first -/
  recent : List Bool
  inSync : Bool
  bits : Nat
  errors : Nat
  syncLoss : Nat
  deriving DecidableEq, Repr

/-- A checker that has received nothing. -/
def PrbsChecker.initial : PrbsChecker := ⟨0, 0, 0, [], false, 0, 0, 0⟩

/-- The checker takes a bit: it loads its state, is in sync after 64 error-free bits, and loses sync when more than 16 of 256
consecutive bits are wrong (R326). -/
def PrbsChecker.take (code : Nat) (x : PrbsChecker) (b : Bool) : PrbsChecker :=
  let n := (prbsTaps code).1
  if x.loaded < n then { x with loaded := x.loaded + 1, state := (x.state * 2 + b2n b) % 2 ^ n }
  else
    let (o, s) := prbsStep code x.state
    let bad := o != b
    if !x.inSync then
      if bad then { x with loaded := 0, state := 0, clean := 0 }
      else { x with state := s, clean := x.clean + 1, inSync := 63 ≤ x.clean, recent := [] }
    else
      let recent := (bad :: x.recent).take 256
      let x := { x with state := s, recent := recent, bits := x.bits + 1, errors := x.errors + b2n bad }
      if 16 < recent.countP id then { x with loaded := 0, state := 0, clean := 0, recent := [], inSync := false, syncLoss := x.syncLoss + 1 }
      else x

/-- A checker over received bits. -/
def prbsCheck (code : Nat) (bs : List Bool) : PrbsChecker := bs.foldl (PrbsChecker.take code) PrbsChecker.initial

/-! ### The Schuss scrambler (R358) -/

/-- The self-synchronous scrambler x^58 + x^39 + 1 over line bits: the bits sent and the next 58-bit state, which holds the latest 58
bits on the line. -/
def schussScramble (s : Nat) : List Bool → List Bool × Nat
  | [] => ([], s)
  | b :: bs =>
    let o := b != (bit s 38 != bit s 57)
    let r := schussScramble ((s * 2 + b2n o) % 2 ^ 58) bs
    (o :: r.1, r.2)

/-- The descrambler takes a line bit: the bit it gives and its next state. -/
def schussDescramble (s : Nat) (b : Bool) : Bool × Nat := (b != (bit s 38 != bit s 57), (s * 2 + b2n b) % 2 ^ 58)

end Sys2Proof.Machine
end

