-- ==== Sys2Proof/Syntax.lean ====
section
/-! DEFINITION. The commands of the block: one constructor per row of the table of operations and events. -/

namespace Sys2Proof

/-- The way a command packet came in (R414): the service port, or a lane port with the role Up-A or Up-B. -/
inductive CmdPath where
  | service
  | uplink (port : Nat)
  deriving DecidableEq, Repr

/-- What a packet's header says of how its command is to be run (R414). A packet that arrives through
the service port is taken as requester 255 whatever its field holds (R418). -/
structure CmdHeader where
  path : CmdPath
  requester : Nat
  tag : Nat
  timed : Bool
  latePermitted : Bool
  broadcast : Bool
  noReply : Bool
  executeAt : TimeWord
  deriving DecidableEq, Repr

/-- Bits of a stored code word that have flipped before a read (R391, R393). -/
structure Upset where
  /-- memory class, 0 to 4 -/
  cls : Nat
  address : Nat
  /-- the flipped bits of the 13-bit code word -/
  flips : Nat
  deriving DecidableEq, Repr

/-- What the converter of a pixel gives at consecutive ticks (R99, R214), the first counted since Boot: each word holds in
bits [11:0] the raw code of the slice that samples at that tick, and in bits [24:12] the bits of its 13-bit ring word that
have flipped in the ring (R101). -/
structure RingRun where
  pixel : Nat
  start : Nat
  words : List Nat
  deriving DecidableEq, Repr

/-- What the segment builder reads (R221): ring words that the converters have written, and the upsets of the table words that it
reads for them (R59). -/
structure RingRead where
  runs : List RingRun
  upsets : List Upset
  deriving DecidableEq, Repr

/-- The raw codes of a calibration slot of one interpolator (R166). -/
structure SlotCodes where
  pixel : Nat
  /-- the 16 one-tick codes, 9 bits each -/
  one : List Nat
  /-- the 16 two-tick codes -/
  two : List Nat
  deriving DecidableEq, Repr

/-- What a tag-frame edge brings: the codes of the slots before it (R166), and the upsets of the table words that the tag framer
reads as it opens frames (R59). -/
structure FrameSlots where
  slots : List SlotCodes
  upsets : List Upset
  deriving DecidableEq, Repr

/-- An edge of a pixel's trigger discriminator (R185). -/
structure PixelEdge where
  pixel : Nat
  rising : Bool
  /-- tick since Boot in which the edge entered the fabric -/
  entry : Nat
  deriving DecidableEq, Repr

/-- Trigger edges, and the upsets of the table words that Slalom reads in their tick (R59). -/
structure TriggerEdges where
  edges : List PixelEdge
  upsets : List Upset
  deriving DecidableEq, Repr

/-- The level that an external trigger input takes (R185). -/
structure XtLevel where
  high : Bool
  /-- tick since Boot in which the edge entered the fabric -/
  entry : Nat
  deriving DecidableEq, Repr

/-- Bits of CMP's work on a block that come out wrong, which its compares find (R256). -/
structure CmpFault where
  pixel : Nat
  /-- 0: bits of its code stream; 1: bits of the raw area as copied; 2: bits of its output words, after the record CRC has been
  computed over them -/
  kind : Nat
  bits : List Nat
  deriving DecidableEq, Repr

/-- What comes of CMP's work (R28, R256). -/
structure CmpFindings where
  faults : List CmpFault
  deriving DecidableEq, Repr

/-- A port whose train step has passed, and which of its four pairs its receiver has found inverted (R304, R316). -/
structure LaneTraining where
  port : Nat
  inverted : List Bool
  deriving DecidableEq, Repr

/-- The bits that one lane has received over its pair, in line order: of the check bits of a stage, or of a test (R317, R326). -/
structure LaneStream where
  bits : List Bool
  deriving DecidableEq, Repr

/-- What a receive lane finds where an alignment block is due or found (R322, R343). -/
structure LaneBlock where
  /-- a block is there -/
  present : Bool
  /-- it lies exactly 4,096 parcels after the one before it -/
  spaced : Bool
  /-- its 16 bytes as received over the pair -/
  bytes : List Byte
  deriving DecidableEq, Repr

/-- What one lane receives in a chair, at the position that its own alignment block gives the chair, so that the skew between the
lanes is off (R305, R308). -/
structure LaneQuarter where
  /-- its 16 bytes as received over the pair -/
  bytes : List Byte
  /-- where FEC is active, the symbols of the one or two codewords that hold these bytes, as received (R308) -/
  words : List (List Nat)
  deriving DecidableEq, Repr

/-- What a controller and its namespace say of themselves (R370). -/
structure DriveIdentity where
  /-- bytes of the namespace -/
  size : Nat
  /-- bytes of a logical block -/
  block : Nat
  /-- the namespace carries metadata, or end-to-end protection -/
  extras : Bool
  /-- entries that the controller accepts in a queue -/
  entries : Nat
  deriving DecidableEq, Repr

/-- A byte that the flash device has left otherwise than asked (R546). -/
structure FlashFault where
  offset : Nat
  value : Nat
  deriving DecidableEq, Repr

/-- A rising edge of a pixel's timing discriminator in a repeat of a calibration run, with the samples of its baseline
and charge windows in tick order (R518). -/
structure CalPulse where
  /-- pixel of the tile, 0 to 15 -/
  pixel : Nat
  /-- tick e of the edge, counted from the start of the repeat -/
  at_ : Nat
  samples : List Nat
  deriving DecidableEq, Repr

/-- So many handshake cycles of one length that a station's monitor unit observed in a period (R45, R535). -/
structure CycleSet where
  /-- station 0 to 10 -/
  station : Nat
  /-- cycle time in ps -/
  ps : Nat
  count : Nat
  deriving DecidableEq, Repr

/-- What a cell of a slice answers to the ten reads of the two March C− tests, in their order (R526). -/
structure CellReads where
  /-- byte of the slice, 0 to 4,095 -/
  offset : Nat
  /-- bit of its code word, 0 to 12 -/
  bit_ : Nat
  reads : List Bool
  deriving DecidableEq, Repr

/-- The commands of the block, one constructor per row of the table: host commands with the header of
their packet and their parameters, service-port transactions, and the events the outside brings. -/
inductive Instr where
  /-- SYS_IDENTIFY (R455): Returns vendor, part, stepping, grade, state, versions and self address. -/
  | sysIdentify (h : CmdHeader)
  /-- SYS_STATE (R577): Reports the device state, the previous state, and the cause and time of the last transition. -/
  | sysState (h : CmdHeader)
  /-- SYS_GO (R569): Moves the device to a target state from 3 to 6 under the transition table, with the entry effects of R570. -/
  | sysGo (h : CmdHeader) (target : Nat)
  /-- SYS_RESET (R573): Restarts the module at Boot, keeping the rails or cycling them. -/
  | sysReset (h : CmdHeader) (kind : Nat)
  /-- SYS_TRIAD_STATUS (R493): Reports member states, disagreement counts and patrol state. -/
  | sysTriadStatus (h : CmdHeader)
  /-- SYS_TRIAD_REPAIR (R476): Starts a herringbone for a fenced member and answers when it votes again. -/
  | sysTriadRepair (h : CmdHeader) (member : Nat)
  /-- SYS_UPLINK_STATUS (R493): Reports the uplink pair members' states, mismatches and switches. -/
  | sysUplinkStatus (h : CmdHeader)
  /-- SYS_UPLINK_RETURN (R489): Starts proving a suspect member, or swaps active and standby. -/
  | sysUplinkReturn (h : CmdHeader) (port : Nat)
  /-- SYS_TIMED_LIST (R445): Lists the queued timed commands in order of falling due. -/
  | sysTimedList (h : CmdHeader) (start : Nat)
  /-- SYS_TIMED_CANCEL (R429): Removes queued timed commands with a given requester and tag. -/
  | sysTimedCancel (h : CmdHeader) (requester : Nat) (tag : Nat)
  /-- SYS_PING (R445): Returns its parameter bytes with the time word of execution. -/
  | sysPing (h : CmdHeader) (data : List Byte)
  /-- MAP_STATUS (R61): Reports the active and shadow maps, the queued swap and the station margins. -/
  | mapStatus (h : CmdHeader)
  /-- MAP_ERASE_SLOT (R57): Erases a piste-map slot that is not active, shadow or boot. -/
  | mapEraseSlot (h : CmdHeader) (slot : Nat)
  /-- MAP_WRITE (R57): Programs bytes into a piste-map slot under the flash rules. -/
  | mapWrite (h : CmdHeader) (slot : Nat) (offset : Nat) (data : List Byte)
  /-- MAP_VERIFY (R51): Makes every load check on a slot and changes nothing. -/
  | mapVerify (h : CmdHeader) (slot : Nat)
  /-- MAP_LOAD (R51): Checks a slot and copies it into the shadow banks, marking the shadow map valid. -/
  | mapLoad (h : CmdHeader) (slot : Nat)
  /-- MAP_SWAP (R55): Queues the swap of active and shadow maps for the next boundary, with patience. -/
  | mapSwap (h : CmdHeader) (patience : Nat)
  /-- MAP_CANCEL_SWAP (R56): Withdraws a queued swap that has not reached its edge. -/
  | mapCancelSwap (h : CmdHeader)
  /-- MAP_SET_BOOT (R53): Verifies a slot and writes it as the boot map in the boot selector. -/
  | mapSetBoot (h : CmdHeader) (slot : Nat)
  /-- MAP_KEY_ADD (R47): Adds an Ed25519 public key to the key ring and returns its key_id. -/
  | mapKeyAdd (h : CmdHeader) (key : List Byte)
  /-- MAP_KEY_REMOVE (R47): Removes a key from the key ring. -/
  | mapKeyRemove (h : CmdHeader) (keyId : Nat)
  /-- MAP_KEY_LOCK (R48): Locks the key ring persistently. -/
  | mapKeyLock (h : CmdHeader)
  /-- MAP_KEY_UNLOCK (R48): In Lodge, erases all map slots, empties the ring and clears the lock. -/
  | mapKeyUnlock (h : CmdHeader)
  /-- FE_STATUS (R98): Reports per-pixel gain, thresholds, trim and open state, and per-tile bias and gate state. -/
  | feStatus (h : CmdHeader) (start : Nat)
  /-- FE_SET_GAIN (R87): Sets the gain step of a pixel range, at once or deferred past open segments. -/
  | feSetGain (h : CmdHeader) (first : Nat) (last : Nat) (gain : Nat) (immediate : Bool)
  /-- FE_SET_THRESHOLD (R98): Sets thresholds and hystereses of a pixel range at the next boundary. -/
  | feSetThreshold (h : CmdHeader) (first : Nat) (last : Nat) (gainStep : Nat) (setTiming : Bool) (setTrigger : Bool) (setHyst : Bool) (thrTiming : Nat) (thrTrigger : Nat) (hystTiming : Nat) (hystTrigger : Nat)
  /-- FE_SET_BIAS (R78): Sets V_tile of a tile range, ramping from the next boundary. -/
  | feSetBias (h : CmdHeader) (firstTile : Nat) (lastTile : Nat) (vSet : Nat)
  /-- FE_SET_TRIM (R78): Sets V_trim of a pixel range from the next boundary. -/
  | feSetTrim (h : CmdHeader) (first : Nat) (last : Nat) (trim : Nat)
  /-- FE_GATE (R80): Gates a tile range on, off or for a pulse from the next tick. -/
  | feGate (h : CmdHeader) (firstTile : Nat) (lastTile : Nat) (action : Nat) (pulseLen : Nat)
  /-- FE_OPEN_CHECK (R68): Requests an open-input check on a tile range. -/
  | feOpenCheck (h : CmdHeader) (firstTile : Nat) (lastTile : Nat)
  /-- WFC_STATUS (R126): Reports each pixel converter's configuration, slices left and starvation. -/
  | wfcStatus (h : CmdHeader) (start : Nat)
  /-- WFC_SET_MODE (R109): Sets normal or low-power mode of a pixel range at the next boundary. -/
  | wfcSetMode (h : CmdHeader) (first : Nat) (last : Nat) (mode : Nat)
  /-- WFC_CAL_CONTROL (R126): Pauses or resumes background calibration for a pixel range. -/
  | wfcCalControl (h : CmdHeader) (first : Nat) (last : Nat) (run : Nat)
  /-- WFC_READ_CAL (R126): Returns each slice's role, corrections and retirement for one pixel. -/
  | wfcReadCal (h : CmdHeader) (pixel : Nat)
  /-- MON_STATUS (R126): Reports MON mode, loop period, pass number and fault counts. -/
  | monStatus (h : CmdHeader)
  /-- MON_READ (R119): Returns the latest values and time words of a range of inputs. -/
  | monRead (h : CmdHeader) (first : Nat) (last : Nat)
  /-- MON_SET_MODE (R120): Sets MON normal or low-power mode at the end of the loop pass. -/
  | monSetMode (h : CmdHeader) (mode : Nat)
  /-- TIME_STATUS (R162): Reports sources, differences, time state, phase error, INT correction and time word. -/
  | timeStatus (h : CmdHeader)
  /-- TIME_SWITCH_SOURCE (R136): Switches the timing loop to a named ready source. -/
  | timeSwitchSource (h : CmdHeader) (source : Nat)
  /-- TIME_SET_SECONDS (R149): Gives the seconds value to take at the next second boundary. -/
  | timeSetSeconds (h : CmdHeader) (seconds : Nat)
  /-- TIME_ALIGN (R148): Steps tick counter and phase at the next PPS edge or time exchange. -/
  | timeAlign (h : CmdHeader)
  /-- TIME_CLEAR_FAIL (R134): Clears the failed mark of a source. -/
  | timeClearFail (h : CmdHeader) (source : Nat)
  /-- TIME_SET_SPREAD (R155): Overrides the spread-spectrum settings from the next second boundary. -/
  | timeSetSpread (h : CmdHeader) (sliceDepth : Nat) (switchDepth : Nat) (sliceRate : Nat) (switchRate : Nat)
  /-- TDC_STATUS (R183): Reports per-pixel interpolator use, failure and substitution. -/
  | tdcStatus (h : CmdHeader) (start : Nat)
  /-- TDC_READ_CAL (R183): Returns the factory, measured and applied pairs and counts for one pixel. -/
  | tdcReadCal (h : CmdHeader) (pixel : Nat)
  /-- TDC_SET_OFFSET (R183): Sets t_offset of a pixel range at the next boundary. -/
  | tdcSetOffset (h : CmdHeader) (first : Nat) (last : Nat) (tOffset : Nat)
  /-- SLALOM_STATUS (R213): Reports armed mask, course gates, busy set, key memories and queue depths. -/
  | slalomStatus (h : CmdHeader)
  /-- SLALOM_ARM (R200): On the authority, sends ARM for a course mask and returns the arm tick. -/
  | slalomArm (h : CmdHeader) (mask : Nat)
  /-- SLALOM_DISARM (R200): On the authority, sends DISARM for a course mask and returns the tick. -/
  | slalomDisarm (h : CmdHeader) (mask : Nat)
  /-- SLALOM_FIRE (R213): Forms a local candidate of a named course and decides it under R195. -/
  | slalomFire (h : CmdHeader) (course : Nat)
  /-- SLALOM_COUNTERS (R213): Returns course and Schuss lane counters, clearing them if asked. -/
  | slalomCounters (h : CmdHeader) (clear : Bool)
  /-- ACQ_STATUS (R246): Reports descriptors, free memory, busy, stub queue, seq and next tag-frame edge. -/
  | acqStatus (h : CmdHeader)
  /-- ACQ_COUNTERS (R241): Returns the dead-time and acquisition counters, clearing them if asked. -/
  | acqCounters (h : CmdHeader) (clear : Bool)
  /-- ACQ_TAG_CONTROL (R246): Sets tag_enable or tag bits from the next tag-frame edge. -/
  | acqTagControl (h : CmdHeader) (first : Nat) (last : Nat) (what : Nat) (value : Nat)
  /-- ACQ_SET_AVERAGE (R246): Sets avg of a pixel range at the next boundary. -/
  | acqSetAverage (h : CmdHeader) (first : Nat) (last : Nat) (avg : Nat)
  /-- ACQ_SET_WATER (R246): Sets the four busy water marks at once. -/
  | acqSetWater (h : CmdHeader) (descLow : Nat) (descHigh : Nat) (memLow : Nat) (memHigh : Nat)
  /-- CMP_STATUS (R265): Reports seq in progress, chain buffers, waiting pipelines and table in force. -/
  | cmpStatus (h : CmdHeader)
  /-- CMP_COUNTERS (R263): Returns compression counts, clearing them if asked. -/
  | cmpCounters (h : CmdHeader) (clear : Bool)
  /-- CMP_FLUSH (R260): Ends the blocks being coded, and optionally all pending blocks, storing them raw. -/
  | cmpFlush (h : CmdHeader) (scope : Nat)
  /-- CMP_SET_PARAMS (R265): Sets predictor, enable and Rice parameters of a pixel range from the next boundary. -/
  | cmpSetParams (h : CmdHeader) (first : Nat) (last : Nat) (distance : Nat) (a : Nat) (b : Nat) (c : Nat) (enable : Bool) (k : List Nat)
  /-- MRG_STATUS (R302): Reports open events, queue occupancy, pass counts, pool and wheel generations. -/
  | mrgStatus (h : CmdHeader) (start : Nat)
  /-- MRG_COUNTERS (R302): Returns merge counts, clearing them if asked. -/
  | mrgCounters (h : CmdHeader) (clear : Bool)
  /-- MRG_SET_CLOSE (R302): Sets close_time and late_mode from the next boundary. -/
  | mrgSetClose (h : CmdHeader) (closeTime : Nat) (lateMode : Nat)
  /-- MRG_RESUME_STREAM (R302): Resumes a halted stream on a port. -/
  | mrgResumeStream (h : CmdHeader) (port : Nat) (vc : Nat) (address : Nat)
  /-- MRG_CLOSE_ALL (R302): Closes every open event at once as at its deadline. -/
  | mrgCloseAll (h : CmdHeader)
  /-- LANE_STATUS (R336): Reports a port's role, cap, stage, states and lane-control messages. -/
  | laneStatus (h : CmdHeader) (port : Nat)
  /-- LANE_COUNTERS (R326): Returns a lane's PRBS, FEC and lock counters, clearing them if asked. -/
  | laneCounters (h : CmdHeader) (lane : Nat) (clear : Bool)
  /-- LANE_RETRAIN (R321): Takes a port out of the chairlift with cause 1 to start again at C0. -/
  | laneRetrain (h : CmdHeader) (port : Nat)
  /-- LANE_CLIMB (R324): Makes an up port re-enter at the lower of the two caps. -/
  | laneClimb (h : CmdHeader) (port : Nat)
  /-- LANE_SLEEP (R328): Puts the own transmit direction of a port to sleep with an optional wake key. -/
  | laneSleep (h : CmdHeader) (port : Nat) (wakeKey : Nat)
  /-- LANE_WAKE (R331): Schedules a wake of the own transmit direction or requests one of the partner. -/
  | laneWake (h : CmdHeader) (port : Nat) (direction : Nat)
  /-- LANE_PRBS (R327): Runs or stops a PRBS generate or check test on a port. -/
  | lanePrbs (h : CmdHeader) (port : Nat) (stage : Nat) (pattern : Nat) (generate : Bool) (check : Bool) (stop : Bool) (duration : Nat)
  /-- LANE_SET_TX (R336): Overrides transmit swing and emphasis of one lane from its next train step. -/
  | laneSetTx (h : CmdHeader) (lane : Nat) (swing : Nat) (pre : Nat) (post : Nat)
  /-- LANE_LINK_STATUS (R366): Reports link-layer state of a port or Schuss lane, clearing counts if asked. -/
  | laneLinkStatus (h : CmdHeader) (target : Nat) (clear : Bool)
  /-- STORE_STATUS (R389): Reports drive states, log positions, staging use and store state. -/
  | storeStatus (h : CmdHeader)
  /-- STORE_COUNTERS (R389): Returns store counts, clearing them if asked. -/
  | storeCounters (h : CmdHeader) (clear : Bool)
  /-- STORE_FORMAT (R389): Writes new superblocks and checkpoints with a fresh log_id and opens the log. -/
  | storeFormat (h : CmdHeader) (extentCount : Nat)
  /-- STORE_CHECKPOINT (R377): Seals the open extent early and writes a checkpoint. -/
  | storeCheckpoint (h : CmdHeader)
  /-- STORE_FIND (R389): Returns the lowest ext_seq sealed at or after a time word, by bisection. -/
  | storeFind (h : CmdHeader) (moment : TimeWord)
  /-- STORE_REPLAY (R384): Starts reading a range of extents and sending their records upward. -/
  | storeReplay (h : CmdHeader) (first : Nat) (last : Nat)
  /-- STORE_REPLAY_STOP (R389): Stops a running replay. -/
  | storeReplayStop (h : CmdHeader)
  /-- INTEG_STATUS (R413): Reports groomer positions, log and remap occupancy, histories and poison counts. -/
  | integStatus (h : CmdHeader)
  /-- INTEG_LOG_READ (R400): Returns the 32 entries of the correctable-error log. -/
  | integLogRead (h : CmdHeader)
  /-- INTEG_LOG_CLEAR (R401): Frees log entries without lasting, or all entries. -/
  | integLogClear (h : CmdHeader) (all : Bool)
  /-- INTEG_REMAP_READ (R402): Returns the 16 remap table entries. -/
  | integRemapRead (h : CmdHeader)
  /-- INTEG_GROOM (R413): Pauses, resumes, re-rates or restarts a groomer walk. -/
  | integGroom (h : CmdHeader) (walk : Nat) (action : Nat) (rate : Nat)
  /-- INTEG_INJECT (R413): Damages a memory byte, crossing word or parcel CRC for test. -/
  | integInject (h : CmdHeader) (target : Nat) (subject : Nat) (mode : Nat) (bitA : Nat) (bitB : Nat) (address : Nat) (tile : Nat)
  /-- EVT_STATUS (R445): Reports delivery settings, latches, event_seq, in-flight commands and queues. -/
  | evtStatus (h : CmdHeader)
  /-- EVT_MASK (R438): Sets or clears the mask bits of a range of sources. -/
  | evtMask (h : CmdHeader) (first : Nat) (last : Nat) (set : Nat)
  /-- EVT_ACK (R440): Clears the latch of a non-maskable source. -/
  | evtAck (h : CmdHeader) (source : Nat)
  /-- EVT_COUNTERS (R445): Returns event and command counts, clearing them if asked. -/
  | evtCounters (h : CmdHeader) (clear : Bool)
  /-- EVT_SET_DELIVERY (R445): Sets to_uplink, to_service and nmi_repeat. -/
  | evtSetDelivery (h : CmdHeader) (toUplink : Bool) (toService : Bool) (period : Nat)
  /-- PWR_STATUS (R512): Reports level, snowplough, VIN, input power, lid, VCORE and rail-good flags. -/
  | pwrStatus (h : CmdHeader)
  /-- PWR_SET_LEVEL (R512): Sets the requested performance level and answers when it is reached. -/
  | pwrSetLevel (h : CmdHeader) (level : Nat)
  /-- PWR_SET_LIMIT (R507): Sets the input power limit from the next 10 ms window. -/
  | pwrSetLimit (h : CmdHeader) (limit : Nat)
  /-- CAL_STATUS (R541): Reports each tile's calibration state, result and last run. -/
  | calStatus (h : CmdHeader)
  /-- CAL_RUN (R515): Makes a calibration run fall due on a tile range. -/
  | calRun (h : CmdHeader) (firstTile : Nat) (lastTile : Nat)
  /-- CAL_READ (R521): Returns a pixel's single-photoelectron charge at every gain step. -/
  | calRead (h : CmdHeader) (pixel : Nat)
  /-- BIST_RUN (R524): Tests a named range of memory slices and answers on completion. -/
  | bistRun (h : CmdHeader) (cls : Nat) (firstSlice : Nat) (lastSlice : Nat)
  /-- BIST_STATUS (R541): Reports slices tested, failed and skipped and repairs in use. -/
  | bistStatus (h : CmdHeader)
  /-- BIST_FUSE (R532): Programs a fuse entry for every soft repair not yet fused. -/
  | bistFuse (h : CmdHeader)
  /-- HMON_READ (R541): Returns a monitor unit's minimum, maximum, count and histogram. -/
  | hmonRead (h : CmdHeader) (unit : Nat)
  /-- HMON_CLEAR (R537): Clears the contents of the monitor units in a mask. -/
  | hmonClear (h : CmdHeader) (mask : Nat)
  /-- FW_STATUS (R565): Reports the selected firmware pair, trial state and slot versions. -/
  | fwStatus (h : CmdHeader)
  /-- FW_ERASE (R547): Erases a firmware slot that is not locked, answered on completion. -/
  | fwErase (h : CmdHeader) (image : Nat) (fwSlot : Nat)
  /-- FW_WRITE (R545): Programs bytes into a firmware slot under the programming rules. -/
  | fwWrite (h : CmdHeader) (image : Nat) (fwSlot : Nat) (offset : Nat) (data : List Byte)
  /-- FW_VERIFY (R553): Checks a firmware slot's header, stepping, key, digest and signature. -/
  | fwVerify (h : CmdHeader) (image : Nat) (fwSlot : Nat)
  /-- FW_ACTIVATE (R556): Selects a new tested firmware pair on trial from the next reset. -/
  | fwActivate (h : CmdHeader) (ctrlSlot : Nat) (laneSlot : Nat)
  /-- FW_CONFIRM (R558): Confirms the firmware pair on trial. -/
  | fwConfirm (h : CmdHeader)
  /-- FLASH_READ (R565): Returns bytes of the configuration flash. -/
  | flashRead (h : CmdHeader) (offset : Nat) (length : Nat)
  /-- FLASH_ERASE (R544): Erases a sector of the owner area. -/
  | flashErase (h : CmdHeader) (sector : Nat)
  /-- FLASH_WRITE (R545): Programs bytes into the owner area. -/
  | flashWrite (h : CmdHeader) (offset : Nat) (data : List Byte)
  /-- SERVICE_WRITE (R433): Service-port transaction that delivers one command packet into a write buffer. -/
  | serviceWrite (bytes : List Byte) (decided : Bool)
  /-- SERVICE_READ (R433): Service-port transaction that reads the oldest item of the service queue. -/
  | serviceRead (clocked : Nat)
  /-- SERVICE_STATUS (R433): Service-port transaction that returns queue, buffer and loss status. -/
  | serviceStatus (clocked : Nat)
  /-- LODGE (R433): Service-port LODGE transaction that resets the module into Lodge. -/
  | lodge (code : List Byte)
  /-- TIMED_COMMAND_DUE (R428): A queued timed command reaches its execute_at and executes. -/
  | timedCommandDue
  /-- NMI_REPEAT (R440): A latched non-maskable event is delivered again every nmi_repeat. -/
  | nmiRepeat (source : Nat)
  /-- POWER_ON (R571): VIN rises past the lock-out release and the power-on sequence runs to Boot. -/
  | powerOn
  /-- IMAGES_STARTED (R571): The firmware images have started and the module enters Standby. -/
  | imagesStarted
  /-- BOOT_MAP_LOAD (R53): The boot map is checked and loaded into the active banks, then the module enters Ready. -/
  | bootMapLoad
  /-- POWER_FAIL_WARNING (R496): VIN below 35.5 V: event 1600, Green ceiling, Quiesce, bias discharge, store checkpoint. -/
  | powerFailWarning (vin : Nat) (power : Nat)
  /-- POWER_FAIL_WARNING_CLEARED (R497): VIN back above 36.0 V: cause 5 ends and the level rises. -/
  | powerFailWarningCleared
  /-- UNDER_VOLTAGE_LOCK_OUT (R575): VIN below 33.0 V switches everything off in order; the state becomes Off. -/
  | underVoltageLockOut
  /-- OVER_VOLTAGE_SHUTDOWN (R494): VIN above 78.0 V switches every rail off; the state becomes Off. -/
  | overVoltageShutdown
  /-- OVER_VOLTAGE_RESTART (R494): VIN back below 76.0 V for 100 ms starts the start-up sequence. -/
  | overVoltageRestart
  /-- OPERATING_RANGE_LEFT (R494): VIN outside 36 to 75 V for 1 ms raises event 1603. -/
  | operatingRangeLeft (vin : Nat)
  /-- RAIL_FAULT (R499): A rail out of its window for 10 µs restarts its converter and enters Fault-hold or Off. -/
  | railFault (rail : Nat) (voltage : Nat)
  /-- RAIL_RESTART (R573): One second after an Off of cause 0x0042 the rails restart from off. -/
  | railRestart
  /-- LID_OVERHEAT_HOLD (R509): A lid at or above 130 °C for 10 s puts the device into Fault-hold. -/
  | lidOverheatHold
  /-- BIAS_CURRENT_LIMIT_OFF (R500): A bias generator in current limit for 100 ms switches itself off. -/
  | biasCurrentLimitOff (tile : Nat)
  /-- BIAS_OUT_OF_TOLERANCE (R96): A bias beyond ±50 mV for 100 µs outside a ramp raises a tile event. -/
  | biasOutOfTolerance (tile : Nat) (measured : Nat)
  /-- BIAS_RAMP_DONE (R78): A V_tile ramp ends within ±10 mV of its new value. -/
  | biasRampDone (tile : Nat)
  /-- POWER_WINDOW_END (R507): The end of a 10 ms input power window tests cause 4 and may lower or raise the ceiling. -/
  | powerWindowEnd (average : Nat)
  /-- SNOWPLOUGH_CAUSE_END (R508): A cause's end condition has held for return_delay and the cause ends. -/
  | snowploughCauseEnd
  /-- VCORE_SETTLED (R502): VCORE has stayed within ±1 % for 2 µs after its ramp, ending a step. -/
  | vcoreSettled
  /-- DRAIN_DONE (R502): Descriptors and crossing buffers are within limits for 10 µs, ending the drain wait. -/
  | drainDone
  /-- DRAIN_LIMIT (R502): drain_limit passes in a down sequence, raising event 1608. -/
  | drainLimit
  /-- FIRE_TOKEN_ADD (R504): A token is added to the fire bucket at the cap interval. -/
  | fireTokenAdd
  /-- COUNTING_WINDOW_END (R132): At each second the source counts are compared, warnings and failures are judged. -/
  | countingWindowEnd (na : Nat) (nb : Nat) (ni : Nat)
  /-- SOURCE_ABSENT (R129): A source stops giving edges or loses lock and becomes absent. -/
  | sourceAbsent (source : Nat)
  /-- SOURCE_PRESENT (R129): A source has given clean edges for its qualifying time and becomes present. -/
  | sourcePresent (source : Nat)
  /-- LOOP_UNLOCK (R160): The timing loop loses lock; event 1536 and Fault-hold. -/
  | loopUnlock
  /-- SLEW_DONE (R137): The frequency slew after a commanded switch ends. -/
  | slewDone
  /-- AUTO_RETURN (R139): The preferred source has been ready for return_delay and the module switches back. -/
  | autoReturn
  /-- PPS_EDGE (R146): A PPS rising edge is stamped and its phase error steers the tick. -/
  | ppsEdge (fine : Nat)
  /-- PPS_ABSENT (R129): No PPS edge within 1 s plus pps_window; steering stops. -/
  | ppsAbsent
  /-- SECOND_BOUNDARY (R149): At a second boundary a set seconds value or spread change takes effect. -/
  | secondBoundary
  /-- INT_CORRECTION_SAVE (R141): Every 24 hours the learned INT correction is saved to flash. -/
  | intCorrectionSave
  /-- TIME_REQUEST_SEND (R361): Every 10 ms a child sends a TIME request on its Up lane. -/
  | timeRequestSend
  /-- TIME_REQUEST (R361): A parent receives a TIME request and queues responses A, B and C. -/
  | timeRequest (lane : Nat) (received : Nat) (since : Nat)
  /-- TIME_RESPONSE (R362): A child receives a TIME response and, on the third, computes the phase error. -/
  | timeResponse (lane : Nat) (received : Nat) (since : Nat)
  /-- TIME_EXCHANGE_TIMEOUT (R362): Responses missing 20 µs after response A discard the exchange. -/
  | timeExchangeTimeout (lane : Nat)
  /-- TIMING_EDGE (R164): An edge of the timing discriminator is captured by the interpolator. -/
  | timingEdge (pixel : Nat) (rising : Bool) (raw : Nat) (onBoundary : Bool) (hitsTaken : Nat) (tagsTaken : Nat) (parity : Bool)
  /-- HIT_WORD_TIMEOUT (R175): No falling edge within 1,048,560 fine bins closes the words with no-falling. -/
  | hitWordTimeout (pixel : Nat) (hitsTaken : Nat) (tagsTaken : Nat) (parity : Bool)
  /-- CAL_SLOT_START (R166): 128 ticks before a tag-frame edge the interpolator runs its calibration slot. -/
  | calSlotStart
  /-- TRIGGER_EDGE (R185): A trigger discriminator edge is stamped and courses are stepped. -/
  | triggerEdge (edges : TriggerEdges)
  /-- XT_EDGE (R185): An external trigger input edge is stamped, stepping courses and gating tiles. -/
  | xtEdge (xt : Nat) (level : XtLevel)
  /-- PIXEL_STRETCH_END (R184): A pixel's lit time ends at its stretch. -/
  | pixelStretchEnd (pixel : Nat)
  /-- GATE_TIMEOUT (R189): A gate's t_max expires and the course enters next_fail. -/
  | gateTimeout (course : Nat)
  /-- FIRE_MESSAGE (R198): A FIRE message is received; if new it is relayed and may form a followed candidate. -/
  | fireMessage (lane : Nat) (received : Nat)
  /-- ARM_MESSAGE (R201): A new ARM message is received, relayed and scheduled for its arm tick. -/
  | armMessage (lane : Nat) (received : Nat)
  /-- DISARM_MESSAGE (R201): A new DISARM message is received, relayed and scheduled for its tick. -/
  | disarmMessage (lane : Nat) (received : Nat)
  /-- ARM_APPLY (R201): At the arm tick T, the courses of the mask are armed or disarmed. -/
  | armApply
  /-- BUSY_MESSAGE (R204): A new BUSY set or clear changes the partner busy set and is relayed. -/
  | busyMessage (lane : Nat) (received : Nat)
  /-- BUSY_REPEAT (R203): While busy, a BUSY set is sent every busy_repeat. -/
  | busyRepeat
  /-- BUSY_EXPIRE (R204): A partner leaves the busy set busy_expire after its last BUSY set. -/
  | busyExpire
  /-- KEY_EXPIRE (R194): A key leaves a key memory 10 ms after its window ends. -/
  | keyExpire
  /-- SCHUSS_IDLE_MESSAGE (R359): An idle message is received, updating the lane's up state. -/
  | schussIdleMessage (lane : Nat) (received : Nat)
  /-- SCHUSS_DELINEATION_LOST (R358): Four invalid checks in a row lose delineation and the lane goes down. -/
  | schussDelineationLost (lane : Nat)
  /-- SCHUSS_SLOT (R355): Each 2.5 ns slot sends the head of the transmit queue or an idle message. -/
  | schussSlot (lane : Nat) (fine : Nat)
  /-- SEGMENT_BUILD_START (R221): The segment builder takes a freeze order, a descriptor and a reservation and copies the window. -/
  | segmentBuildStart (read : RingRead) (overrun : Bool) (parity : Bool)
  /-- HIT_LIST_CLOSE (R223): The hit list closes 8,256 ticks after the window and the raw segment passes to CMP. -/
  | hitListClose
  /-- TAG_FRAME_EDGE (R233): A tag-frame edge falls: frames open, pairs are judged, swaps and boundaries act. -/
  | tagFrameEdge (slots : FrameSlots)
  /-- TAG_FRAME_CLOSE (R234): 1,280 ticks after a frame's end edge its last parts close. -/
  | tagFrameClose
  /-- SWAP_MARKER_DONE (R56): The swap marker leaves the last station and the old banks are released. -/
  | swapMarkerDone
  /-- SECTION_RELOAD (R59): A damaged active section is reloaded from its slot at the next boundary. -/
  | sectionReload (typ : Nat) (inst : Nat) (address : Nat)
  /-- CMP_SEGMENT (R247): CMP takes the next raw segment or stub and writes its record into merge memory. -/
  | cmpSegment (blocks : List Nat) (findings : CmpFindings) (upsets : List Upset) (parity : Bool)
  /-- CHAIN_BUFFER_FREED (R259): A chain buffer is freed and a waiting writer continues. -/
  | chainBufferFreed
  /-- PARCEL_RECEIVED (R348): A parcel is received in a chair and checked, sequenced, acknowledged and delivered. -/
  | parcelReceived (port : Nat) (chair : Nat) (quarters : List LaneQuarter) (upsets : List Upset)
  /-- EVENT_DEADLINE (R292): An event reaches its deadline and closes with gap markers. -/
  | eventDeadline
  /-- PASS_RETURN_DELAY (R279): return_delay after the first returnable pass, a lift-pass parcel is sent. -/
  | passReturnDelay
  /-- CHAIR_TRANSMIT (R272): At each chair the module sends a lift-pass, owner or idle parcel. -/
  | chairTransmit (port : Nat) (chair : Nat) (upsets : List Upset)
  /-- ALIGNMENT_BLOCK_SEND (R342): Each rotation begins with an alignment block carrying ack and wheel generation. -/
  | alignmentBlockSend (port : Nat)
  /-- REPLAY_TIMEOUT (R351): Base has not advanced for 4 rotations; the transmitter replays. -/
  | replayTimeout (port : Nat)
  /-- WINDOW_STALL (R364): The replay window stalls for more than 1 ms, raising event 1777. -/
  | windowStall (port : Nat)
  /-- WHEEL_SWITCH_TIMEOUT (R276): 10 ms after the swap edge the new receive half applies in any case. -/
  | wheelSwitchTimeout (port : Nat)
  /-- COPY_LAG_TIMEOUT (R486): A copy complete for relocking time plus 1 ms without its pair goes on alone. -/
  | copyLagTimeout
  /-- MEMBER_LEFT_BEHIND (R478): A member holding back the pair for relock_time is left behind. -/
  | memberLeftBehind (port : Nat)
  /-- ALIGNMENT_BLOCK_RECEIVED (R322): An alignment block is received, advancing lock and taking its acknowledgement. -/
  | alignmentBlockReceived (port : Nat) (blocks : List LaneBlock) (words : List (List Nat))
  /-- RELOCK_TIMEOUT (R323): No relock within relock_time; the port leaves the chairlift with cause 3. -/
  | relockTimeout (port : Nat)
  /-- K_MARKER_LOCK (R310): 64 markers lock the forwarded-clock receiver. -/
  | kMarkerLock (port : Nat)
  /-- K_LOCK_LOST (R310): Four missing markers lose K lock and the port leaves the chairlift. -/
  | kLockLost (port : Nat)
  /-- LANE_CONTROL_SEND (R311): Every 32 frames a lane-control message is sent on Kn. -/
  | laneControlSend (port : Nat)
  /-- LANE_CONTROL_MESSAGE (R313): A lane-control message is received and the partner's states taken. -/
  | laneControlMessage (port : Nat) (frames : List Byte)
  /-- TRAIN_DONE (R316): t_train has passed and the receiver counts check bits. -/
  | trainDone (training : LaneTraining)
  /-- CHECK_DONE (R317): The check bits are counted and the stage passes or fails. -/
  | checkDone (port : Nat) (streams : List LaneStream)
  /-- ALIGN_TIMEOUT (R320): Alignment not locked within t_align fails the stage. -/
  | alignTimeout (port : Nat)
  /-- DECIDE_TIMEOUT (R319): A decide step not ended 1 ms after lock fails the stage. -/
  | decideTimeout (port : Nat)
  /-- RETRY_DELAY_END (R320): After a C0 failure, retry_delay passes and C0 starts again. -/
  | retryDelayEnd (port : Nat)
  /-- UP_A_REENTRY_DELAY (R325): Up-A starts its re-entry 100 ms after Up-B started. -/
  | upAReentryDelay
  /-- SLEEP_ACK_TIMEOUT (R328): No sleep acknowledgement within 100 µs; the direction stays up. -/
  | sleepAckTimeout (port : Nat)
  /-- WAKE_WINDOW_OPEN (R329): The sleeping receiver powers up before W and searches the window. -/
  | wakeWindowOpen (port : Nat)
  /-- WAKE_WINDOW_END (R329): No burst in the window; the receiver falls back to full search. -/
  | wakeWindowEnd (port : Nat)
  /-- WAKE_KEY_DUE (R330): At W the sleeping transmitter starts wake bursts. -/
  | wakeKeyDue (port : Nat)
  /-- WAKE_BURST (R330): A further wake burst starts every 10 µs until wake_seen. -/
  | wakeBurst (port : Nat)
  /-- WAKE_FAILED (R330): No wake_seen or lock in time; the port leaves with cause 6. -/
  | wakeFailed (port : Nat)
  /-- PRBS_TEST_END (R327): The PRBS test duration ends and the port leaves test with cause 8. -/
  | prbsTestEnd (port : Nat) (streams : List LaneStream)
  /-- DRIVE_PRESENCE_POLL (R369): Every 100 ms SPRS is tested for a drive. -/
  | drivePresencePoll (drive : Nat) (present : Bool)
  /-- SRST_RELEASE (R369): 100 ms after assertion SRST is released and link training starts. -/
  | srstRelease (drive : Nat)
  /-- PCIE_LINK_UP (R369): The Store link comes up and the controller is enabled. -/
  | pcieLinkUp (drive : Nat) (generation : Nat) (width : Nat)
  /-- PCIE_LINK_TIMEOUT (R369): No link within 1,100 ms: drive lost with cause no link. -/
  | pcieLinkTimeout (drive : Nat)
  /-- CONTROLLER_READY (R369): The controller is ready; queues are created and the log is opened. -/
  | controllerReady (drive : Nat) (identity : DriveIdentity)
  /-- NVME_COMPLETION (R379): An NVMe command completes; writes mark items taken or are retried. -/
  | nvmeCompletion (drive : Nat) (id : Nat) (status : Nat) (data : List Byte) (damage : List Upset)
  /-- NVME_TIMEOUT (R371): A command not completed in 1 s is aborted, then the controller reset. -/
  | nvmeTimeout (drive : Nat)
  /-- CHECKPOINT_PERIOD (R377): checkpoint_period passes and an early seal and checkpoint follow. -/
  | checkpointPeriod
  /-- GROOMER_LINE (R397): The groomer reads its next 64-byte line and corrects or poisons it. -/
  | groomerLine (walk : Nat) (upsets : List Upset)
  /-- REMAP_LINE (R403): At the groomer's next turn a lasting line moves to a spare. -/
  | remapLine
  /-- BIST_SLICE (R526): Self-test copies, March-tests and restores one memory slice. -/
  | bistSlice (cls : Nat) (vcoreOk : Bool) (upsets : List Upset) (first : List CellReads) (again : List CellReads)
  /-- DWELL_END (R107): A dwell ends: corrections update and spare and active slices trade. -/
  | dwellEnd (pixel : Nat) (active : List Nat) (shadow : List Nat) (before : List Nat) (after : List Nat) (first : List Nat) (second : List Nat) (third : List Nat) (fourth : List Nat)
  /-- MON_SETTLE_END (R117): The settling delay of a sequencer entry ends and conversions start. -/
  | monSettleEnd
  /-- MON_RESULT (R118): A monitor conversion completes and updates the result and latest value. -/
  | monResult (code : Nat)
  /-- EXCITATION_WINDOW_END (R92): The excitation current of a mode-2 input stops at its window. -/
  | excitationWindowEnd
  /-- MON_AFTER_END (R117): The after interval ends and the next entry selects its input. -/
  | monAfterEnd
  /-- MARGIN_PERIOD (R45): Each 1 ms period the measured margin of each station is evaluated. -/
  | marginPeriod (cycles : List CycleSet)
  /-- OPEN_CHECK_DUE (R68): A tile's open_period falls due and an open-input check starts. -/
  | openCheckDue (tile : Nat)
  /-- OPEN_CHECK_COMPARE (R68): At 300 µs each covered input is compared and the sources turn off. -/
  | openCheckCompare (tile : Nat) (above : Nat)
  /-- OPEN_CHECK_END (R68): At 302 µs recovery ends and the discriminators are unmasked. -/
  | openCheckEnd (tile : Nat)
  /-- GATE_PERIOD_EDGE (R80): A periodic gate interval starts or ends. -/
  | gatePeriodEdge (tile : Nat)
  /-- GATED_FLAG_END (R81): t_settle plus gate_guard after restore, the gated flag ends. -/
  | gatedFlagEnd (tile : Nat)
  /-- GAIN_SCHEDULE_DUE (R86): A gain-schedule entry falls due at its time. -/
  | gainScheduleDue
  /-- GAIN_CHANGE_APPLY (R87): A waiting gain change takes effect when the pixel is in no open segment. -/
  | gainChangeApply (pixel : Nat)
  /-- GAIN_DEFER_TIMEOUT (R87): A change still waiting after gain_defer takes effect as immediate. -/
  | gainDeferTimeout (pixel : Nat)
  /-- RANGE_TRANSITION_END (R87): After 6 flagged samples, a discriminator above threshold gives a flagged edge. -/
  | rangeTransitionEnd (pixel : Nat) (timing : Bool) (trigger : Bool)
  /-- CAL_RUN_START (R517): A waiting calibration run starts on a tile and repeat a begins. -/
  | calRunStart
  /-- CAL_REPEAT_END (R517): A repeat ends and is evaluated; after repeat b the results are decided. -/
  | calRepeatEnd (tile : Nat) (pulses : List CalPulse)
  /-- VOTER_REQUEST (R464): A member presents a request; the voter completes it on two equal requests. -/
  | voterRequest (member : Nat) (kind : Nat) (target : Nat) (data : List Byte) (error : Bool)
  /-- DISAGREE_TIMEOUT (R465): The third member fails to agree within bounds and leaves voting. -/
  | disagreeTimeout (member : Nat)
  /-- HEARTBEAT_LOST (R471): No voted request for 10 ms splits the triad. -/
  | heartbeatLost
  /-- HERRINGBONE_PASS (R473): A herringbone copy pass completes and may join. -/
  | herringbonePass (dirty : Nat) (differ : Bool)
  /-- TRIAL_TIME_LIMIT (R557): A trial reaches 600 s unconfirmed and the module rolls back and resets. -/
  | trialTimeLimit
  /-- FLASH_OPERATION_DONE (R546): A flash program or erase completes and is read back. -/
  | flashOperationDone (wrong : List FlashFault)
  /-- GATE_PULSE_END (R80): The pulse interval that FE.GATE set for a tile ends, and the tile is no longer gated off by it, starting the restore of its bias. -/
  | gatePulseEnd (tile : Nat)
  /-- ACKNOWLEDGEMENT_WAITING (R353): An acknowledgement that has changed while the transmit direction sleeps has not been sent for 100 µs, and it counts as a waiting parcel that wakes the direction when auto_wake is set. -/
  | acknowledgementWaiting (port : Nat)
  /-- CALIBRATION_PERIOD (R515): The calibration period has passed since a tile's last run, and a calibration run falls due on the tile. -/
  | calibrationPeriod (tile : Nat)
  /-- CLAMP_CONDUCTS (R65): A pixel input goes beyond ±2.5 V and its clamp conducts, marking clamp-touched samples and raising the clamp event. -/
  | clampConducts (pixel : Nat) (conducts : Bool)
  /-- PARTNER_FIRE_WINDOW_END (R187): The param ticks after a partner fire's reception end, the partner-fire input turns false, and a course condition may rise. -/
  | partnerFireWindowEnd
  /-- DRIVE_REMOVED (R369): SPRS shows that the drive of an up Store port is gone, the drive is lost with cause removal, and bring-up starts again. -/
  | driveRemoved (drive : Nat)
  deriving DecidableEq, Repr

end Sys2Proof
end

