-- ==== Sys2Proof/Machine/State.lean ====
section
/-! DEFINITION. The state of the block as plain data, the reasons a step can stop, and the state after reset. -/

namespace Sys2Proof.Machine

/-! ## Records, events and replies -/

/-- A record of R226: the fields of the common header and the bytes that stand between the header and the
trailer. `flags` holds bits [31:12] of the word at offset 6, flag f in bit f (R227). -/
structure Rec where
  typ : Nat
  version : Nat
  origin : Nat
  flags : Nat
  eventKey : Nat
  time : TimeWord
  aux : Nat
  body : List Byte
  deriving DecidableEq, Repr

/-- One item of an event's data (R437). -/
inductive EvItem where
  /-- a number, identifier, count, code, flag, duration or event key: 8 bytes, two's complement -/
  | num (i : Int)
  /-- a measured quantity: binary32 in bytes 0 to 3 -/
  | real (w : Nat)
  /-- a time word: 16 bytes -/
  | time (t : TimeWord)
  deriving DecidableEq, Repr

/-- The status codes of R423. -/
inductive Status where
  | ok | accepted | busy | timePast | notReady | notErased | badImage | incompatible
  | outOfRange | badCrc | wrongState | unknownOpcode | locked | lateExecuted
  | refusedBoundary | verifyFailed
  deriving DecidableEq, Repr

/-- What an item of the service queue is: the interim reply of a queued command, known by its tag, its opcode and its
`execute_at`, which its own final reply replaces (R434); another reply; or an event. -/
inductive SvcKind where
  | interim (tag opcode : Nat) (executeAt : TimeWord)
  | reply
  | event
  deriving DecidableEq, Repr

/-- One item of the service queue (R434). -/
structure SvcItem where
  kind : SvcKind
  record : Rec
  deriving DecidableEq, Repr

/-- An event that waits for the reply formed at the same time (R444). -/
structure HeldEvent where
  source : Nat
  kind : Nat
  seq : Nat
  time : TimeWord
  items : List EvItem
  deriving DecidableEq, Repr

/-- A latched non-maskable source (R440): its latest event and when it was last delivered. -/
structure Latch where
  /-- source number -/
  source : Nat
  /-- the event's time word -/
  time : TimeWord
  /-- the event's `event_seq`, which repetitions carry -/
  seq : Nat
  /-- the event's data items -/
  items : List EvItem
  /-- ticks since Boot at the latest delivery -/
  last : Nat
  deriving DecidableEq, Repr

/-- The running second of R598 for one key of one source. -/
structure Interval where
  source : Nat
  kind : Nat
  key : Nat
  /-- ticks since Boot when the event was last raised for the key -/
  raisedAt : Nat
  deriving DecidableEq, Repr

/-- Events: masks, delivery settings, latches, the service queue and the counters of R445. -/
structure EvtState where
  /-- `mask`, 2,048 bits: bit n set masks source n (R438) -/
  mask : BitVec 2048
  /-- `to_uplink` (R441) -/
  toUplink : Bool
  /-- `to_service` (R441) -/
  toService : Bool
  /-- `nmi_repeat` in seconds (R441) -/
  nmiPeriod : Nat
  /-- the latest `event_seq`, 32 bits (R436) -/
  eventSeq : Nat
  /-- latched non-maskable sources (R440), one entry each, at most 5 -/
  latches : List Latch
  /-- the service queue, oldest first, at most 128 items (R434) -/
  service : List SvcItem
  /-- while a command is carried out, the events raised meanwhile, which go behind its reply (R444) -/
  hold : Option (List HeldEvent)
  /-- `events_lost`, 32 bits: events dropped from the service queue since Boot (R433) -/
  eventsLost : Nat
  /-- `lost` of the next event on the service path, 16 bits (R436) -/
  lostSince : Nat
  /-- the intervals of R598 -/
  intervals : List Interval
  /-- events raised per band, 64 bits each (R445) -/
  raised : Vector Nat 16
  /-- events masked per band, 64 bits each (R445) -/
  masked : Vector Nat 16
  /-- events dropped on the uplink path, 64 bits (R445) -/
  droppedUp : Nat
  /-- events dropped on the service path, 64 bits (R445) -/
  droppedSvc : Nat
  /-- occurrences of events 1824 to 1827, 32 bits each (R443) -/
  ownCounts : Vector Nat 4
  deriving DecidableEq, Repr

/-! ## Commands -/

/-- A command that has been accepted, as its replies need it. -/
structure Ctx where
  header : CmdHeader
  opcode : Nat
  /-- ticks from `execute_at` to execution of a command executed late (R427) -/
  late : Option Nat
  /-- time word of execution (R422) -/
  moment : TimeWord
  deriving DecidableEq, Repr

/-- An entry of the timed queue (R429): the command and its context; entries stand in order of falling due. -/
structure Timed where
  command : Instr
  header : CmdHeader
  opcode : Nat
  /-- a jump of the time word has gone past its `execute_at` (R430) -/
  passed : Bool
  /-- its `param_length` is not one that its opcode allows, which check 10 finds at its execution (R417, R447) -/
  badLength : Bool
  deriving DecidableEq, Repr

/-- The state of command acceptance: commands in flight, the timed and deferred queues, write buffers. -/
structure CmdState where
  /-- commands in flight (R419): requester, tag and opcode of those whose final reply is still to come, without the timed ones
  that came by a lane; at most 256, 64 of one requester -/
  inFlight : List (Nat × Nat × Nat)
  /-- the timed queue, in order of falling due, at most 1,024 (R429) -/
  timed : List Timed
  /-- the deferred queue: commands whose action waits for a boundary, in order of acceptance, at most 256 (R432) -/
  deferred : List Instr
  /-- commands whose action takes effect at the next tick: in Standby and Ready every tick is a boundary (R54) -/
  nextTick : List Instr
  /-- packets that CTRL has not taken yet, oldest first: port (255 the service port), bytes, and whether a parcel carried
  the poisoned flag (R415, R417, R433) -/
  packets : List (Nat × List Byte × Bool)
  /-- free write buffers of the service port, 0 to 2 (R433) -/
  writeFree : Nat
  /-- the bytes the module drove on SVDO in the latest service-port transaction (R433) -/
  svdo : List Byte
  /-- commands answered per status code 0x0000 to 0x001D, 64 bits each (R445) -/
  answered : Vector Nat 30
  /-- peak occupancy of the timed queue (R445) -/
  peakTimed : Nat
  /-- peak occupancy of the deferred queue (R445) -/
  peakDeferred : Nat
  deriving DecidableEq, Repr

/-! ## Device states -/

/-- The eight device states (R453, R566). -/
inductive DevState where
  | off | lodge | boot | standby | ready | running | quiesce | faultHold
  deriving DecidableEq, Repr

/-- The device state and what the start-up sequence keeps (R566 to R577). -/
structure SysState where
  /-- device state, 3 bits (R453) -/
  state : DevState
  /-- previous device state (R577) -/
  previous : DevState
  /-- `cause` of the last transition, 16 bits (R568) -/
  cause : Nat
  /-- time word of the last transition; 0 before the loop first locked (R577) -/
  since : TimeWord
  /-- ticks since Boot, the count that R405 and R598 use -/
  ticks : Nat
  /-- ticks since the start of the power-on sequence, for event 1805 (R572) -/
  sinceStart : Nat
  /-- `cause` of the latest reset (R573) -/
  resetCause : Nat
  /-- flag bit of the rail whose fault led to the reset, for event 1805 (R572) -/
  resetRail : Option Nat
  /-- how long ago, in ticks, the recent Offs of cause 0x0042 came (R573) -/
  offs42 : List Nat
  /-- a rail restart is owed (R573) -/
  railRestartDue : Bool
  /-- a reset asked for by `SYS.RESET`: its kind and the ticks left of the 200 us of R573 -/
  resetDue : Option (Nat × Nat)
  /-- the images have been started since the reset (R571) -/
  imagesStarted : Bool
  /-- the boot map has been loaded or has failed its checks, or there is none (R572) -/
  bootMapDone : Bool
  /-- a `SYS.GO` that has not yet taken its last effect (R570): its context and target -/
  goPending : Option (Ctx × DevState)
  deriving DecidableEq, Repr

/-- The bits P and Q of a parity word (R395): its poison bit, and whether its data bits and P together hold an odd number of
ones. -/
structure ParityBits where
  q : Bool
  odd : Bool
  deriving DecidableEq, Repr

/-! ## The piste map -/

/-- A section of a map as its banks hold it: type, number of its kind, and its bytes with the preamble (R36). -/
structure Sect where
  typ : Nat
  inst : Nat
  bytes : List Byte
  deriving DecidableEq, Repr

/-- A map in the banks: the header fields the module uses and the sections in directory order (R33, R51). -/
structure PisteMap where
  /-- flash slot it was loaded from, 0 to 3 -/
  slot : Nat
  mapId : Nat
  level : Nat
  /-- `compiled_margin` -/
  margin : Nat
  sects : List Sect
  deriving DecidableEq, Repr

/-- A queued swap (R55). -/
structure Swap where
  patience : Nat
  skipped : Nat
  deriving DecidableEq, Repr

/-- A station's measured margin (R45). -/
structure Margin where
  value : Option Int
  low : Bool
  /-- periods in a row at 120 or more while low -/
  run : Nat
  deriving DecidableEq, Repr

/-- The piste map banks (R51 to R59). -/
structure MapState where
  active : Option PisteMap
  /-- ticks since Boot when the active map became active, its edge E (R24) -/
  activeAt : Nat
  /-- `seq` of the first candidate accepted behind the latest swap marker (R25) -/
  markerSeq : Nat
  shadow : Option PisteMap
  /-- the old map while the swap marker is on its way (R25, R56) -/
  old : Option PisteMap
  /-- ticks since Boot when the old map had become active -/
  oldAt : Nat
  swap : Option Swap
  /-- margins of stations 0 to 10 -/
  margins : Vector Margin 11
  /-- tick since Boot at which the period of the margins began (R45) -/
  marginAt : Nat
  /-- damaged sections of the active map, checked in their slot and waiting for a boundary to be rewritten (R59): type,
  number, and the address of the section in the active banks -/
  reloads : List (Nat × Nat × Nat)
  deriving DecidableEq, Repr

/-! ## Pixel front end, bias and monitor inputs -/

/-- A span of ticks since Boot, from its first tick up to but not including its end; open while it lasts. -/
structure Span where
  start : Nat
  stop : Option Nat
  deriving DecidableEq, Repr

/-- A gain change that waits (R87). -/
structure GainWait where
  gain : Nat
  /-- ticks since Boot when the change fell due -/
  due : Nat
  immediate : Bool
  deriving DecidableEq, Repr

/-- The threshold pair of one gain step (R76). -/
structure Thresholds where
  timing : Nat
  trigger : Nat
  deriving DecidableEq, Repr

/-- One pixel's front end. -/
structure PixelFe where
  /-- gain step in force, 3 bits (R63) -/
  gain : Nat
  /-- the waiting change (R87, R88) -/
  waiting : Option GainWait
  /-- changes of gain of the last 32,768 ticks, latest first, and the one before them: ticks since Boot and the
  step from then on -/
  history : List (Nat × Nat)
  /-- V_trim, 8 bits in 10 mV (R77) -/
  trim : Nat
  /-- threshold pairs per gain step (R72) -/
  thresholds : Vector Thresholds 8
  /-- `hyst_timing`, 4 bits -/
  hystTiming : Nat
  /-- `hyst_trigger`, 4 bits -/
  hystTrigger : Nat
  /-- spans in which a check has found it open (R69), latest first; open while it stays so -/
  openSpans : List Span
  /-- clamp-touched spans (R65), latest first -/
  clampSpans : List Span
  /-- clamp count, 32 bits (R98) -/
  clampCount : Nat
  /-- range-transition spans (R87), latest first -/
  rangeSpans : List Span
  /-- gated spans of this pixel alone: V_trim settling (R81), latest first -/
  gatedSpans : List Span
  /-- calibrating spans of this pixel alone (R109), latest first -/
  calSpans : List Span
  /-- open segments that include the pixel: ticks since Boot of the last sample of each window (R87) -/
  openSegs : List Nat
  deriving DecidableEq, Repr

/-- Where a tile's open-input check stands (R68). -/
inductive OpenCheck where
  | none
  /-- sources on, since a tick; compared at 300 us -/
  | charging (since : Nat)
  /-- recovering until 302 us -/
  | recovering (since : Nat)
  deriving DecidableEq, Repr

/-- One tile's bias, gate and open-input check. -/
structure TileFe where
  /-- V_tile asked for, 13 bits in 10 mV (R77) -/
  target : Nat
  /-- output at `rampAt` while it ramps, else the output, in 1/256,000 of 10 mV: a ramp of 0.1 V/ms moves it by 1 in a
  tick (R78) -/
  output : Nat
  ramping : Bool
  /-- ticks since Boot from which the present ramp counts -/
  rampAt : Nat
  /-- `ramp` of the present ramp, in 0.1 V/ms (R82) -/
  rampRate : Nat
  /-- the ramp to 0 V is the active discharge of the power-fail warning, whatever `ramp` (R496) -/
  discharging : Bool
  /-- how far the gating switch has lowered the output at `dropAt`, in 1/256 of 10 mV: a slew of 0.1 V/us moves it by 1
  in a tick (R79) -/
  drop : Nat
  dropAt : Nat
  /-- `gate_step` in 0.1 V and `gate_slew` in 0.1 V/us in force (R79, R82) -/
  gateStep : Nat
  gateSlew : Nat
  /-- the gate source asks for off (R80) -/
  sourceOff : Bool
  /-- `FE.GATE` has set it off (R80) -/
  commandOff : Bool
  /-- ticks since Boot when the pulse of `FE.GATE` ends (R80) -/
  pulseEnds : Option Nat
  /-- ticks since Boot when the gated flag ends, after the switch started to restore (R81) -/
  flagEnds : Option Nat
  /-- gated spans of the whole tile from gating (R81), latest first -/
  gatedSpans : List Span
  /-- gated spans of the whole tile from ramps of V_tile (R81), latest first -/
  rampSpans : List Span
  /-- calibrating spans of the whole tile (R69, R517), latest first -/
  calSpans : List Span
  check : OpenCheck
  /-- a check waits (R70) -/
  checkWaiting : Bool
  /-- ticks since Boot from which `open_period` counts (R68) -/
  checkFrom : Nat
  /-- a gain calibration run diverts the tile's discriminators (R517) -/
  calibrating : Bool
  /-- the generator is switched off by its current limit (R500) -/
  generatorOff : Bool
  /-- the output is held at 0 V until the device state next becomes Ready (R497) -/
  heldOff : Bool
  deriving DecidableEq, Repr

/-- The front end (R62 to R98). -/
structure FeState where
  pixels : Vector PixelFe 1024
  tiles : Vector TileFe 64
  /-- next entry of the gain schedule (R86) -/
  scheduleNext : Nat
  /-- a map has been active since Boot: the first one starts the open-input checks (R68) -/
  checkedOnce : Bool
  deriving DecidableEq, Repr

/-! ## Waveform converters and the monitor converter -/

/-- The role of a converter slice (R102, R108, R109). -/
inductive SliceRole where
  | position (p : Nat)
  | spare
  | idle
  | retired
  deriving DecidableEq, Repr

/-- One converter slice (R105). -/
structure Slice where
  role : SliceRole
  /-- offset in 1/64 code, -4,096 to 4,096 -/
  off : Int
  /-- gain in 2^-16, -3,277 to 3,277 -/
  gc : Int
  /-- sampling-delay trim in 0.1 ps, -200 to 200 -/
  dly : Int
  /-- dwells since the last gain and skew update, 32 bits (R126) -/
  since : Nat
  /-- latest estimates of offset, gain and skew before normalisation, in 1/65,536 of the units above (R106) -/
  offEst : Int
  gcEst : Int
  dlyEst : Int
  deriving DecidableEq, Repr

/-- The calibration settings a dwell runs under (R111). -/
structure DwellSettings where
  enable : Bool
  dwell : Nat
  weight : Nat
  activity : Nat
  minActive : Nat
  deriving DecidableEq, Repr

/-- One pixel's converter. -/
structure WfcPixel where
  /-- slices 0 to 8 -/
  slices : Vector Slice 9
  /-- mode asked for: low-power (R109, R111) -/
  lowAsked : Bool
  /-- mode in force: low-power -/
  lowPower : Bool
  /-- position shadowed by the dwell (R102) -/
  shadowed : Nat
  /-- settings of the dwell in progress -/
  settings : DwellSettings
  /-- settings of the map and of `WFC.CAL_CONTROL`, for the next dwell -/
  nextSettings : DwellSettings
  /-- the gain step changed during the dwell (R125) -/
  gainChanged : Bool
  /-- ticks since Boot from which the dwell in progress counts (R102) -/
  dwellFrom : Nat
  /-- slices and mode of the last 32,768 ticks, latest first, each with the tick since Boot at which it ended: a sample keeps
  the corrections under which it was taken (R103) -/
  past : List (Nat × Bool × Vector Slice 9)
  /-- a change of mode made while the converters stand: the first 64 samples after their start are still to carry the
  calibrating flag (R109) -/
  calDue : Bool
  /-- consecutive starved dwells, 32 bits (R107) -/
  starved : Nat
  /-- consecutive failed converter tests of slices 0 to 8 (R528) -/
  testFails : Vector Nat 9
  deriving DecidableEq, Repr

/-- A latest value of a monitor input (R119). -/
structure Latest where
  /-- binary32 in the unit of R91 or R113 -/
  value : Nat
  time : TimeWord
  /-- ticks since Boot of the result, and the value before it with its own -/
  tick : Nat
  before : Option (Nat × Nat)
  deriving DecidableEq, Repr

/-- Where the sequencer stands in its entry (R117). -/
inductive MonPhase where
  | settling
  | converting
  | afterwards
  deriving DecidableEq, Repr

/-- The monitor record being filled (R121). -/
structure MonRecord where
  /-- start of its first conversion -/
  start : TimeWord
  /-- the same, ticks since Boot -/
  startTick : Nat
  words : List Nat
  deriving DecidableEq, Repr

/-- MON (R112 to R126). -/
structure MonState where
  /-- mode in force: low-power -/
  lowPower : Bool
  /-- the map whose sequencer and input table are in force; none: the built-in sequence (R120) -/
  table : Option PisteMap
  /-- a map has become active since: the table changes at the end of the pass (R120) -/
  tableDue : Bool
  /-- entry of the sequencer -/
  entry : Nat
  /-- ticks since Boot when the entry selected its input (R117) -/
  selectAt : Nat
  phase : MonPhase
  /-- ticks since Boot when the present conversion started; after the last conversion, when it ended -/
  convTick : Nat
  /-- the same as a time word -/
  convTime : TimeWord
  /-- conversions of the entry completed -/
  conv : Nat
  /-- start of the entry's first conversion -/
  firstTick : Nat
  firstTime : TimeWord
  /-- sum and number of the entry's valid conversions -/
  sum : Int
  valid : Nat
  /-- a valid conversion of the entry was over-range -/
  isOver : Bool
  /-- the excitation current of the selected mode-2 input flows (R92) -/
  excited : Bool
  /-- loop pass number, 32 bits (R121) -/
  pass : Nat
  record : Option MonRecord
  /-- latest values of inputs 0 to 255 (R119) -/
  latest : Vector (Option Latest) 256
  /-- monitor inputs found open (R93) -/
  inputOpen : Vector Bool 128
  /-- counts behind events 1893 and 1894, 32 bits each (R124) -/
  overRange : Nat
  refFaults : Nat
  deriving DecidableEq, Repr

/-! ## Reference and time base -/

/-- One of the three sources (R127, R129). -/
structure Source where
  present : Bool
  failed : Bool
  /-- 0 none, 1 comparison, 2 absent, 3 loop unlock (R458) -/
  cause : Nat
  /-- counted windows in a row in which it was eligible and in no disagreeing pair, at most 255 (R135) -/
  agree : Nat
  /-- ready flag as last reported by event 1541 -/
  ready : Bool
  deriving DecidableEq, Repr

/-- One pair of sources (R130, R132, R133). -/
structure Pair where
  /-- last difference of the two counts, signed, in 0.01 ppm (R130) -/
  diff : Int
  /-- windows in a row beyond `fail_ppm` -/
  failRun : Nat
  /-- a warning stands -/
  warned : Bool
  /-- windows in a row in which it no longer disagrees -/
  clearRun : Nat
  deriving DecidableEq, Repr

/-- Alignment state behind the time state of R145. -/
inductive Alignment where
  | free | locked | holdover | ambiguous
  deriving DecidableEq, Repr

/-- The four spread-spectrum fields (R156). -/
structure Spread where
  sliceDepth : Nat
  switchDepth : Nat
  sliceRate : Nat
  switchRate : Nat
  deriving DecidableEq, Repr

/-- The thresholds of the time table in force (R156, R158). -/
structure TimeLimits where
  warn : Nat
  fail : Nat
  confirm : Nat
  readyWindows : Nat
  deriving DecidableEq, Repr

/-- The time base (R127 to R162). -/
structure TimeState where
  /-- ticks since Boot of the latest time request sent (R361) -/
  requestAt : Option Nat
  /-- the timing loop is locked (R128, R571) -/
  locked : Bool
  /-- `seconds`, 40 bits (R144) -/
  seconds : Nat
  /-- tick counter, 0 to 2,559,999,999 (R144) -/
  tick : Nat
  /-- source in use, 2 bits (R127) -/
  inUse : Nat
  refA : Source
  refB : Source
  int : Source
  /-- PPS present (R129) -/
  pps : Bool
  /-- d(A,B), d(A,INT), d(B,INT) and their runs -/
  pairAB : Pair
  pairAI : Pair
  pairBI : Pair
  /-- the counting window under way is discarded (R131) -/
  discard : Bool
  limits : TimeLimits
  /-- new limits of a map wait for the next counting window (R158) -/
  limitsDue : Bool
  /-- event 1546 has been raised while no comparison is possible -/
  alone : Bool
  /-- windows in a row within `warn_ppm`, towards the end of AMBIGUOUS (R143) -/
  calmRun : Nat
  /-- a frequency slew is in progress, from this old source (R137) -/
  slewFrom : Option Nat
  /-- ticks since Boot before which the slew cannot end, at its rate of `slew` (R137) -/
  slewEnds : Nat
  /-- the frequency is moving upwards in that slew -/
  slewUp : Bool
  /-- phase error in ps that steering has still to remove, signed (R144, R146) -/
  steerLeft : Int
  /-- phase shift in ps that steering has made since Boot, signed (R144) -/
  steered : Int
  /-- ticks since Boot since which `preferred` has been ready while another is in use (R139) -/
  readySince : Option Nat
  /-- learned INT correction in 0.001 ppm, signed, -10,000 to 10,000 (R141) -/
  correction : Int
  /-- ticks since Boot of the latest save of the correction (R141) -/
  savedAt : Nat
  alignment : Alignment
  /-- an alignment has been done since Boot (R145) -/
  aligned : Bool
  /-- the latest PPS edge, in fine bins since Boot (R129) -/
  ppsLast : Option Nat
  /-- correction that learning may still apply, in 1/3,600 of 0.001 ppm (R141) -/
  learnCredit : Nat
  /-- `seconds` has been set since Boot (R145) -/
  secondsSet : Bool
  /-- last phase error in ps, signed (R146, R147) -/
  phaseError : Int
  /-- `seconds` to take at the next second boundary (R149) -/
  pendingSeconds : Option Nat
  /-- each `TIME.ALIGN` that waits for the next edge or exchange (R148) -/
  pendingAlign : List Ctx
  /-- spread-spectrum fields in force (R155) -/
  spread : Spread
  /-- fields that wait for the next second boundary (R155) -/
  pendingSpread : Option Spread
  deriving DecidableEq, Repr

/-! ## Interpolators -/

/-- A calibration pair as applied, with its flags (R172). -/
structure CalPair where
  c1 : Nat
  c2 : Nat
  subst : Bool
  factory : Bool
  deriving DecidableEq, Repr

/-- A pulse whose falling edge has not come (R174). -/
structure Pulse where
  /-- E, fine bins of the time word counted from second 0 -/
  rise : Int
  /-- the rising edge is that of the end of a range transition (R87) -/
  rangeEdge : Bool
  /-- its tag word has closed already (R176) -/
  tagClosed : Bool
  /-- first tick of the tag frame whose pair corrected it, global tick count (R171, R173) -/
  frame : Int
  deriving DecidableEq, Repr

/-- One pixel's interpolator (R163 to R183). -/
structure TdcPixel where
  /-- last measured pair, c1 and c2, 13 bits each -/
  measured : Option (Nat × Nat)
  /-- pair applied in the present tag frame (R171) -/
  applied : CalPair
  /-- pair applied in the frame before it (R173) -/
  previous : CalPair
  /-- last pair accepted since Boot (R168) -/
  lastAccepted : Option (Nat × Nat)
  /-- counts of accepted and not accepted pairs, 64 bits -/
  accepted : Nat
  rejected : Nat
  /-- consecutive pairs not accepted -/
  run : Nat
  failed : Bool
  /-- `t_offset` in force, signed 16 bits (R179) -/
  tOffset : Int
  /-- a calibration slot runs (R166) -/
  slot : Bool
  pulse : Option Pulse
  /-- stop tick of the latest captured edge, ticks since Boot (R165) -/
  lastStop : Nat
  /-- the latest rising edge was lost: the falling edge that follows forms no word -/
  lostRise : Bool
  /-- an earlier hit word was dropped at the crossing (R21) -/
  hitOverflow : Bool
  /-- first tick of the frame in which an earlier tag word was dropped at the entry (R236) -/
  tagOverflow : Option Nat
  /-- E of the pixel's hit words that have left the tile history, of the last 32,768 ticks (R223) -/
  leftHistory : List Int
  deriving DecidableEq, Repr

/-! ## Slalom and the Schuss lanes -/

/-- A rising trigger edge of a pixel and the falling edge after it (R184), ticks since Boot. -/
structure Lit where
  rise : Nat
  fall : Option Nat
  /-- a gain change ended the lit time here -/
  cut : Option Nat
  deriving DecidableEq, Repr

/-- One course (R189). -/
structure Course where
  /-- gate 0 to 15 -/
  gate : Nat
  /-- tick of entry k0, ticks since Boot -/
  entry : Nat
  /-- counter n, 16 bits -/
  n : Nat
  /-- `t_max` of its gate has passed at the present tick -/
  timeout : Bool
  armed : Bool
  deriving DecidableEq, Repr

/-- The seven candidate counters of a course (R213), 64 bits each. -/
structure CourseCounters where
  completions : Nat
  accepted : Nat
  merged : Nat
  notArmed : Nat
  rearm : Nat
  cap : Nat
  busyHold : Nat
  deriving DecidableEq, Repr

/-- A key in a key memory (R194). -/
structure KeyEntry where
  key : Nat
  /-- the coalescing window under which it was formed, in ticks (R208) -/
  window : Nat
  /-- global tick count at which it leaves the memory -/
  leaves : Nat
  deriving DecidableEq, Repr

/-- An ARM or DISARM that waits for its tick (R201). -/
structure ArmAction where
  arm : Bool
  mask : Nat
  /-- its tick T as a global tick count -/
  at_ : Nat
  deriving DecidableEq, Repr

/-- A member of the partner busy set (R204). -/
structure BusyEntry where
  fireId : Nat
  /-- ticks since Boot of the latest BUSY set from it -/
  since : Nat
  deriving DecidableEq, Repr

/-- Slalom (R184 to R213). -/
structure SlalomState where
  /-- trigger edges of each pixel of the last 32,768 ticks, latest first (R184) -/
  lit : Vector (List Lit) 1024
  /-- level changes of XT0 to XT3 of the last 32,768 ticks and the one before them, latest first: the tick since Boot of the
  stamp and the level from then on (R185, R187) -/
  xt : Vector (List (Nat × Bool)) 4
  /-- FIRE messages received new: course and reception, ticks since Boot (R187) -/
  partnerFires : List (Nat × Nat)
  /-- a table entry that the courses of the present tick use has been found damaged for good (R59) -/
  hurt : Bool
  /-- candidates that `SLALOM.FIRE` has asked for at the present tick, with their contexts (R213) -/
  asked : List (Ctx × Nat)
  /-- followed candidates formed at the present tick: course, and the fire time their message carries (R193) -/
  followed : List (Nat × TimeWord)
  courses : Vector Course 16
  counters : Vector CourseCounters 16
  /-- accepted memory, oldest first, at most 64 (R194) -/
  accepted : List KeyEntry
  /-- sent memory, oldest first, at most 64 (R194) -/
  sent : List KeyEntry
  /-- fire ticks of accepted candidates, global tick counts (R195) -/
  fires : List Nat
  /-- ARM and DISARM waiting for their tick (R201) -/
  pendingArms : List ArmAction
  /-- last ARM or DISARM sequence sent or applied, 8 bits (R200) -/
  armSeq : Nat
  /-- ARM and DISARM known within 1 s: DISARM bit, sequence, ticks since Boot (R197) -/
  knownArms : List (Bool × Nat × Nat)
  /-- BUSY known within 1 ms: origin, sequence, ticks since Boot (R197) -/
  knownBusy : List (Nat × Nat × Nat)
  /-- the partner busy set, ascending (R204) -/
  busySet : List BusyEntry
  /-- ticks since Boot when the set last became non-empty (event 1255) -/
  busySince : Nat
  /-- the module's 4-bit BUSY sequence (R203) -/
  busySeq : Nat
  /-- ticks since Boot of the latest BUSY set sent while the busy condition holds (R203) -/
  busySent : Option Nat
  /-- ticks since Boot when FO falls, while it is high (R205) -/
  foEnds : Option Nat
  deriving DecidableEq, Repr

/-- A message that waits on a Schuss lane (R199). -/
structure SchussMsg where
  /-- content bits [63:12] of R356, shifted to bits [51:0] -/
  content : Nat
  /-- it is relayed, not originated -/
  relayed : Bool
  deriving DecidableEq, Repr

/-- A message of another type than FIRE that waits on a Schuss lane (R199, R361). -/
inductive OtherMsg where
  | plain (m : SchussMsg)
  /-- a TIME request with its exchange id -/
  | request (id : Nat)
  /-- response 1 to 3 to a request, with t2 in fine bins since Boot -/
  | response (id sub : Nat) (t2 : Int)
  deriving DecidableEq, Repr

/-- A time exchange the module has asked for (R361, R362); instants in fine bins since Boot. -/
structure Exchange where
  id : Nat
  t1 : Int
  t4 : Option Int
  /-- low 42 bits of F3 -/
  f3 : Option Nat
  tauP : Option Nat
  seconds : Option Nat
  deriving DecidableEq, Repr

/-- One Schuss lane (R355 to R362). -/
structure SchussLane where
  /-- waiting FIRE messages, at most 3 (R199) -/
  fires : List SchussMsg
  /-- waiting messages of other types, at most 16 (R199) -/
  others : List OtherMsg
  /-- exchange id and t3, fine bins since Boot, of the latest response A that has left (R361) -/
  answered : Option (Nat × Int)
  delineated : Bool
  /-- consecutive invalid messages of a delineated receiver (R358) -/
  run : Nat
  /-- the descrambler's latest 58 line bits (R358) -/
  descrambler : Nat
  /-- line bits received, up to the 58 that synchronise the descrambler and the 64 of a message (R358) -/
  fresh : Nat
  /-- the latest 64 descrambled bits (R358) -/
  window : Nat
  /-- line bits received, modulo 64 (R358) -/
  clock : Nat
  /-- consecutive messages with a valid check at each of the 64 bit offsets, before delineation (R358) -/
  runs : Vector Nat 64
  /-- the bit offset at which the receiver is delineated (R358) -/
  offset : Nat
  /-- the transmit scrambler's latest 58 line bits (R358) -/
  scrambler : Nat
  up : Bool
  /-- delineated bit of the latest idle message received (R359) -/
  farDelineated : Bool
  /-- `fire_id` of the latest idle message received -/
  farId : Nat
  /-- idle counter of the next idle message, 16 bits (R357) -/
  idleCounter : Nat
  /-- ticks since Boot when the latest slot began (R355) -/
  slotAt : Option Nat
  /-- the 64 line bits of the latest slot, scrambled, the first sent as bit 63 (R355, R358) -/
  line : Option Nat
  /-- messages sent, received and discarded, 64 bits each (R366) -/
  sentCount : Nat
  receivedCount : Nat
  discardedCount : Nat
  /-- `SLALOM.COUNTERS`: sent, relayed, dropped (R213) -/
  slalomSent : Nat
  slalomRelayed : Nat
  slalomDropped : Nat
  /-- occurrences of events 1251 and 1252, 32 bits each (R211) -/
  fireFull : Nat
  otherFull : Nat
  /-- exchange under way -/
  exchange : Option Exchange
  /-- next exchange id, 4 bits -/
  nextId : Nat
  /-- result of the last exchange: t_rt and tau_p in fine bins, phase error in ps (R366) -/
  tRt : Nat
  tauP : Nat
  phase : Int
  deriving DecidableEq, Repr

/-! ## Ring, segments and tag frames -/

/-- A freeze order (R196, R217). -/
structure FreezeOrder where
  course : Nat
  /-- fire tick, ticks since Boot -/
  fire : Int
  /-- fire time word, fine bin 0 -/
  time : TimeWord
  key : Nat
  seq : Nat
  followed : Bool
  /-- `dead_total` at acceptance (R228) -/
  deadTotal : Nat
  /-- samples before the fire tick and samples of the window (R218) -/
  lookBack : Nat
  samples : Nat
  /-- raw size L of its instance (R232) -/
  reserve : Nat
  /-- T of each tile when the first sample was taken, binary32 (R89) -/
  temps : List Nat
  /-- the map before the marker under way serves it (R25, R202) -/
  oldMap : Bool
  /-- `avg` of each pixel when it was accepted (R245) -/
  avg : List Nat
  /-- number of the compression table that serves it (R25, R265) -/
  table : Nat
  /-- its bits P and Q in crossing 0 (R395) -/
  parity : ParityBits
  /-- ticks since Boot when it was formed -/
  formed : Nat
  deriving DecidableEq, Repr

/-- A hit word's fields as the tile history holds them (R174, R223). -/
structure Hit where
  pixel : Nat
  /-- E, fine bins of the time word counted from second 0 -/
  rise : Int
  /-- time over threshold field, 16 bits -/
  tot : Nat
  rangeEdge : Bool
  overflow : Bool
  noFalling : Bool
  /-- first tick of the tag frame whose pair corrected it, global tick count (R171, R173) -/
  frame : Int
  /-- its bits P and Q in crossing 1 and the tile history (R395); a word that is not good stands in segment memory in the
  poison form (R28) -/
  parity : ParityBits
  deriving DecidableEq, Repr

/-- An annotation word (R230). -/
structure Annotation where
  kind : Nat
  fst : Nat
  count : Nat
  value : Nat
  deriving DecidableEq, Repr

/-- A pixel block of a raw segment (R229). -/
structure Block where
  pixel : Nat
  gain : Nat
  avg : Nat
  pair : CalPair
  openInput : Bool
  /-- hits placed, in order of entry -/
  hits : List Hit
  /-- charge word and spans; kind 5 is added when the hit list closes -/
  annotations : List Annotation
  /-- raw codes of the window, in tick order -/
  raw : List Nat
  /-- words of the sample area and their width, once the segment is complete (R225) -/
  words : List Nat
  width : Nat
  /-- hit words left out by `max_hits`, and the sample of the first (R230) -/
  leftOut : Nat
  firstLeft : Nat
  /-- words of the pixel left the tile history with E at or after k0 before the copy started (R223) -/
  lostHits : Bool
  /-- samples of the window whose ring word failed its parity: their bytes stand in the poison form (R27, R28) -/
  badSamples : List Nat
  deriving DecidableEq, Repr

/-- A raw segment in segment memory (R221 to R224). -/
structure RawSeg where
  order : FreezeOrder
  /-- k0, ticks since Boot -/
  start : Int
  blocks : List Block
  early : Bool
  /-- the latest run of the converters at the copy (R216) -/
  written : Option Span
  /-- the hit list has closed: the segment is complete -/
  closed : Bool
  /-- bytes of segment memory reserved or in use (R237) -/
  bytes : Nat
  /-- the ranges of segment memory that it holds, as first byte and length, in the order of its bytes -/
  place : List (Nat × Nat)
  poisoned : Bool
  deriving DecidableEq, Repr

/-- A missed stub in the stub queue (R238, R239). -/
structure Stub where
  order : FreezeOrder
  cause : Nat
  deriving DecidableEq, Repr

/-- A tag word (R176), as its 48 bits. -/
abbrev TagWord := Nat

/-- A tag word in its tile's tag-framer entry, crossing 3 (R43, R234, R395). -/
structure TagEntry where
  /-- first tick of the frame it belongs to, global tick count -/
  frame : Nat
  word : TagWord
  parity : ParityBits
  deriving DecidableEq, Repr

/-- One tile's open frame (R234, R235). -/
structure TagFrame where
  /-- first tick of the frame, global tick count -/
  start : Nat
  part : Nat
  words : List TagWord
  dropped : Nat
  mask : Nat
  /-- pairs applied in this frame to the tile's 16 pixels -/
  pairs : List CalPair
  /-- a word of the part failed its parity on the way (R28) -/
  damaged : Bool
  deriving DecidableEq, Repr

/-- The 64-bit counters of R241. -/
structure AcqCounters where
  armedTicks : Nat
  deadTicks : Nat
  busyTicks : Nat
  accepted : Nat
  segments : Nat
  stubs : Vector Nat 5
  stubLost : Nat
  refusedRearm : Nat
  refusedCap : Nat
  refusedBusy : Nat
  hitOverflow : Nat
  hitsTruncated : Nat
  tagsFramed : Nat
  tagsDropped : Nat
  deriving DecidableEq, Repr

/-- Acquisition (R214 to R246). -/
structure AcqState where
  /-- what the converters gave in the last 16,384 ticks, as runs of one pixel; the first run that holds a tick counts (R214) -/
  ring : List RingRun
  /-- the latest run of the converters, in ticks since Boot, open while they run (R216, R570) -/
  conv : Option Span
  /-- the converters stop at the first tick at which no segment window is open (R570) -/
  convStop : Bool
  /-- crossing 0: freeze orders, oldest first (R43) -/
  orders : List FreezeOrder
  /-- raw segments, in the order of their freeze orders -/
  segments : List RawSeg
  /-- the stub queue, at most 1,024 (R239) -/
  stubs : List Stub
  /-- `seq` of the next accepted candidate: one more than the count of those accepted since Boot (R228) -/
  nextSeq : Nat
  /-- crossing 1: hit words of each tile on their way to its history, oldest first (R43) -/
  hitFifo : Vector (List Hit) 64
  /-- crossing 3: tag words of each tile at the tag framer's entry, oldest first (R43) -/
  tagFifo : Vector (List TagEntry) 64
  /-- hit history of each tile, oldest first (R223) -/
  history : Vector (List Hit) 64
  /-- tags are framed (R234) -/
  framing : Bool
  /-- ticks since Boot of the latest tag-frame edge that has acted -/
  edgeAt : Option Nat
  /-- open frames of each tile, older first (R234) -/
  frames : Vector (List TagFrame) 64
  /-- tag words that have closed while the frame of their rising edge is still to open (R176): pixel, E, time over threshold in
  ticks, no-falling, and whether their parity stays as written -/
  earlyTags : List (Nat × Int × Nat × Bool × Bool)
  /-- ticks since Boot since which the busy condition holds (R240) -/
  busySince : Option Nat
  counters : AcqCounters
  /-- dead ticks since Boot, never cleared (R228, R241) -/
  deadTotal : Nat
  /-- spans of ticks counted as armed and live, latest first (R241) -/
  liveSpans : List Span
  /-- `tag_enable` in force (R242) -/
  tagEnable : Bool
  /-- `avg` of each pixel in force -/
  avg : Vector Nat 1024
  /-- `avg` of each pixel under the map before the latest swap, for candidates it still serves (R202) -/
  oldAvg : Vector Nat 1024
  /-- `tag` bit of each pixel in force -/
  tag : Vector Bool 1024
  /-- tag bucket of each tile: tokens in 1/16,384 and the ticks since Boot up to which they are counted (R504) -/
  tagBucket : Vector (Nat × Nat) 64
  descLow : Nat
  descHigh : Nat
  /-- KiB -/
  memLow : Nat
  memHigh : Nat
  deriving DecidableEq, Repr

/-! ## Compression -/

/-- The compression parameters of one pixel (R261, R265). -/
structure CmpParams where
  neighbour : Nat
  a : Int
  b : Int
  c : Int
  enable : Bool
  /-- Rice parameter per gain step -/
  k : Vector Nat 8
  deriving DecidableEq, Repr

/-- A compression table (R25, R265). -/
structure CmpTable where
  /-- its number, in the order in which tables came into force -/
  number : Nat
  mapLow : Nat
  /-- some parameter has been set by a command -/
  overridden : Bool
  pixels : Vector CmpParams 1024
  deriving DecidableEq, Repr

/-- A pipeline of CMP that waits for a chain buffer (R259). -/
structure CmpWait where
  pipeline : Nat
  /-- ticks since Boot since which it waits, or since the counters were last cleared -/
  since : Nat
  /-- no buffer was free for it: event 1379 has been raised (R259, R263) -/
  noted : Bool
  deriving DecidableEq, Repr

/-- What CMP takes next: a raw segment or a missed stub (R247). -/
inductive CmpItem where
  | segment (s : RawSeg)
  | stub (s : Stub)
  deriving DecidableEq, Repr

/-- A block that a pipeline has finished: its bytes as they stand in the output buffer, the bits P and Q of each of its 64-bit
output words, and whether the bytes still are those that the record CRC was computed over (R28, R395). -/
structure DoneBlock where
  pixel : Nat
  bytes : List Byte
  parity : List ParityBits
  changed : Bool
  deriving DecidableEq, Repr

/-- The item CMP works on (R257). -/
structure CmpJob where
  item : CmpItem
  /-- blocks finished, in order of completion -/
  done : List DoneBlock
  /-- pixels whose blocks a flush has ended (R260) -/
  flushed : List Nat
  poisoned : Bool
  /-- the 64 header bytes of a segment as read, and the bits P and Q of their output words; empty for a stub -/
  head : List Byte
  headParity : List ParityBits
  /-- ticks since Boot when CMP took it -/
  taken : Nat
  /-- the chain buffers that its record has taken, in order (R258, R259) -/
  chain : List Nat
  wait : Option CmpWait
  deriving DecidableEq, Repr

/-- A `CMP.FLUSH` that is not answered yet (R260). -/
structure FlushWait where
  ctx : Ctx
  scope : Nat
  count : Nat
  /-- `seq` of the record that holds the last flushed block -/
  last : Nat
  deriving DecidableEq, Repr

/-- The counters of R263, 64 bits each. -/
structure CmpCounters where
  records : Nat
  stubs : Nat
  coded : Nat
  notShrinking : Nat
  disabled : Nat
  mismatch : Nat
  poison : Nat
  flushed : Nat
  escapes : Nat
  bytesIn : Nat
  bytesOut : Nat
  /-- wait in ticks; reported in ns -/
  waited : Nat
  deriving DecidableEq, Repr

/-- CMP (R247 to R265). -/
structure CmpState where
  /-- `seq` of the record being formed, or of the last one -/
  seq : Nat
  job : Option CmpJob
  flushes : List FlushWait
  /-- `seq` of the segments in segment memory whose blocks a flush with scope 1 stores raw -/
  flushSegs : List Nat
  /-- compression tables in use, latest first -/
  tables : List CmpTable
  /-- number of the table in force before the latest map swap (R202) -/
  oldTable : Nat
  counters : CmpCounters
  deriving DecidableEq, Repr

/-! ## Merge engine and output queues -/

/-- Where the chain buffers of a record were taken from (R281, R297). -/
inductive Pool where
  | loc
  | grant (address port vc : Nat)
  | marker (vc : Nat)
  deriving DecidableEq, Repr

/-- A complete record (or downward command packet) held in merge memory. -/
structure QRec where
  /-- its number, in the order in which records came into merge memory -/
  rid : Nat
  /-- its bytes, trailer included -/
  bytes : List Byte
  /-- its event key, for markers of cause 1 -/
  key : Nat
  /-- its mogul chain: the numbers of the chain buffers it holds, in order (R258) -/
  chain : List Nat
  pool : Pool
  /-- ports on which its first parcel has been sent (R296) -/
  carriers : List Nat
  /-- ports on which its last parcel has been acknowledged (R296) -/
  acked : List Nat
  /-- STORE has taken it (R376) -/
  taken : Bool
  /-- STORE has read it back from the log (R384) -/
  fromStore : Bool
  /-- a marker of cause 1 formed by its own queue (R295) -/
  ownMarker : Bool
  /-- a downward packet that held a poisoned parcel (R28) -/
  damaged : Bool
  /-- it was formed ahead of the swap marker that is under way (R25, R276) -/
  old : Bool
  deriving DecidableEq, Repr

/-- An item of an output queue: a record, a packet, or the records of one event (R294). -/
structure Item where
  recs : List QRec
  deriving DecidableEq, Repr

/-- The dropped items that wait for a queue's marker buffer (R295). -/
structure DropCount where
  count : Nat
  firstKey : Nat
  lastKey : Nat
  deriving DecidableEq, Repr

/-- An output queue and the sending of its stream: the upward queue of a VC or the downward queue of a port. -/
structure TxStream where
  /-- items in order; the front is the oldest not yet released -/
  items : List Item
  /-- the record being sent and the number of its parcels already sent first -/
  cursor : Option (Nat × Nat)
  /-- dropped items waiting for the marker buffer (R295) -/
  drops : Option DropCount
  deriving DecidableEq, Repr

/-- A parcel in a pass queue (R294). -/
structure PassParcel where
  /-- its number, of those of the records in merge memory -/
  rid : Nat
  partner : Nat
  fst : Bool
  poisoned : Bool
  payload : List Byte
  /-- ports on which it has been sent, and on which it has been acknowledged (R296) -/
  carriers : List Nat
  acked : List Nat
  /-- it was in the queue ahead of the swap marker that is under way (R25, R276) -/
  old : Bool
  /-- the chain buffer it stands in, and its place among the 63 there (R281) -/
  buf : Nat
  slot : Nat
  deriving DecidableEq, Repr

/-- A return item that waits for a lift-pass parcel (R280). -/
structure ReturnItem where
  address : Nat
  vc : Nat
  count : Nat
  /-- it goes on to a pass-mode partner, in a parcel of its own -/
  alone : Bool
  deriving DecidableEq, Repr

/-- A record that waits for buffers of the local pool, with its VC (R297). -/
structure Waiting where
  vc : Nat
  record : Rec
  /-- it was formed ahead of the swap marker that is under way (R25) -/
  old : Bool
  deriving DecidableEq, Repr

/-- The access rotations (R22, R44): the next turn of each macro, the 64 of segment memory before the 32 of merge memory, and the last writer that used a turn of client 6 of
merge memory: 0 tag framer, 1 CTRL, 2 MON. -/
structure Turns where
  next : Vector Nat 96
  writer : Nat
  deriving DecidableEq, Repr

/-- What a partner stream's receiver is doing (R273, R286). -/
inductive RxMode where
  /-- the next parcel is the start of a record -/
  | start
  /-- the parcels of a record are being gathered -/
  | gather
  /-- so many parcels of the stream are still to be discarded (R273, R279) -/
  | discard (parcels : Nat)
  /-- halted (R286, R415) -/
  | halted
  deriving DecidableEq, Repr

/-- A received stream: a build-mode partner's stream on one Down port, or the downward command stream of an Up port. -/
structure RxStream where
  port : Nat
  /-- the partner's address; 0 for the downward command stream -/
  address : Nat
  vc : Nat
  mode : RxMode
  /-- bytes gathered of the record or packet -/
  bytes : List Byte
  /-- parcels received of it -/
  parcels : Nat
  /-- parcels it has: ceil(`length` / 54) -/
  need : Nat
  /-- one of its parcels carried the poisoned flag -/
  poisoned : Bool
  /-- the chain buffers of its reservation that hold the bytes (R281) -/
  chain : List Nat
  deriving DecidableEq, Repr

/-- A complete copy that waits for its pair at the receiving end (R483). -/
structure Copy where
  /-- port on which it came -/
  port : Nat
  /-- stream address, 0 for command packets -/
  address : Nat
  vc : Nat
  /-- as it stands in merge memory: a record poisoned here ends in another trailer (R30) -/
  bytes : List Byte
  /-- as received, which is what the comparison takes (R484) -/
  received : List Byte
  poisoned : Bool
  /-- ticks since Boot when it completed -/
  since : Nat
  /-- it has gone on already and is kept to be compared with its pair (R486) -/
  forwarded : Bool
  /-- it stays single (R483) -/
  single : Bool
  /-- the chain buffers of the reservation that hold it (R281) -/
  chain : List Nat
  deriving DecidableEq, Repr

/-- An open or closed event of the builder (R291, R292), in opening order. -/
structure OpenEvent where
  key : Nat
  /-- its deadline as a global tick count -/
  deadline : Nat
  /-- items in the order in which they joined -/
  recs : List QRec
  /-- origins accounted for -/
  accounted : List Nat
  /-- the expected set under which it opened -/
  expected : List Nat
  closed : Bool
  /-- ticks since Boot when it opened; none for the late item of no event -/
  opened : Option Nat
  deriving DecidableEq, Repr

/-- A grant entry's counts on one port (R279, R282). -/
structure Grant where
  address : Nat
  port : Nat
  vc : Nat
  passes : Nat
  batch : Nat
  /-- `return_delay` in 0.1 us -/
  delay : Nat
  /-- outstanding count -/
  outstanding : Nat
  /-- passes gathered and not yet returned -/
  returnable : Nat
  /-- ticks since Boot when the first of them became returnable -/
  since : Nat
  /-- chain buffers of the reservation in use (R281) -/
  used : Nat
  deriving DecidableEq, Repr

/-- A hold count of one of the module's own streams on one port (R282); signed, as a swap may lower it. -/
structure Hold where
  port : Nat
  vc : Nat
  passes : Nat
  count : Int
  deriving DecidableEq, Repr

/-- The 64-bit counters of R302. -/
structure MrgCounters where
  closedComplete : Nat
  closedDeadline : Nat
  closedEarly : Nat
  lateForwarded : Nat
  lateDropped : Nat
  itemsDropped : Vector Nat 4
  chairMismatches : Nat
  passViolations : Nat
  haltedStreams : Nat
  unroutable : Nat
  droppedCommands : Nat
  reassembled : Vector Nat 8
  deriving DecidableEq, Repr

/-- The merge engine (R266 to R302). -/
structure MrgState where
  /-- upward output queues VC0 to VC3 (R294) -/
  up : Vector TxStream 4
  /-- downward queue of each port (R294) -/
  down : Vector TxStream 8
  /-- pass queue of each VC, oldest first (R294) -/
  pass : Vector (List PassParcel) 4
  /-- records of the tag framer, CTRL, MON and MRG that wait for buffers of the local pool (R297) -/
  waiting : List Waiting
  /-- chain buffers of the local pool in use (R297) -/
  localUsed : Nat
  /-- numbers of the chain buffers in use (R258) -/
  taken : List Nat
  /-- number of the next record to join a queue -/
  nextRid : Nat
  /-- received streams (R285) -/
  streams : List RxStream
  /-- copies that wait for their pair (R483) -/
  copies : List Copy
  /-- events of the builder, in opening order (R291) -/
  events : List OpenEvent
  /-- outstanding counts (R279) -/
  grants : List Grant
  /-- hold counts (R282) -/
  holds : List Hold
  /-- `close_time` in force (R293, MRG.SET_CLOSE) -/
  closeTime : Nat
  /-- `late_mode` in force (R293, MRG.SET_CLOSE) -/
  lateMode : Nat
  /-- `close_time` and `late_mode` before the latest map swap, in force while its marker is ahead of MRG (R301) -/
  oldClose : Nat × Nat
  /-- the size of the local pool before the latest map swap, likewise (R25, R297) -/
  oldPool : Nat
  counters : MrgCounters
  deriving DecidableEq, Repr

/-! ## Lanes and the chairlift -/

/-- `tx_state` of R313. -/
inductive TxSt where
  | off | train | align | up | asleep | test
  deriving DecidableEq, Repr

/-- `rx_state` of R313. -/
inductive RxSt where
  | off | training | passed | locked | asleep | test | failed
  deriving DecidableEq, Repr

/-- What a port is doing in the chairlift (R314 to R325). -/
inductive LiftStep where
  /-- out of the chairlift: the start conditions of R314 are tested -/
  | out
  /-- out after a failure at C0: `retry_delay` runs (R320) -/
  | retry
  /-- a failure at this end that a message has still to announce with `rx_state` 6 (R320) -/
  | failed
  | train
  | check
  | align
  | decide
  | up
  | test
  deriving DecidableEq, Repr

/-- A lane-control message as its fields (R313). -/
structure LcMsg where
  ackEpisode : Nat
  tx : Nat
  rx : Nat
  wakeSeen : Bool
  wakeReq : Bool
  stage : Nat
  cap : Nat
  fec : Bool
  fec3Wish : Bool
  episode : Nat
  wakeKey : Nat
  address : Nat
  role : Nat
  commit : Bool
  deriving DecidableEq, Repr

/-- A PRBS test under way (R327). -/
structure PrbsTest where
  stage : Nat
  pattern : Nat
  generate : Bool
  check : Bool
  /-- ticks since Boot when its duration ends -/
  ends : Nat
  deriving DecidableEq, Repr

/-- Alignment search and lock of one receive lane (R322). -/
structure AlignLane where
  /-- consecutive good blocks found, 0 to 8; 8 is locked -/
  run : Nat
  /-- block counter of the latest block -/
  counter : Nat
  /-- consecutive misses of a locked lane -/
  misses : Nat
  deriving DecidableEq, Repr

/-- The counters of one lane (R326). -/
structure LaneCounters where
  prbsBits : Nat
  prbsErrors : Nat
  prbsSyncLoss : Nat
  fecCodewords : Nat
  fecCorrectedCw : Nat
  fecCorrectedSym : Nat
  fecUncorrectable : Nat
  lockLosses : Nat
  deriving DecidableEq, Repr

/-- Transmit settings of one lane (R332, LANE.SET_TX). -/
structure TxSettings where
  swing : Nat
  pre : Nat
  post : Nat
  deriving DecidableEq, Repr

/-- One data lane. -/
structure Lane where
  align : AlignLane
  counters : LaneCounters
  /-- the polarity of the receive pair is inverted, as training has found it (R304, R316) -/
  inverted : Bool
  /-- the checker of the check step or test under way or last done, and the bits it has been given (R317, R326) -/
  checker : PrbsChecker
  checked : Nat
  /-- settings the transmitter uses since its latest train step -/
  settings : TxSettings
  /-- settings given by `LANE.SET_TX` until the next map (R336) -/
  override : Option TxSettings
  deriving DecidableEq, Repr

/-- Sleep of one port's transmit direction (R328, R330, R331). -/
structure TxSleep where
  /-- `episode`, 8 bits -/
  episode : Nat
  /-- `wake_key` announced, 48 bits; all ones: none -/
  wakeKey : Nat
  /-- the command that waits for the direction to be asleep -/
  waiting : Option Ctx
  /-- the 100 us for the acknowledgement run (R328) -/
  ackWait : Bool
  /-- it has come: one more alignment block goes out before electrical idle (R328) -/
  acked : Bool
  /-- ticks since Boot when the sleep was announced (R328) -/
  since : Nat
  /-- global tick count of the scheduled wake -/
  wakeAt : Option Nat
  /-- bursts started -/
  bursts : Nat
  /-- a wake is under way: `tx_state` 2 until lock is announced -/
  waking : Bool
  /-- ticks since Boot when `wake_seen` of this episode was first received -/
  seen : Option Nat
  deriving DecidableEq, Repr

/-- Sleep of one port's receive direction (R329). -/
structure RxSleep where
  /-- `ack_episode`, 8 bits -/
  ackEpisode : Nat
  /-- `wake_seen` announced -/
  wakeSeen : Bool
  /-- `wake_req` announced -/
  wakeReq : Bool
  /-- the seeded search runs -/
  windowOpen : Bool
  /-- the full search runs after a missed window -/
  fullSearch : Bool
  deriving DecidableEq, Repr

/-- One port's lanes and chairlift. -/
structure LanePort where
  step : LiftStep
  tx : TxSt
  rx : RxSt
  /-- stage of the transmit direction, 0 to 4 -/
  stage : Nat
  /-- lowering of the cap in this bring-up (R320), or the cap of a re-entry (R324) -/
  lowered : Option Nat
  /-- FEC active on the transmit direction (R318) -/
  fec : Bool
  /-- `commit` set, and messages sent with it (R319) -/
  commit : Option Nat
  /-- Kn locked (R310) -/
  knLocked : Bool
  /-- ticks since Boot when Kn locked (R129) -/
  knSince : Nat
  /-- the partner's messages are delineated (R312) -/
  delineated : Bool
  /-- consecutive failures once delineated (R312) -/
  msgRun : Nat
  /-- K frames received since Kn locked, modulo 32 (R312) -/
  kClock : Nat
  /-- nibbles of the latest 32 K frames, oldest first (R312) -/
  kNibbles : List Nat
  /-- consecutive messages with a valid CRC at each of the 32 nibble offsets, before delineation (R312) -/
  kRuns : Vector Nat 32
  /-- the offset at which the messages are delineated (R312) -/
  kOffset : Nat
  /-- last message sent -/
  sent : LcMsg
  /-- ticks since Boot when it started (R311) -/
  sentAt : Option Nat
  /-- last message received, with the partner's states taken for 0 while none can be (R312) -/
  received : LcMsg
  /-- last message received, as it was (R336) -/
  heard : LcMsg
  /-- a relock is under way (R323) -/
  relock : Bool
  /-- ticks since Boot when it began (R323) -/
  relockAt : Nat
  /-- training pattern since the latest train step, 0 to 5 (R316, R332) -/
  pattern : Nat
  /-- ticks since Boot when the training, check, decide step or retry pause under way began (R317, R319, R320) -/
  since : Nat
  /-- ticks since Boot when the partner announced `tx_state` 2 at this stage (R316) -/
  alignAt : Option Nat
  /-- a `LANE.CLIMB` that waits for the port to leave the up state (R325, R336) -/
  waiting : Option Ctx
  /-- the re-entry or bring-up under way started from a re-entry (R325 orders the pair) -/
  reentry : Bool
  /-- ticks since Boot when it started -/
  reentryAt : Nat
  /-- a re-entry that waits for that of the other uplink port: its stage and its place in the causes of port event 2 (R325) -/
  reentryDue : Option (Nat × Nat)
  /-- the transmit direction is up from the next alignment block it sends (R319, R330) -/
  upDue : Bool
  /-- the mismatch of R314 has been reported for the partner's present fields -/
  mismatch : Bool
  test : Option PrbsTest
  txSleep : TxSleep
  rxSleep : RxSleep
  deriving DecidableEq, Repr

/-! ## Link layer of a port -/

/-- An acknowledgement item (R346). -/
structure AckItem where
  seq : Nat
  valid : Bool
  nakId : Nat
  nak : Bool
  deriving DecidableEq, Repr

/-- A parcel as the replay buffer holds it (R337 to R339, R349). -/
structure Held where
  typ : Nat
  seq : Nat
  partner : Nat
  vc : Nat
  fst : Bool
  poisoned : Bool
  payload : List Byte
  /-- owner of its chair: the `tx_address` under which it was sent -/
  owner : Nat
  /-- the record it belongs to, and whether it is the record's last parcel -/
  record : Option (Nat × Bool)
  deriving DecidableEq, Repr

/-- Transmit direction of a port (R342 to R351). -/
structure LinkTx where
  /-- next sequence to be given, 12 bits (R345) -/
  next : Nat
  /-- unacknowledged parcels, oldest first, at most 2,047 (R349) -/
  held : List Held
  /-- `nak_id` last acted on, 4 bits (R349) -/
  lastNak : Nat
  /-- index in `held` of the lowest parcel not yet resent of a replay under way (R350) -/
  replay : Option Nat
  /-- ticks since Boot since which parcels have been held and base has not advanced (R351) -/
  stillSince : Option Nat
  /-- ticks since Boot of the latest replay timeout (R365) -/
  timeoutAt : Option Nat
  /-- ticks since Boot since which the window has been full (R364) -/
  stalledSince : Option Nat
  /-- ticks since Boot from which that stall is still to be counted (R366) -/
  stallFrom : Nat
  /-- block counter, 24 bits (R342) -/
  counter : Nat
  /-- wheel-generation bit sent (R276) -/
  wheelGen : Bool
  /-- the transmit half in force is that of the old map (R276) -/
  oldWheel : Bool
  /-- ticks since Boot of the swap edge E that brought the new wheel (R276) -/
  swapAt : Nat
  /-- return items waiting to be sent in lift-pass parcels (R280) -/
  returns : List ReturnItem
  /-- the member is left behind (R478) -/
  leftBehind : Bool
  /-- ticks since Boot since which the member has kept the pair from sending (R478) -/
  blockedSince : Option Nat
  /-- streams that the member has joined, so that their new parcels go in step (R479): VC v of the port's own stream
  as v, VC v of a partner passed as 16 + 4 × address + v -/
  joined : List Nat
  /-- the 64 bytes of the latest chair, before scrambling; none while the transmitter is at electrical idle (R337) -/
  parcel : List Byte
  /-- the chair of the rotation that it goes in, 0 to 4,095 (R269) -/
  chair : Nat
  /-- message bits of each lane's FEC codeword under way, at most 5,139 (R308) -/
  fecBits : Vector (List Bool) 4
  /-- the bits that the latest chair or block put on each lane, in line order, parity among them (R305, R308, R344) -/
  line : Vector (List Bool) 4
  /-- the 16-byte quarters of the latest alignment block, lane 0 first (R343) -/
  block : List Byte
  deriving DecidableEq, Repr

/-- Receive direction of a port (R348, R352). -/
structure LinkRx where
  /-- expected sequence, 12 bits -/
  expected : Nat
  /-- acknowledgement item of this receiver (R346) -/
  ack : AckItem
  /-- ticks since Boot since which a changed acknowledgement has not been sent (R353) -/
  ackChanged : Option Nat
  /-- last block counter received, 24 bits -/
  counter : Nat
  /-- wheel-generation bit of the last block received -/
  wheelGen : Bool
  /-- the receive half in force is that of the old map (R276) -/
  oldWheel : Bool
  /-- `lane` values received, one per lane (R343) -/
  lanes : Vector Nat 4
  /-- parcels in the received-parcel crossing (R21) that wait for room downstream -/
  crossing : List Held
  deriving DecidableEq, Repr

/-- The 64-bit counters of `LANE.LINK_STATUS` for a port (R366). -/
structure LinkCounters where
  replaysNak : Nat
  replaysTimeout : Nat
  crcFailures : Nat
  duplicates : Nat
  malformed : Nat
  /-- stall time in ticks; reported in ns -/
  stall : Nat
  deriving DecidableEq, Repr

/-- The link layer of one port. -/
structure LinkPort where
  tx : LinkTx
  rx : LinkRx
  counters : LinkCounters
  deriving DecidableEq, Repr

/-! ## The record store -/

/-- The admin commands of bring-up and of time-outs (R369 to R371). -/
inductive AdminOp where
  | identifyController
  | identifyNamespace
  /-- Set Features: the number of I/O queue pairs -/
  | setQueues (pairs : Nat)
  | createCompletionQueue (queue depth : Nat)
  | createSubmissionQueue (queue depth : Nat)
  /-- Abort the command of a number -/
  | abort (id : Nat)
  deriving DecidableEq, Repr

/-- What a command to a drive is for (R370, R373, R374). -/
inductive StoreOp where
  | admin (a : AdminOp)
  | readSuper (copy : Nat)
  | readCheckpoint (copy : Nat)
  /-- an extent in the scan of R382 -/
  | readScan (seq : Nat)
  /-- an extent for forwarding (`false`) or for a replay (`true`), R384 -/
  | readLog (replay : Bool) (seq : Nat)
  /-- the header of an extent for `STORE.FIND` -/
  | readFind (seq : Nat)
  | writeSuper (copy : Nat)
  | writeCheckpoint (copy : Nat)
  | writeExtent (seq : Nat)
  | flush
  deriving DecidableEq, Repr

/-- The command that carries it out (R370). -/
inductive NvmeVerb where
  | write (fua : Bool)
  | read
  | flush
  /-- a command of the admin queue -/
  | admin
  deriving DecidableEq, Repr

/-- A command that a drive has been given and has not completed (R370, R371). -/
structure NvmeCmd where
  id : Nat
  op : StoreOp
  verb : NvmeVerb
  /-- namespace that it names (R370, R385) -/
  nsid : Nat
  /-- byte offset and length in the namespace; none for a Flush (R372, R373) -/
  offset : Nat
  length : Nat
  /-- the bytes of a Write (R373, R374, R383) -/
  data : List Byte
  /-- ticks since Boot of its submission -/
  at_ : Nat
  /-- an Abort of it has been sent (R371) -/
  aborted : Bool
  /-- failures of a Write so far -/
  tries : Nat
  deriving DecidableEq, Repr

/-- Where a Store port is in its bring-up (R369). -/
inductive DrivePhase where
  /-- the port has not the role Store -/
  | unused
  /-- SPRS is tested every 100 ms -/
  | waiting
  /-- SRST asserted -/
  | reset
  | training
  /-- the controller is enabled and not yet ready -/
  | enabling
  /-- it is ready, and the 10 ms after that run -/
  | settling
  /-- the admin queue runs: Identify, then the I/O queues -/
  | admin
  | up
  deriving DecidableEq, Repr

/-- One Store port and its drive. -/
structure Drive where
  phase : DrivePhase
  /-- ticks since Boot when SRST was asserted, when the link came up, or when the controller was ready, the latest of them (R369) -/
  since : Nat
  /-- ticks since Boot of the latest test of SPRS (R369) -/
  polled : Option Nat
  /-- I/O queue pairs, and the depth of each, created at the latest bring-up (R369) -/
  queues : Nat
  depth : Nat
  /-- the drive has been lost since it was last up -/
  lost : Bool
  generation : Nat
  width : Nat
  /-- what Identify brings -/
  identity : DriveIdentity
  /-- admin commands of the bring-up still to be given, the one outstanding first -/
  todo : List AdminOp
  /-- bytes of the namespace -/
  bytes : Nat
  /-- outstanding commands, oldest first -/
  cmds : List NvmeCmd
  /-- number of the next command -/
  nextId : Nat
  /-- ticks since Boot of the controller resets (R371) -/
  resets : List Nat
  deriving DecidableEq, Repr

/-- The extent being assembled, or a sealed one (R374, R376). -/
structure Extent where
  /-- its staging slot, 0 to 3 (R376) -/
  slot : Nat
  seq : Nat
  data : List Byte
  firstRecord : Option Nat
  firstKey : Nat
  /-- poison entries: offset and length -/
  poison : List (Nat × Nat)
  early : Bool
  /-- time at which it was sealed -/
  sealed_ : TimeWord
  /-- records whose last byte it holds -/
  ends : List Nat
  /-- where its bytes come from: record, first byte in it, offset in the data region and length (R378) -/
  parts : List (Nat × Nat × Nat × Nat)
  /-- drives whose Write of it has not completed -/
  drives : List Nat
  /-- its Writes had completed when the latest Flush was submitted; that Flush has completed (R379) -/
  flushing : Bool
  flushed : Bool
  deriving DecidableEq, Repr

/-- A checkpoint under way (R377, R383). -/
inductive CheckpointStep where
  | idle
  /-- the extents sealed for it, those below a sequence number, are still being written -/
  | extents (below : Nat)
  /-- Flush on these drives -/
  | flush (drives : List Nat)
  /-- Write on these drives -/
  | write (drives : List Nat)
  deriving DecidableEq, Repr

/-- The opening of the log (R382). -/
inductive OpenStep where
  | idle
  /-- superblocks and checkpoints are read -/
  | heads
  | scan
  deriving DecidableEq, Repr

/-- A reader of the log: for forwarding or for a replay (R384). -/
structure LogReader where
  active : Bool
  /-- next extent to read -/
  seq : Nat
  /-- last extent of the range -/
  last : Nat
  /-- offset at which its first record starts, where it is known -/
  offset : Option Nat
  /-- the staging slot that holds the extent read last, from the submission of its read until its whole records are copied -/
  slot : Option Nat
  /-- a read is outstanding -/
  reading : Bool
  /-- bytes read of records not yet whole, each with what R375 says of it -/
  buf : List (Byte × Bool)
  /-- where the bytes of `buf` begin: extent and offset in its data region -/
  start : Nat × Nat
  /-- `data_len` of the extents from there on -/
  lens : List Nat
  /-- whole records that wait for the VC3 queue, with the position behind each -/
  out : List (List Byte × Nat × Nat)
  sent : Nat
  skipped : Nat
  deriving DecidableEq, Repr

/-- A `STORE.FIND` under way: its context, the moment and the bounds of the bisection. -/
structure FindJob where
  ctx : Ctx
  moment : TimeWord
  low : Nat
  high : Nat
  deriving DecidableEq, Repr

/-- The 64-bit counts of `STORE.COUNTERS` (R389). -/
structure StoreCounters where
  written : Nat
  early : Nat
  retried : Nat
  failed : Nat
  bytes : Nat
  unstored : Nat
  lostUnforwarded : Nat
  forwarded : Nat
  replayed : Nat
  poison : Nat
  checkpoints : Nat
  deriving DecidableEq, Repr

/-- STORE (R367 to R389). -/
structure StoreState where
  drives : Vector Drive 2
  /-- `mode`, `vc_mask` and `full_policy` in force (R388) -/
  mode : Nat
  vcMask : Nat
  fullPolicy : Nat
  /-- the log is open -/
  opened : Bool
  openStep : OpenStep
  /-- what the reads of R382 steps 1 and 2 have brought: drive, command and bytes -/
  heads : List (Nat × StoreOp × List Byte)
  /-- extents scanned by the opening under way -/
  scanned : Nat
  logId : Nat
  extentCount : Nat
  /-- every extent below it is taken -/
  head : Nat
  /-- next extent to be sealed -/
  next : Nat
  fwdSeq : Nat
  fwdOffset : Nat
  /-- generation of the last checkpoint, and the copy that holds it -/
  gen : Nat
  copy : Nat
  /-- the extent being assembled -/
  cur : Option Extent
  /-- sealed extents that are not taken, oldest first -/
  sealed_ : List Extent
  /-- bytes of copied items that wait for a staging slot: record, its bytes, its key, and how many bytes are in already -/
  feed : List (Nat × List Byte × Nat × Nat)
  /-- records copied and not yet taken -/
  copied : List Nat
  /-- VC whose turn comes next (R376) -/
  turn : Nat
  /-- ticks since Boot since which storing is paused, and whether the extent that waits is sealed early (R377, R381) -/
  paused : Option (Nat × Bool)
  cp : CheckpointStep
  /-- ticks since Boot when the latest checkpoint was written, or the log opened (R377) -/
  cpAt : Nat
  /-- commands that wait for the checkpoint under way or due -/
  cpWaiting : List Ctx
  /-- another checkpoint is due once the present one ends -/
  cpDue : Bool
  /-- the `STORE.FORMAT` under way -/
  format : Option Ctx
  forward : LogReader
  replay : LogReader
  /-- first extent of the replay -/
  replayFirst : Nat
  /-- records forwarded and not yet released: record, and the position behind it -/
  fwdOut : List (Nat × Nat × Nat)
  finds : List FindJob
  counters : StoreCounters
  deriving DecidableEq, Repr

/-! ## Integrity -/

/-- An entry of the correctable-error log (R400). -/
structure LogEntry where
  cls : Nat
  address : Nat
  uncorrectable : Bool
  lasting : Bool
  remapped : Bool
  injected : Bool
  /-- occurrences, 16 bits; stops at 65,535 -/
  count : Nat
  syndrome : Nat
  q : Bool
  reader : Nat
  first_ : TimeWord
  last : TimeWord
  /-- ticks since Boot of the latest occurrence and up to two before it, latest first -/
  ticks : List Nat
  deriving DecidableEq, Repr

/-- An entry of the remap table (R402). -/
structure RemapEntry where
  /-- 0 free, 1 in use, 2 spare retired -/
  state : Nat
  cls : Nat
  line : Nat
  deriving DecidableEq, Repr

/-- The most recent occurrences of a kind of fault on a subject (R405): ticks since Boot, latest first. -/
structure FaultHistory where
  kind : Nat
  subject : Nat
  times : List Nat
  deriving DecidableEq, Repr

/-- A walk of the groomer (R397). -/
structure Walk where
  /-- next line of the walk, counted over its classes in order -/
  line : Nat
  paused : Bool
  /-- KiB/s -/
  rate : Nat
  /-- ticks since Boot when the pass started -/
  passStart : Nat
  /-- tick since Boot of its last line; none before the first -/
  lineAt : Option Nat
  /-- time of the last pass in ms -/
  lastPass : Nat
  /-- corrections and uncorrectable words of this pass -/
  corrections : Nat
  uncorrectable : Nat
  deriving DecidableEq, Repr

/-- Counts of one memory class since Boot (R413), 64 bits each. -/
structure MemCounts where
  corrections : Nat
  uncorrectable : Nat
  poison : Nat
  deriving DecidableEq, Repr

/-- A stored code word that differs from the one an unlisted address holds (R391). -/
structure CodeCell where
  /-- class × 2^27 + address -/
  at_ : Nat
  /-- 13 bits -/
  word : Nat
  deriving DecidableEq, Repr

/-- Integrity (R390 to R413). -/
structure IntegState where
  /-- the log, 32 entries by index (R400) -/
  log : Vector (Option LogEntry) 32
  /-- the remap table (R402) -/
  remap : Vector RemapEntry 16
  /-- lasting lines, as class and line, that wait for a turn of the groomer to be remapped (R403) -/
  remapDue : List (Nat × Nat)
  /-- lasting lines, as class and line, still to be appended to the list in flash (R404) -/
  listDue : List (Nat × Nat)
  histories : List FaultHistory
  /-- counts of classes 0 to 4 -/
  memCounts : Vector MemCounts 5
  /-- parity failures of crossings 0 to 3, the CMP output buffer in place of crossing 2 (R395) -/
  parity : Vector Nat 4
  /-- records poisoned at the hand-overs of R28, third row first; for the lane-receive row, parcels discarded -/
  handOver : Vector Nat 7
  /-- records poisoned at receipt under R30 -/
  poisonedCrc : Nat
  /-- records poisoned at receipt because a parcel carried the poisoned flag -/
  poisonedFlag : Nat
  /-- data walk and auxiliary walk -/
  walks : Vector Walk 2
  /-- crossings, with their tile, whose next word gets an inverted P (R413) -/
  crossingInjects : List (Nat × Nat)
  /-- ports whose next sequenced parcel gets an inverted CRC (R413) -/
  portInjects : List Nat
  /-- addresses, as class × 2^27 + address, whose damage `INTEG.INJECT` made and no reader has met -/
  injected : List Nat
  /-- code words that differ from the one an unlisted address holds, by rising address (R391, R392) -/
  mem : List CodeCell
  deriving DecidableEq, Repr

/-! ## The uplink pair and twin ports at the receiving end -/

/-- The states of a member (R485). -/
inductive MemberSt where
  | down | active | standby | suspect
  deriving DecidableEq, Repr

/-- One port as a member of a pair at its receiving end. -/
structure PairMember where
  state : MemberSt
  /-- equal comparisons in a row of the proof under way (R489) -/
  proof : Option Nat
  deriving DecidableEq, Repr

/-- Arbitration by the receiving end (R483 to R490). -/
structure PairState where
  members : Vector PairMember 8
  /-- by the first port of a pair: the port that was active last; none before a switch -/
  lastActive : Vector (Option Nat) 8
  /-- streams whose copies are paired in order since a member joined: first port of the pair, address, VC (R483) -/
  paired : List (Nat × Nat × Nat)
  /-- `mismatches` of the module's own pair, 32 bits -/
  mismatches : Nat
  /-- `switches`, 32 bits (R490) -/
  switches : Nat
  deriving DecidableEq, Repr

/-! ## The control triad -/

/-- What a member of the triad is doing (R463 to R475). -/
inductive MemberMode where
  | voting
  | fenced
  /-- its herringbone runs -/
  | climbing
  /-- it waits outside the vote for its herringbone (R475) -/
  | waiting
  deriving DecidableEq, Repr

/-- A request to the voter (R464). -/
structure VoteReq where
  /-- 0 write, 1 flash operation, 2 reply or event record, 3 read -/
  kind : Nat
  target : Nat
  data : List Byte
  deriving DecidableEq, Repr

/-- An input of the members (R463). The time word and the events they take from the state that all of them read. -/
inductive MemberInput where
  /-- a command packet, with the port it came by, 255 for the service port -/
  | packet (port : Nat) (bytes : List Byte)
  /-- the result of a voted read -/
  | readReply (target : Nat) (data : List Byte)
  deriving DecidableEq, Repr

/-- One control member. -/
structure TriadMember where
  mode : MemberMode
  /-- times it has been fenced, 32 bits (R455) -/
  fencedTotal : Nat
  /-- the request it has presented and that is not completed -/
  presented : Option VoteReq
  /-- completed requests it has still to present, oldest first, each with the ticks since Boot of its completion (R465) -/
  owed : List (VoteReq × Nat)
  /-- ticks since Boot of its latest report of an error (R465, R469) -/
  errorAt : Option Nat
  /-- the input delivered to it last (R463) -/
  input : Option MemberInput
  /-- its 528,384 bytes of local memory and registers, those not 0, by rising offset (R473) -/
  bytes : List CodeCell
  deriving DecidableEq, Repr

/-- A herringbone under way (R473). -/
structure Herringbone where
  member : Nat
  /-- pass under way, 1 to 8 -/
  pass : Nat
  /-- how many lines the pass copies -/
  lines : Nat
  /-- which of them are known: all in the first pass, afterwards those that voted writes marked -/
  known : Option (List Nat)
  /-- lines that voted writes have marked dirty in this pass -/
  marked : List Nat
  /-- tick since Boot at which the pass started -/
  passAt : Nat
  /-- ticks since Boot when it started -/
  since : Nat
  /-- the `SYS.TRIAD_REPAIR` that started it -/
  command : Option Ctx
  deriving DecidableEq, Repr

/-- The triad, the voter and the patrol (R463 to R476). -/
structure TriadState where
  members : Vector TriadMember 3
  herringbone : Option Herringbone
  /-- members whose herringbone waits for the one under way, in order (R475) -/
  queue : List Nat
  /-- two voting members have presented different requests, and the patrol arbitrates (R469) -/
  arbitrating : Bool
  /-- the request that the target of a completed handshake has seen last (R464) -/
  output : Option VoteReq
  /-- ticks since Boot of the last completed request (R471) -/
  lastVote : Nat
  /-- ticks since Boot of the last restart after a split (R472) -/
  restartedAt : Option Nat
  /-- the patrol keeps the members stopped and answers five commands itself (R472, R576) -/
  stopped : Bool
  deriving DecidableEq, Repr

/-! ## Power and performance levels -/

/-- One snowplough cause of R507. -/
structure SnowCause where
  active : Bool
  /-- the ceiling it sets, 0 to 3 -/
  ceiling : Nat
  /-- ticks since Boot since which the condition of its end has held (R508) -/
  calmSince : Option Nat
  deriving DecidableEq, Repr

/-- A sequence of R502. -/
structure LevelSeq where
  up : Bool
  /-- level in force when it started -/
  old : Nat
  /-- level it goes to -/
  goal : Nat
  /-- up: 1, its ramp and the wait; down: 2, the drain wait; 3, its ramp and the wait -/
  step : Nat
  /-- ticks since Boot when it started -/
  start : Nat
  /-- the power-fail warning skips the drain wait (R496) -/
  skipDrain : Bool
  /-- ticks since Boot since which the limits of the drain wait have held without a break -/
  drainSince : Option Nat
  deriving DecidableEq, Repr

/-- One rail of R498. -/
structure RailState where
  good : Bool
  /-- ticks since Boot when its converter last restarted after a fault (R499) -/
  restartedAt : Option Nat
  deriving DecidableEq, Repr

/-- Power (R494 to R512). -/
structure PwrState where
  /-- level in force, 0 Green to 3 Black (R501) -/
  level : Nat
  /-- level requested (R501) -/
  requested : Nat
  /-- tokens of the fire bucket (R504) -/
  fireTokens : Nat
  /-- ticks since Boot at which the next token is added (R504) -/
  nextToken : Nat
  /-- causes 1 to 5, by their code less one -/
  causes : Vector SnowCause 5
  /-- ticks since Boot since which some cause has been active, while one is (event 1607) -/
  ploughSince : Option Nat
  /-- `limit` in force, 0.1 W -/
  limit : Nat
  /-- a `limit` set by command that takes effect at the start of the next 10 ms window (R512) -/
  limitDue : Option Nat
  /-- ticks since Boot of the latest lowering for cause 4 (R507) -/
  loweredAt : Option Nat
  /-- ends of windows and their averages in mW, latest first, each older one above all later ones (R508) -/
  windows : List (Nat × Nat)
  /-- tick since Boot at which the present 10 ms window began (R507) -/
  windowAt : Nat
  /-- average of the latest window, mW -/
  inputPower : Option Nat
  seq : Option LevelSeq
  /-- set point of VCORE before the latest ramp, in mV -/
  rampFrom : Nat
  /-- its goal, in mV -/
  rampTo : Nat
  /-- ticks since Boot when it started -/
  rampAt : Nat
  /-- each `PWR.SET_LEVEL` that is not answered yet -/
  setters : List Ctx
  /-- the power-fail warning is active, since these ticks since Boot (R496) -/
  warning : Option Nat
  /-- by flag bit (R498) -/
  rails : Vector RailState 7
  /-- ticks since Boot since which the lid has been at or above 130.0 °C (R509) -/
  lidHot : Option Nat
  /-- that excursion of the lid has put the device into Fault-hold (R509) -/
  lidHeld : Bool
  deriving DecidableEq, Repr

/-! ## Calibration, self-test and monitor units -/

/-- What a repeat gives a pixel (R519): Q as a fraction, none when the pixel is starved, and c. -/
structure CalQ where
  q : Option (Nat × Nat)
  count : Nat
  deriving DecidableEq, Repr

/-- A calibration run in progress (R517). -/
structure CalRun where
  start : TimeWord
  /-- the same, ticks since Boot -/
  startTick : Nat
  /-- T at the start, binary32 -/
  temp : Nat
  /-- repeat b is under way -/
  second : Bool
  /-- gain steps of the 16 pixels at the start -/
  gains : List Nat
  /-- what repeat a gave the 16 pixels -/
  first_ : List CalQ
  deriving DecidableEq, Repr

/-- Calibration of one tile (R515 to R523). -/
structure CalTile where
  /-- start of the last run, accepted or not: its time, ticks since Boot, and T, binary32 -/
  last : Option (TimeWord × Nat × Nat)
  /-- T when the map became active, binary32 (R515) -/
  reference : Nat
  /-- `result` of `CAL.STATUS` (R541): 0 accepted, 1 rejected, 2 factory -/
  result : Nat
  /-- runs since Boot, 16 bits (R523) -/
  runs : Nat
  /-- a run has fallen due and waits (R516) -/
  due : Bool
  run : Option CalRun
  deriving DecidableEq, Repr

/-- Calibration of one pixel. -/
structure CalPixel where
  /-- gain trim G in force (R513) -/
  trim : Nat
  /-- trim decided and waiting for a tag-frame edge (R514) -/
  next : Option Nat
  /-- Q for gain steps 0 to 7, binary32 (R521) -/
  charges : Vector Nat 8
  deriving DecidableEq, Repr

/-- Calibration (R513 to R523). -/
structure CalState where
  tiles : Vector CalTile 64
  pixels : Vector CalPixel 1024
  deriving DecidableEq, Repr

/-- A soft repair in use: a row tied to a spare row of its macro (R529). -/
structure SoftRepair where
  cls : Nat
  macro_ : Nat
  row : Nat
  spare : Nat
  deriving DecidableEq, Repr

/-- A `BIST.RUN` under way (R524). -/
structure BistRun where
  ctx : Ctx
  cls : Nat
  /-- next slice, and the last -/
  slice : Nat
  last : Nat
  passed : Nat
  failed : Nat
  skipped : Nat
  deriving DecidableEq, Repr

/-- Self-test (R524 to R534). -/
structure BistState where
  /-- next slice of the scheduled walk of classes 0 to 3 -/
  walks : Vector Nat 4
  /-- tick since Boot of the last slice of each class; none: the next is due at once (R524) -/
  sliceAt : Vector (Option Nat) 4
  /-- the slice last held, as class, slice and tick since Boot (R526) -/
  held : Option (Nat × Nat × Nat)
  run : Option BistRun
  /-- slices tested, failed and skipped, 64 bits each -/
  tested : Nat
  failed : Nat
  skipped : Nat
  /-- soft repairs made since Boot, the latest last; a later one of a row replaces an earlier (R529) -/
  repairs : List SoftRepair
  /-- the fuse bank, kept through every reset (R531, R574) -/
  fuses : Vector Nat 256
  deriving DecidableEq, Repr

/-- What a monitor unit holds (R535). -/
structure HmonUnit where
  minimum : Int
  maximum : Int
  samples : Nat
  bins : Vector Nat 64
  deriving DecidableEq, Repr

/-! ## Flash operations and firmware -/

/-- One operation of the flash device: the erase of a sector, or the program of bytes of one page (R542, R547). -/
inductive FlashStep where
  | erase (sector : Nat)
  | program (offset : Nat) (bytes : List Byte)
  deriving DecidableEq, Repr

/-- A change of the key ring (R47, R48). -/
inductive KeyChange where
  | add (key : List Byte)
  | remove (id : Nat)
  | lock
  | clear
  deriving DecidableEq, Repr

/-- A change of the boot-selector record (R556 to R558, R53). -/
inductive BootChange where
  | activate (ctrl lane : Nat)
  | confirm
  | rollBack
  | setBoot (slot : Nat)
  deriving DecidableEq, Repr

/-- A change of the lasting-fault list: a line found lasting, or the flags of lines a repair or a fuse covers (R404,
R533). -/
inductive ListChange where
  | found (cls line : Nat) (at_ : TimeWord)
  | flags (cls line : Nat) (soft fused unrepairable : Bool)
  deriving DecidableEq, Repr

/-- A write of the module's own (R548, R549), and the command that waits for it. -/
inductive OwnWrite where
  | boot (change : BootChange) (ctx : Option Ctx)
  | correction (value : Int)
  | keys (change : KeyChange) (ctx : Option Ctx)
  | faults (change : ListChange)
  deriving DecidableEq, Repr

/-- What the steps of a host operation end in. -/
inductive FlashEnd where
  | answer
  /-- `MAP.KEY_UNLOCK`: the ring is emptied and the lock cleared once the slots are erased (R48) -/
  | unlock
  deriving DecidableEq, Repr

/-- A host command that programs or erases flash (R545, R547). -/
structure FlashJob where
  ctx : Ctx
  steps : List FlashStep
  then_ : FlashEnd
  deriving DecidableEq, Repr

/-- Which operation the flash is making. -/
inductive FlashBusy where
  | idle | host | own
  deriving DecidableEq, Repr

/-- Flash operations and firmware (R542 to R565). -/
structure FlashState where
  /-- host operations in order of their start; the first is under way -/
  jobs : List FlashJob
  /-- the module's own writes in order; the first is under way once it has steps -/
  own : List OwnWrite
  /-- steps of the first own write that are still to be made -/
  ownSteps : List FlashStep
  /-- the operation under way is the first step of the first host operation or of the first own write -/
  busy : FlashBusy
  /-- verified slots (R554): control A and B, lane A and B -/
  verified : Vector Bool 4
  /-- ticks since Boot when the control firmware started (R557) -/
  started : Nat
  /-- this start has rolled back (R560) -/
  rolledBack : Bool
  /-- versions of the control and the lane image that run and the highest schema minor they support; none before an image
  runs (R455) -/
  running : Option (Nat × Nat × Nat)
  deriving DecidableEq, Repr

/-! ## The whole state -/

/-- The volatile state of the block, by subsystem. -/
structure Dev where
  sys : SysState
  cmd : CmdState
  evt : EvtState
  map : MapState
  fe : FeState
  wfc : Vector WfcPixel 1024
  mon : MonState
  time : TimeState
  tdc : Vector TdcPixel 1024
  slalom : SlalomState
  schuss : Vector SchussLane 4
  acq : AcqState
  cmp : CmpState
  mrg : MrgState
  turns : Turns
  link : Vector LinkPort 8
  lift : Vector LanePort 8
  lanes : Vector Lane 32
  pair : PairState
  store : StoreState
  integ : IntegState
  pwr : PwrState
  triad : TriadState
  cal : CalState
  bist : BistState
  hmon : Vector HmonUnit 32
  fw : FlashState
  /-- free values taken so far: the argument of the next free value of Config (the model's own field) -/
  free : Nat
  deriving DecidableEq, Repr

/-- The state of the block: its volatile state, the bytes of its flash, and the commands that wait. -/
structure State where
  dev : Dev
  /-- flash bytes that differ from the erased value, by rising offset (R542) -/
  flash : List Host.Cell
  /-- commands that wait, first in first out -/
  pending : List Instr
  deriving DecidableEq, Repr

/-- Why the machine stops with a fault. -/
inductive Fault where
  /-- never raised: the block has no stop of its own -/
  | none
  deriving DecidableEq, Repr

/-- Why a command has no meaning. -/
inductive Refusal where
  /-- raised by an arm of `exec` whose command has no meaning yet; safe -/
  | notModelled (mnemonic : String)
  deriving DecidableEq, Repr

/-! ## Reset -/

/-- A register file of one value. -/
def fill {α : Type} (n : Nat) (a : α) : Vector α n := Vector.replicate n a

/-- Events after a reset: the defaults of R441, every queue, latch and counter clear (R574). -/
def EvtState.initial : EvtState :=
  { mask := 0, toUplink := true, toService := true, nmiPeriod := 1, eventSeq := 0, latches := [], service := [], hold := none,
    eventsLost := 0, lostSince := 0, intervals := [], raised := fill 16 0, masked := fill 16 0, droppedUp := 0,
    droppedSvc := 0, ownCounts := fill 4 0 }

/-- Command acceptance after a reset (R574). -/
def CmdState.initial : CmdState :=
  { inFlight := [], timed := [], deferred := [], nextTick := [], packets := [], writeFree := 2, svdo := [], answered := fill 30 0,
    peakTimed := 0, peakDeferred := 0 }

/-- No wake key (R313). -/
def noWakeKey : Nat := 2 ^ 48 - 1

/-- A lane-control message of a port out of use: every field at its default (R313). -/
def LcMsg.initial : LcMsg :=
  { ackEpisode := 0, tx := 0, rx := 0, wakeSeen := false, wakeReq := false, stage := 0, cap := 0, fec := false
    fec3Wish := false, episode := 0, wakeKey := noWakeKey, address := 0, role := 0, commit := false }

/-- A port whose lanes are powered down (R303). -/
def LanePort.initial : LanePort :=
  { step := .out, tx := .off, rx := .off, stage := 0, lowered := none, fec := false, commit := none, knLocked := false, knSince := 0
    delineated := false, msgRun := 0, kClock := 0, kNibbles := [], kRuns := fill 32 0, kOffset := 0, sent := LcMsg.initial, sentAt := none
    received := LcMsg.initial, heard := LcMsg.initial, relock := false, relockAt := 0, pattern := 0, since := 0, alignAt := none, waiting := none
    reentry := false, reentryAt := 0, reentryDue := none, upDue := false, mismatch := false, test := none
    txSleep := ⟨0, noWakeKey, none, false, false, 0, none, 0, false, none⟩, rxSleep := ⟨0, false, false, false, false⟩ }

/-- The default transmit settings (R332). -/
def TxSettings.initial : TxSettings := ⟨32, 5, 10⟩

/-- A lane with its counters at 0. -/
def Lane.initial : Lane := ⟨⟨0, 0, 0⟩, ⟨0, 0, 0, 0, 0, 0, 0, 0⟩, false, PrbsChecker.initial, 0, TxSettings.initial, none⟩

/-- The acknowledgement item of a receiver that has received nothing (R346). -/
def AckItem.initial : AckItem := ⟨0, false, 0, false⟩

/-- The transmit direction of a port that is out of the chairlift. -/
def LinkTx.initial : LinkTx :=
  { next := 0, held := [], lastNak := 0, replay := none, stillSince := none, timeoutAt := none, stalledSince := none, stallFrom := 0, counter := 0
    wheelGen := false, oldWheel := false, swapAt := 0, returns := [], leftBehind := false
    blockedSince := none, joined := [], parcel := [], chair := 0, fecBits := fill 4 [], line := fill 4 [], block := [] }

/-- The receive direction of a port that is out of the chairlift. -/
def LinkRx.initial : LinkRx :=
  { expected := 0, ack := AckItem.initial, ackChanged := none, counter := 0, wheelGen := false, oldWheel := false
    lanes := fill 4 0, crossing := [] }

/-- The link layer of a port after a reset. -/
def LinkPort.initial : LinkPort := ⟨LinkTx.initial, LinkRx.initial, ⟨0, 0, 0, 0, 0, 0⟩⟩


/-- A Store port that is not in use. -/
def Drive.initial : Drive :=
  { phase := .unused, since := 0, polled := none, queues := 0, depth := 0, lost := false, generation := 0, width := 0
    identity := ⟨0, 0, false, 0⟩, todo := [], bytes := 0, cmds := [], nextId := 0, resets := [] }

/-- A reader of the log that does nothing. -/
def LogReader.idle : LogReader := ⟨false, 0, 0, none, none, false, [], (0, 0), [], [], 0, 0⟩

/-- The device after a reset, in Boot (R567, R574). -/
def SysState.initial (previous : DevState) (cause : Nat) : SysState :=
  { state := .boot, previous := previous, cause := cause, since := TimeWord.zero, ticks := 0, sinceStart := 0
    resetCause := cause, resetRail := none, offs42 := [], railRestartDue := false, resetDue := none
    imagesStarted := false, bootMapDone := false, goPending := none }

/-- No map, no shadow map and no queued swap (R574). -/
def MapState.initial : MapState :=
  { active := none, activeAt := 0, markerSeq := 1, shadow := none, old := none, oldAt := 0, swap := none, margins := fill 11 ⟨none, false, 0⟩, marginAt := 0, reloads := [] }

/-- A pixel before a map is active. DESIGN CHOICE (log entry 12): the threshold codes of every gain step are 0, for R76 gives the
pairs no default. -/
def PixelFe.initial : PixelFe :=
  { gain := 0, waiting := none, history := [], trim := 0, thresholds := fill 8 ⟨0, 0⟩, hystTiming := 2, hystTrigger := 2
    openSpans := [], clampSpans := [], clampCount := 0, rangeSpans := [], gatedSpans := [], calSpans := [], openSegs := [] }

/-- A tile before a map is active: its output at 0 V (R83). -/
def TileFe.initial : TileFe :=
  { target := 0, output := 0, ramping := false, rampAt := 0, rampRate := 10, discharging := false, drop := 0, dropAt := 0
    gateStep := 0, gateSlew := 50, sourceOff := false, commandOff := false, pulseEnds := none, flagEnds := none, gatedSpans := [], rampSpans := [], calSpans := [], check := .none, checkWaiting := false, checkFrom := 0
    calibrating := false, generatorOff := false, heldOff := false }

/-- The front end before a map is active. -/
def FeState.initial : FeState :=
  { pixels := fill 1024 PixelFe.initial, tiles := fill 64 TileFe.initial, scheduleNext := 0, checkedOnce := false }

/-- The dwell settings of a converter table's defaults (R111). -/
def DwellSettings.initial : DwellSettings := ⟨true, 20, 2, 16, 4096⟩

/-- A slice with its factory corrections, which no estimate has moved yet (R105). -/
def Slice.initial (role : SliceRole) (off gc dly : Int) : Slice :=
  { role := role, off := off, gc := gc, dly := dly, since := 0, offEst := off * 65536, gcEst := gc * 65536
    dlyEst := dly * 65536 }

/-- A converter at Boot: slice j at position j, slice 8 spare, factory corrections (R104, R105). -/
def WfcPixel.initial (p : Nat) : WfcPixel :=
  { slices := Vector.ofFn fun j => Slice.initial (if j.val < 8 then .position j.val else .spare)
      (Config.sliceOffset p j.val) (Config.sliceGain p j.val) (Config.sliceDelay p j.val)
    lowAsked := false, lowPower := false, shadowed := 0, settings := DwellSettings.initial
    nextSettings := DwellSettings.initial, gainChanged := false, dwellFrom := 0, past := [], calDue := false, starved := 0, testFails := fill 9 0 }

/-- MON at Boot: normal mode, at the first entry of the built-in sequence (R120). -/
def MonState.initial : MonState :=
  { lowPower := false, table := none, tableDue := false, entry := 0, selectAt := 0, phase := .settling, convTick := 0
    convTime := TimeWord.zero, conv := 0, firstTick := 0, firstTime := TimeWord.zero, sum := 0, valid := 0, isOver := false
    excited := false, pass := 0, record := none, latest := fill 256 none, inputOpen := fill 128 false, overRange := 0
    refFaults := 0 }

/-- A source that is absent. -/
def Source.initial : Source := ⟨false, false, 0, 0, false⟩

/-- A pair of sources that has not been compared. -/
def Pair.initial : Pair := ⟨0, 0, false, 0⟩

/-- The time base at Boot: INT chosen and not yet present, the loop not locked, the time word UNSET at 0 (R127, R145,
R571, R574). -/
def TimeState.initial (correction : Int) : TimeState :=
  { requestAt := none, locked := false, seconds := 0, tick := 0, inUse := 2, refA := Source.initial, refB := Source.initial
    int := Source.initial, pps := false, pairAB := Pair.initial, pairAI := Pair.initial, pairBI := Pair.initial
    discard := true, limits := ⟨200, 2000, 1, 2⟩, limitsDue := false, alone := false, calmRun := 0, slewFrom := none, slewEnds := 0, slewUp := false, steerLeft := 0, steered := 0
    readySince := none, correction := correction, savedAt := 0, alignment := .free, aligned := false, ppsLast := none
    learnCredit := 0, secondsSet := false, phaseError := 0, pendingSeconds := none, pendingAlign := []
    spread := ⟨0, 8, 20, 40⟩, pendingSpread := none }

/-- An interpolator at Boot: the factory pair (R169). -/
def TdcPixel.initial (p : Nat) : TdcPixel :=
  let f : CalPair := ⟨(Config.factoryC1 p).toNat, (Config.factoryC2 p).toNat, true, true⟩
  { measured := none, applied := f, previous := f, lastAccepted := none, accepted := 0, rejected := 0, run := 0
    failed := false, tOffset := 0, slot := false, pulse := none, lastStop := 0, lostRise := false, hitOverflow := false
    tagOverflow := none, leftHistory := [] }

/-- Slalom at Boot: both key memories empty, nothing armed (R574). -/
def SlalomState.initial : SlalomState :=
  { lit := fill 1024 [], xt := fill 4 [], partnerFires := [], hurt := false, asked := [], followed := []
    courses := fill 16 ⟨0, 0, 0, false, false⟩, counters := fill 16 ⟨0, 0, 0, 0, 0, 0, 0⟩, accepted := []
    sent := [], fires := [], pendingArms := [], armSeq := 0, knownArms := [], knownBusy := [], busySet := [], busySince := 0
    busySeq := 0, busySent := none, foEnds := none }

/-- A Schuss lane that has not started (R363). -/
def SchussLane.initial : SchussLane :=
  { fires := [], others := [], answered := none, delineated := false, run := 0, descrambler := 0, fresh := 0, window := 0
    clock := 0, runs := fill 64 0, offset := 0, scrambler := 0, up := false, farDelineated := false, farId := 0, idleCounter := 0, slotAt := none, line := none, sentCount := 0, receivedCount := 0, discardedCount := 0, slalomSent := 0
    slalomRelayed := 0, slalomDropped := 0, fireFull := 0, otherFull := 0, exchange := none, nextId := 0, tRt := 0, tauP := 0, phase := 0 }

/-- Acquisition at Boot: segment memory empty, counters 0, the defaults of R242 (R574). -/
def AcqState.initial : AcqState :=
  { ring := [], conv := none, convStop := false, orders := [], segments := [], stubs := [], nextSeq := 1
    hitFifo := fill 64 [], tagFifo := fill 64 [], history := fill 64 [], framing := false, edgeAt := none, frames := fill 64 [], earlyTags := [], busySince := none
    counters := ⟨0, 0, 0, 0, 0, fill 5 0, 0, 0, 0, 0, 0, 0, 0, 0⟩, deadTotal := 0, liveSpans := [], tagEnable := false
    avg := fill 1024 0, oldAvg := fill 1024 0, tag := fill 1024 true, tagBucket := fill 64 (4096 * 16384, 0), descLow := 256, descHigh := 512
    memLow := 1024, memHigh := 2048 }

/-- CMP at Boot. -/
def CmpState.initial : CmpState :=
  { seq := 0, job := none, flushes := [], flushSegs := [], tables := [], oldTable := 0
    counters := ⟨0, 0, 0, 0, 0, 0, 0, 0, 0, 0, 0, 0⟩ }

/-- The merge engine at Boot: merge memory empty, counters 0 (R574). -/
def MrgState.initial : MrgState :=
  { up := fill 4 ⟨[], none, none⟩, down := fill 8 ⟨[], none, none⟩, pass := fill 4 [], waiting := [], localUsed := 0, taken := []
    nextRid := 0, streams := [], copies := [], events := [], grants := [], holds := [], closeTime := 51200, lateMode := 0, oldClose := (51200, 0), oldPool := 0
    counters := ⟨0, 0, 0, 0, 0, fill 4 0, 0, 0, 0, 0, 0, fill 8 0⟩ }

/-- The access rotations at Boot: at their first turns, and at the first writer of client 6 (R44). -/
def Turns.initial : Turns := ⟨fill 96 0, 2⟩

/-- Arbitration at Boot: every member down (R485). -/
def PairState.initial : PairState := ⟨fill 8 ⟨.down, none⟩, fill 8 none, [], 0, 0⟩

/-- STORE at Boot: no drive in use and the log not open (R574). -/
def StoreState.initial : StoreState :=
  { drives := fill 2 Drive.initial, mode := 0, vcMask := 0, fullPolicy := 0, opened := false, openStep := .idle, heads := []
    scanned := 0, logId := 0, extentCount := 0, head := 0, next := 0, fwdSeq := 0, fwdOffset := 0, gen := 0, copy := 0
    cur := none, sealed_ := [], feed := [], copied := [], turn := 0, paused := none, cp := .idle, cpAt := 0, cpWaiting := []
    cpDue := false, format := none, forward := LogReader.idle, replay := LogReader.idle, replayFirst := 0, fwdOut := []
    finds := [], counters := ⟨0, 0, 0, 0, 0, 0, 0, 0, 0, 0, 0⟩ }

/-- Integrity at Boot: every byte written as 0x00 with its check bits, log, remap table and histories empty (R571). -/
def IntegState.initial : IntegState :=
  { log := fill 32 none, remap := fill 16 ⟨0, 0, 0⟩, remapDue := [], listDue := [], histories := []
    memCounts := fill 5 ⟨0, 0, 0⟩, parity := fill 4 0, handOver := fill 7 0, poisonedCrc := 0, poisonedFlag := 0
    walks := #v[⟨0, false, 1639, 0, none, 0, 0, 0⟩, ⟨0, false, 64, 0, none, 0, 0, 0⟩], crossingInjects := [], portInjects := []
    injected := [], mem := [] }

/-- Power at Boot: Blue requested and in force, VCORE at 0.68 V, every rail good (R501, R571). -/
def PwrState.initial : PwrState :=
  { level := 1, requested := 1, fireTokens := 16, nextToken := 0, causes := fill 5 ⟨false, 3, none⟩
    ploughSince := none, limit := 1100, limitDue := none, loweredAt := none, windows := [], windowAt := 0, inputPower := none, seq := none
    rampFrom := 680, rampTo := 680, rampAt := 0, setters := [], warning := none, rails := fill 7 ⟨true, none⟩
    lidHot := none, lidHeld := false }

/-- The triad: three voting members (R463). -/
def TriadState.initial : TriadState :=
  { members := fill 3 ⟨.voting, 0, none, [], none, none, []⟩, herringbone := none, queue := []
    arbitrating := false, output := none, lastVote := 0, restartedAt := none
    stopped := false }

/-- Calibration at Boot: factory trims and charges, no run yet (R513, R521). -/
def CalState.initial : CalState :=
  { tiles := fill 64 ⟨none, 0, 2, 0, false, none⟩
    pixels := Vector.ofFn fun p => ⟨Config.factoryTrim p.val, none,
      Vector.ofFn fun g => (Config.factoryCharge p.val g.val).toNat⟩ }

/-- Self-test at Boot, with the fuse bank as it stands (R574). -/
def BistState.initial (fuses : Vector Nat 256) : BistState := ⟨fill 4 0, fill 4 none, none, none, 0, 0, 0, [], fuses⟩

/-- A monitor unit whose contents are cleared (R537). -/
def HmonUnit.initial : HmonUnit := ⟨0, 0, 0, fill 64 0⟩

/-- No flash operation under way, no slot verified (R554). -/
def FlashState.initial : FlashState := ⟨[], [], [], .idle, fill 4 false, 0, false, none⟩

/-- The volatile state that every reset leaves (R574): what it keeps is the fuse bank, the cause, the correction
saved in flash, and the model's own count of free values. -/
def Dev.initial (previous : DevState) (cause : Nat) (correction : Int) (fuses : Vector Nat 256) (free : Nat) : Dev :=
  { sys := SysState.initial previous cause, cmd := CmdState.initial, evt := EvtState.initial, map := MapState.initial
    fe := FeState.initial, wfc := Vector.ofFn fun p => WfcPixel.initial p.val, mon := MonState.initial
    time := TimeState.initial correction, tdc := Vector.ofFn fun p => TdcPixel.initial p.val
    slalom := SlalomState.initial, schuss := fill 4 SchussLane.initial, acq := AcqState.initial, cmp := CmpState.initial
    mrg := MrgState.initial, turns := Turns.initial, link := fill 8 LinkPort.initial, lift := fill 8 LanePort.initial, lanes := fill 32 Lane.initial
    pair := PairState.initial, store := StoreState.initial, integ := IntegState.initial, pwr := PwrState.initial
    triad := TriadState.initial, cal := CalState.initial, bist := BistState.initial fuses
    hmon := fill 32 HmonUnit.initial, fw := FlashState.initial, free := free }

/-- The boot-selector record a module is shipped with: slots A, confirmed, no boot map (R550). -/
def shippedRecord : BootRecord :=
  { gen := 1, ctrlSlot := 0, laneSlot := 0, prevCtrl := 0, prevLane := 0, trial := false, trialBoots := 0, bootMap := 255
    ctrlVersion := (Config.shippedVersion 0).toNat, laneVersion := (Config.shippedVersion 1).toNat
    written := TimeWord.zero }

/-- The flash of a module as shipped: its boot-selector record, the factory calibration, and the images of slots A. -/
def shippedFlash : List Host.Cell :=
  flashWrite (flashWrite (flashWrite (flashWrite [] 0 shippedRecord.bytes) 0x20000 (Config.factoryRegion.take 0x200000))
    0x220000 ((Config.shippedImage 0).take 0x800000)) 0x1220000 ((Config.shippedImage 1).take 0x100000)

/-- Event 1800 of the transition from Off to Boot with the first `event_seq`: old state, new state and cause (R436, R577). -/
def bootEvent : Rec :=
  { typ := 0x30, version := 1, origin := 0, flags := 0, eventKey := 0, time := TimeWord.zero, aux := 0
    body := leBytes 2 1800 ++ zeros 2 ++ leBytes 4 1 ++ zeros 2 ++ leBytes 2 24 ++ zeros 4
      ++ leBytes 8 0 ++ leBytes 8 2 ++ leBytes 8 1 }

/-- Events right after the transition to Boot: its event 1800 waits in the service queue (R434, R439, R577). -/
def EvtState.afterPowerOn : EvtState :=
  { EvtState.initial with eventSeq := 1, raised := (fill 16 0).set 12 1, service := [⟨.event, bootEvent⟩] }

/-- The block right after power-on reset, in Boot (R571 to R574), its commands' queue empty. -/
def State.reset : State :=
  { dev := { Dev.initial .off 0x0001 Config.factoryCorrection (fill 256 0) 0 with evt := EvtState.afterPowerOn }
    flash := shippedFlash, pending := [] }

end Sys2Proof.Machine
end

