-- ==== Sys2Proof/Machine/MapTables.lean ====
section
/-! DEFINITION. Reading the tables of a piste map: every choice the data path makes is a lookup (R24). -/

namespace Sys2Proof.Machine

/-- The bytes of a section of a map. -/
def PisteMap.sect? (m : PisteMap) (typ inst : Nat) : Option (List Byte) :=
  (m.sects.find? fun s => s.typ == typ && s.inst == inst).map (·.bytes)

/-- `n` bytes at an offset of a section, or a default where there is no map or no such section. -/
def mapNum (m : Option PisteMap) (typ inst off n dflt : Nat) : Nat :=
  match m.bind (·.sect? typ inst) with
  | some bs => fieldAt bs off n
  | none => dflt

/-- A bit field of a section: `hi` down to `lo` of the `n` bytes at an offset. -/
def mapBits (m : Option PisteMap) (typ inst off n hi lo dflt : Nat) : Nat :=
  match m.bind (·.sect? typ inst) with
  | some bs => bits (fieldAt bs off n) hi lo
  | none => dflt

/-- `entry_count` of a section (R36); 0 where it is absent. -/
def mapCount (m : Option PisteMap) (typ inst : Nat) : Nat := mapNum m typ inst 8 4 0

/-- Port roles of R39: 0 Idle, 1 Down, 2 Up-A, 3 Up-B, 4 Store; Idle while no map is active. -/
def portRole (m : Option PisteMap) (p : Nat) : Nat := mapNum m 0x0001 0 (16 + 4 * p + 1) 1 0

/-- The port that has a role, if one has. -/
def portOfRole (m : Option PisteMap) (r : Nat) : Option Nat := (List.range 8).find? fun p => portRole m p == r

/-- The map gives some port the role Store. -/
def hasStore (m : Option PisteMap) : Bool := portRole m 6 == 4 || portRole m 7 == 4

/-- The map has an Up-A port. -/
def hasUp (m : Option PisteMap) : Bool := (portOfRole m 2).isSome

/-- `self_address` of the event-building table (R293); 0x000 before a map is active. -/
def selfAddress (m : Option PisteMap) : Nat := mapBits m 0x004B 0 16 2 11 0 0

/-- `coalesce` of the arm and fire table (R208). -/
def coalesce (m : Option PisteMap) : Nat := mapNum m 0x0032 0 (16 + 2) 2 64

/-- `up_items[v]` of the event-building table (R293). -/
def upItems (m : Option PisteMap) (v : Nat) : Nat := mapNum m 0x004B 0 (26 + 2 * v) 2 4096

/-- `down_items` of the event-building table (R293). -/
def downItems (m : Option PisteMap) : Nat := mapNum m 0x004B 0 34 2 256

/-- `pass_buffers` of the event-building table (R293). -/
def passBuffers (m : Option PisteMap) : Nat := mapNum m 0x004B 0 36 2 0

/-- Depth of a crossing buffer (R43): the entry of the crossing and its number, or a default. -/
def crossingDepth (m : Option PisteMap) (crossing inst dflt : Nat) : Nat :=
  match m.bind (·.sect? 0x0003 0) with
  | none => dflt
  | some bs =>
    match (List.range (fieldAt bs 8 4)).find? fun e =>
        fieldAt bs (16 + 8 * e) 1 == crossing && fieldAt bs (16 + 8 * e + 1) 1 == inst with
    | some e => fieldAt bs (16 + 8 * e + 4) 4
    | none => dflt

/-- The routing entry of an address (R267): its port and its mode bit. -/
def route (m : Option PisteMap) (address : Nat) : Option (Nat × Bool) :=
  match m.bind (·.sect? 0x004A 0) with
  | none => none
  | some bs =>
    match (List.range (fieldAt bs 8 4)).find? fun e => bits (fieldAt bs (16 + 4 * e) 2) 11 0 == address with
    | some e => some (bits (fieldAt bs (16 + 4 * e + 2) 1) 2 0, bit (fieldAt bs (16 + 4 * e + 2) 1) 3)
    | none => none

/-- Some routing entry names the port (R480). -/
def routesTo (m : Option PisteMap) (p : Nat) : Bool :=
  match m.bind (·.sect? 0x004A 0) with
  | none => false
  | some bs => (List.range (fieldAt bs 8 4)).any fun e => bits (fieldAt bs (16 + 4 * e + 2) 1) 2 0 == p

/-- The first port of a twin (R480): P(2k) for a Down port P(2k+1) that no routing entry names. -/
def firstPort (m : Option PisteMap) (p : Nat) : Nat :=
  if p % 2 == 1 && portRole m p == 1 && portRole m (p - 1) == 1 && !routesTo m p then p - 1 else p

/-- The twin of a first port, if it has one. -/
def twinPort (m : Option PisteMap) (p : Nat) : Option Nat :=
  if p % 2 == 0 && firstPort m (p + 1) == p && p + 1 < 8 then some (p + 1) else none

/-- An address is routed to a port, a twin counting as its first port (R480). -/
def routedTo (m : Option PisteMap) (address p : Nat) : Bool :=
  match route m address with
  | some (q, _) => q == firstPort m p
  | none => false

/-- The fire cap ceiling of a level in Hz (R501). -/
def fireCeiling : Nat → Nat
  | 0 => 100000 | 1 => 1000000 | 2 => 5000000 | _ => 0

end Sys2Proof.Machine
end

