-- ==== Sys2Proof/Machine/Ops.lean ====
section
/-! DEFINITION. Operations every family uses: time, records, output queues, events, replies and the running
of host commands. -/

namespace Sys2Proof.Machine

/-! ### Time -/

/-- The present time word, fine bin 0 (R9, R144). -/
def Dev.now (d : Dev) : TimeWord := ⟨d.time.seconds, d.time.tick, 0⟩

/-- The present global tick count (R233). -/
def Dev.globalNow (d : Dev) : Nat := d.now.globalTick

/-- The event key of a time word under a coalescing window (R11). -/
def eventKey (w : Nat) (t : TimeWord) : Nat := t.seconds % 65536 * 2 ^ 32 + t.tick / w * w

/-- Microseconds as ticks (R8). -/
def usTicks (us : Nat) : Nat := us * 2560

/-- A time word packed for an item of a record or a message: its 12 bytes and 4 zero bytes. -/
def timeWord16 (t : TimeWord) : List Byte := twBytes t ++ zeros 4

/-! ### The drain wait (R502) -/

/-- Crossing buffers that hold more than half their depth, by the crossing numbers of R43: a tile's or a
port's buffer counts for its crossing. -/
def Dev.fullCrossings (d : Dev) : List Nat :=
  let half := fun (c inst dflt n : Nat) => crossingDepth d.map.active c inst dflt < 2 * n
  (if half 0 0 4096 d.acq.orders.length then [0] else [])
    ++ (if d.acq.hitFifo.toList.any fun l => half 1 0 4096 l.length then [1] else [])
    ++ (if (List.range 8).any fun p => half 2 p 8192 (getD d.link p LinkPort.initial).rx.crossing.length then [2] else [])
    ++ (if d.acq.tagFifo.toList.any fun l => half 3 0 4096 l.length then [3] else [])

/-- The limits of the drain wait hold: descriptors in use at most `drain_desc` of the level that the sequence goes to, and
every crossing buffer at most half full (R502, R503, R505). -/
def Dev.drained (d : Dev) : Bool :=
  d.acq.segments.length ≤ mapNum d.map.active 0x0005 0 (42 + 16 * (d.pwr.seq.elim d.pwr.level (·.goal))) 2 1024 && d.fullCrossings.isEmpty

/-- The limits are tested at each change of the counts: an excursion, however brief, starts the 10 µs again (R502). -/
def Dev.drainTest (d : Dev) : Dev :=
  match d.pwr.seq with
  | none => d
  | some q =>
    if q.up || q.step != 2 then d
    else
      let since := if d.drained then some (q.drainSince.getD d.sys.ticks) else none
      { d with pwr := { d.pwr with seq := some { q with drainSince := since } } }

/-! ### Status codes -/

/-- The code of a status (R423). -/
def Status.code : Status → Nat
  | .ok => 0x0000 | .accepted => 0x0001 | .busy => 0x0010 | .timePast => 0x0011 | .notReady => 0x0012
  | .notErased => 0x0013 | .badImage => 0x0014 | .incompatible => 0x0015 | .outOfRange => 0x0016
  | .badCrc => 0x0017 | .wrongState => 0x0018 | .unknownOpcode => 0x0019 | .locked => 0x001A
  | .lateExecuted => 0x001B | .refusedBoundary => 0x001C | .verifyFailed => 0x001D

/-- A status that is no failure: the command was executed, or its action waits for a boundary. -/
def Status.success : Status → Bool
  | .ok | .accepted | .lateExecuted | .refusedBoundary => true
  | _ => false

/-- The code of a device state (R453). -/
def DevState.code : DevState → Nat
  | .off => 0 | .lodge => 1 | .boot => 2 | .standby => 3 | .ready => 4 | .running => 5 | .quiesce => 6
  | .faultHold => 7

/-! ### Records -/

/-- The bytes of a record without its trailer (R226). -/
def Rec.head (r : Rec) : List Byte :=
  leBytes 1 r.typ ++ leBytes 1 r.version ++ leBytes 4 (36 + r.body.length)
    ++ leBytes 4 (r.origin % 4096 + 4096 * r.flags) ++ leBytes 6 r.eventKey ++ twBytes r.time
    ++ leBytes 4 r.aux ++ r.body

/-- A record is poisoned: its `poisoned` flag (R227). -/
def Rec.poisoned (r : Rec) : Bool := bit r.flags 0

/-- The bytes of a record (R226); a poisoned record ends in the complement of its CRC (R27, R390). -/
def Rec.bytes (r : Rec) : List Byte :=
  let hd := r.head
  hd ++ leBytes 4 (if r.poisoned then crc32c hd ^^^ 0xFFFFFFFF else crc32c hd)

/-- The record that bytes spell, header as read (R226). -/
def Rec.ofBytes (bs : List Byte) : Rec :=
  { typ := fieldAt bs 0 1, version := fieldAt bs 1 1, origin := fieldAt bs 6 4 % 4096
    flags := fieldAt bs 6 4 / 4096, eventKey := fieldAt bs 10 6, time := timeWordAt bs 16, aux := fieldAt bs 28 4
    body := (bs.drop 32).take (bs.length - 36) }

/-- A record with its poisoned flag set (R27). -/
def Rec.poison (r : Rec) : Rec := { r with flags := r.flags ||| 1 }

/-- Chain buffers a record of so many bytes takes: 4,088 data bytes to a buffer of 4 KiB (R258). -/
def chainBuffers (len : Nat) : Nat := ceilDiv len 4088

/-! ### The swap marker (R25, R202) -/

/-- The edge E at which the active map came into force, as a global tick count. -/
def Dev.edgeGlobal (d : Dev) : Int := (d.globalNow : Int) - d.sys.ticks + d.map.activeAt

/-- An item of a global tick lies ahead of the swap marker that is under way (R25, R202). -/
def Dev.aheadOfEdge (d : Dev) (t : Int) : Bool := d.map.old.isSome && decide (t < d.edgeGlobal)

/-- The freeze order of an item of CMP. -/
def CmpItem.order : CmpItem → FreezeOrder
  | .segment s => s.order
  | .stub s => s.order

/-- The freeze orders whose records are still to be written: in crossing 0, in segment memory, in the stub queue and in CMP. -/
def Dev.ordersLeft (d : Dev) : List FreezeOrder :=
  d.acq.orders ++ d.acq.segments.map (·.order) ++ d.acq.stubs.map (·.order) ++ (d.cmp.job.map (·.item.order)).toList

/-- The swap marker under way has not left CMP: a candidate accepted before it still has its record to come (R25). -/
def Dev.markerInCmp (d : Dev) : Bool := d.map.old.isSome && d.ordersLeft.any fun o => decide (o.seq < d.map.markerSeq)

/-- The swap marker under way has not left the tag framer: a frame that began before it is open (R25). -/
def Dev.markerInFramer (d : Dev) : Bool := d.acq.frames.toList.any fun l => l.any fun f => d.aheadOfEdge f.start

/-- The map that serves MRG and the access rotations: the old one while the swap marker is still ahead of them, in CMP (R25,
R301, log entry 111). -/
def Dev.mrgMap (d : Dev) : Option PisteMap := if d.markerInCmp then d.map.old else d.map.active

/-- The map that serves an item which was, or was not, formed ahead of the swap marker under way (R25). -/
def Dev.itemMap (d : Dev) (old : Bool) : Option PisteMap := if old && d.map.old.isSome then d.map.old else d.map.active

/-! ### Access rotations (R22, R44) -/

/-- The rotation of a memory class, 0 segment memory or 1 merge memory: the client of each turn; no turns while no map is
active. -/
def turnsOf (m : Option PisteMap) (cls : Nat) : List Nat :=
  match (List.range (mapCount m 0x0004 0)).find? fun e => mapNum m 0x0004 0 (16 + 20 * e) 1 2 == cls with
  | none => []
  | some e => (List.range (mapNum m 0x0004 0 (17 + 20 * e) 1 0)).map fun i => mapNum m 0x0004 0 (20 + 20 * e + i) 1 0

/-- The client that is served next from a turn on, and the turn after its own: a client with nothing to do passes its turn,
and none takes the turn of another (R22). -/
def nextTurn (turns : List Nat) (pos : Nat) (wants : Nat → Bool) : Option (Nat × Nat) :=
  (List.range turns.length).findSome? fun i =>
    match turns[(pos + i) % turns.length]? with
    | some c => if wants c then some (c, (pos + i + 1) % turns.length) else none
    | none => none

/-- The macro of a class that holds an address: 1 MiB each, 64 of segment memory and 32 of merge memory (R529). -/
def macroAt (address : Nat) : Nat := address / 2 ^ 20

/-- The place of a macro among those of both classes. -/
def macroIndex (cls mac : Nat) : Nat := 64 * cls + mac

/-- Who is served next in a macro, of the clients with something to do there, and the turn after its own (R22, R44). -/
def Dev.nextClient (d : Dev) (cls mac : Nat) (wants : Nat → Bool) : Option (Nat × Nat) :=
  nextTurn (turnsOf d.mrgMap cls) (getD d.turns.next (macroIndex cls mac) 0) wants

/-- A client uses its next turn in a macro. -/
def Dev.takeTurn (d : Dev) (cls client mac : Nat) : Dev :=
  match d.nextClient cls mac (· == client) with
  | some (_, n) => { d with turns := { d.turns with next := modAt d.turns.next (macroIndex cls mac) fun _ => n } }
  | none => d

/-- A client uses a turn of every macro that it accesses. -/
def Dev.takeTurns (d : Dev) (cls client : Nat) (macros : List Nat) : Dev :=
  macros.eraseDups.foldl (fun d m => d.takeTurn cls client m) d

/-- The writers that share client 6 of merge memory, in their fixed order (R44). -/
inductive Writer where
  | framer | ctrl | mon
  deriving DecidableEq, Repr

/-- The place of a writer in the order of R44. -/
def Writer.number : Writer → Nat
  | .framer => 0 | .ctrl => 1 | .mon => 2

/-- Who writes a record of the local pool (R44, R297): the tag framer, MON, CTRL, or MRG, which writes gap markers in the turns
of client 2. -/
def writerOf (typ : Nat) : Option Writer :=
  if typ = 0x11 then some .framer else if typ = 0x20 then some .mon else if typ = 0x40 then none else some .ctrl

/-- The writer that uses a turn of client 6: the first in the fixed order, after the one that used the previous turn, with
bytes to write (R44). -/
def nextWriter (last : Nat) (wants : Writer → Bool) : Option Writer :=
  let order : List Writer := [.framer, .ctrl, .mon]
  ((order.drop (last + 1)) ++ order.take (last + 1)).find? wants

/-- The writer that uses a turn of client 6 is kept for the next one. -/
def Dev.noteWriter (d : Dev) (typ : Nat) : Dev :=
  match writerOf typ with
  | some w => { d with turns := { d.turns with writer := w.number } }
  | none => d

/-- The client of merge memory in whose turns a record of the local pool is written (R44). -/
def clientOf (typ : Nat) : Nat := if (writerOf typ).isSome then 6 else 2

/-! ### Chain buffers (R258) -/

/-- The number of a byte of a memory class among all memories. -/
def memKey (cls address : Nat) : Nat := cls * 2 ^ 27 + address

/-- A cell holds a byte of a range of a class, or the byte of a spare that stands for one (R402). -/
def CodeCell.within (c : CodeCell) (remap : List RemapEntry) (cls first n : Nat) : Bool :=
  let here := fun (x a : Nat) => x == cls && first ≤ a && a < first + n
  let a := c.at_ % 2 ^ 27
  here (c.at_ / 2 ^ 27) a
    || (c.at_ / 2 ^ 27 == 4 && (match remap[a / 64]? with
      | some e => e.state == 1 && here e.cls (64 * e.line + a % 64)
      | none => false))

/-- Bytes of a range of a class are written anew: their code words are whole again (R392). -/
def Dev.freshBytes (d : Dev) (cls first n : Nat) : Dev :=
  let remap := d.integ.remap.toList
  { d with integ := { d.integ with
    mem := d.integ.mem.filter fun c => !c.within remap cls first n
    injected := d.integ.injected.filter fun k => !(CodeCell.mk k 0).within remap cls first n } }

/-- The first free chain buffer from a number on, in rising order. -/
def freeBuffer (taken : List Nat) (start : Nat) : Nat :=
  match (List.range 8192).find? fun i => !taken.contains ((start + i) % 8192) with
  | some i => (start + i) % 8192
  | none => start % 8192

/-- The chain buffer that is taken next. -/
def Dev.nextBuf (d : Dev) : Nat := freeBuffer d.mrg.taken (Config.nextBuffer d.free).toNat

/-- A client takes chain buffers, one after another, as a record grows, each in its turn of the buffer's macro (R22, R258,
R259). -/
def Dev.takeBuffers (d : Dev) (client : Nat) : Nat → Dev × List Nat
  | 0 => (d, [])
  | n + 1 =>
    let b := d.nextBuf
    let d := d.takeTurn 1 client (macroAt (4096 * b))
    let d := { d with free := d.free + 1, mrg := { d.mrg with taken := b :: d.mrg.taken } }
    let (d, l) := (d.freshBytes 1 (4096 * b) 4096).takeBuffers client n
    (d, b :: l)

/-- Buffers of a chain are free again. -/
def Dev.dropBuffers (d : Dev) (l : List Nat) : Dev :=
  { d with mrg := { d.mrg with taken := d.mrg.taken.filter fun b => !l.contains b } }

/-- Where byte i of a record stands in merge memory (R258). -/
def chainAddress (chain : List Nat) (i : Nat) : Nat := 4096 * (chain[i / 4088]?.getD 0) + i % 4088

/-- The macros of merge memory that a chain stands in. -/
def chainMacros (chain : List Nat) : List Nat := chain.map fun b => macroAt (4096 * b)

/-- The 8 bytes that follow the data of buffer j of a chain: `next`, `used` and the reserved bytes (R258). -/
def chainTail (chain : List Nat) (len j : Nat) : List Byte :=
  leBytes 2 (chain[j + 1]?.getD 0xFFFF) ++ leBytes 2 (min 4088 (len - 4088 * j)) ++ zeros 4

/-! ### Output queues (R294 to R297) -/

/-- Buffers a grant reserves (R281). -/
def grantReserve (passes : Nat) : Nat := ceilDiv passes 63 + 1

/-- Size of the local pool: what grants, pass queues and the four marker buffers leave of 8,192 (R297); by the old map while the
swap marker is ahead of MRG (R25). -/
def Dev.localPool (d : Dev) : Nat :=
  if d.markerInCmp then d.mrg.oldPool else
  8192 - ((d.mrg.grants.map fun g => grantReserve g.passes).sum + passBuffers d.map.active + 4)

/-- Free buffers of the local pool. -/
def Dev.localFree (d : Dev) : Nat := d.localPool - d.mrg.localUsed

/-- The oldest record that a writer of the local pool has waiting: of the tag framer, CTRL or MON, or a marker of MRG. -/
def Dev.firstWaiting (d : Dev) (w : Option Writer) : Option Waiting := d.mrg.waiting.find? fun x => writerOf x.record.typ == w

/-- The free buffers suffice for it. -/
def Dev.mayJoin (d : Dev) (w : Option Writer) : Bool := (d.firstWaiting w).any fun x => chainBuffers x.record.bytes.length ≤ d.localFree

/-- A client of merge memory that waits for a chain buffer has work (R44, R259, R297). -/
def Dev.waitsForBuffer (d : Dev) (client : Nat) : Bool :=
  match client with
  | 0 => d.cmp.job.any (·.wait.isSome)
  | 2 => (d.mrg.events.head?.any fun e => e.closed && e.recs.any fun q => q.chain.isEmpty) || d.mayJoin none
  | 6 => d.mayJoin (some .framer) || d.mayJoin (some .ctrl) || d.mayJoin (some .mon)
  | _ => false

/-- A client may take a chain buffer of the local pool: one is free, and no client that waits for it has an earlier turn in the
buffer's macro (R22, R44, R259, R297). -/
def Dev.mayTake (d : Dev) (client : Nat) : Bool :=
  1 ≤ d.localFree && (d.nextClient 1 (macroAt (4096 * d.nextBuf)) fun c => c == client || d.waitsForBuffer c).all (·.1 == client)

/-- A record of the local pool may be written: its client may take a buffer, and of the writers of client 6 it is the turn of its
own (R44). -/
def Dev.writerTurn (d : Dev) (typ : Nat) : Bool :=
  d.mayTake (clientOf typ) && (match writerOf typ with
    | none => true
    | some w => nextWriter d.turns.writer (fun v => v == w || d.mayJoin (some v)) == some w)

/-- Change the upward stream of a VC. -/
def Dev.modUp (d : Dev) (vc : Nat) (f : TxStream → TxStream) : Dev :=
  { d with mrg := { d.mrg with up := modAt d.mrg.up vc f } }

/-- The upward stream of a VC. -/
def Dev.upStream (d : Dev) (vc : Nat) : TxStream := getD d.mrg.up vc ⟨[], none, none⟩

/-- A gap marker (R283), formed in MRG. -/
def gapMarker (d : Dev) (cause : Nat) (keyed : Bool) (vc subject count first last : Nat) : Rec :=
  { typ := 0x40, version := 1, origin := selfAddress d.mrgMap, flags := 0
    eventKey := if keyed then first else 0, time := d.now, aux := 0
    body := leBytes 4 count ++ leBytes 1 (cause + 128 * b2n keyed) ++ leBytes 1 vc ++ leBytes 2 subject
      ++ leBytes 6 last ++ zeros 2 }

/-- A record as it stands in merge memory. -/
def mkQRec (rid : Nat) (bytes : List Byte) (key : Nat) (pool : Pool) (chain : List Nat) : QRec :=
  { rid := rid, bytes := bytes, key := key, chain := chain, pool := pool, carriers := []
    acked := [], taken := false, fromStore := false, ownMarker := false, damaged := false, old := false }

/-- Chain buffers that a record holds. -/
def QRec.bufs (q : QRec) : Nat := q.chain.length

/-- Count buffers against the pool they are taken from (R281, R297). -/
def Dev.countBufs (d : Dev) (pool : Pool) (f : Nat → Nat) : Dev :=
  match pool with
  | .loc => { d with mrg := { d.mrg with localUsed := f d.mrg.localUsed } }
  | .grant a p v =>
    { d with mrg := { d.mrg with grants := d.mrg.grants.map fun g =>
        if g.address == a && g.port == p && g.vc == v then { g with used := f g.used } else g } }
  | .marker _ => d

/-- The next record in merge memory, with a chain that it holds already. -/
def Dev.placeRec (d : Dev) (bytes : List Byte) (key : Nat) (pool : Pool) (chain : List Nat) : Dev × QRec :=
  ({ d with mrg := { d.mrg with nextRid := d.mrg.nextRid + 1 } }, mkQRec d.mrg.nextRid bytes key pool chain)

/-- A client writes a record into merge memory, with buffers of a pool. -/
def Dev.newRec (d : Dev) (client : Nat) (bytes : List Byte) (key : Nat) (pool : Pool) : Dev × QRec :=
  let n := chainBuffers bytes.length
  let (d, chain) := (d.countBufs pool (· + n)).takeBuffers client n
  d.placeRec bytes key pool chain

/-- Give a record's buffers back to the pool they were taken from (R296). -/
def Dev.freeBufs (d : Dev) (q : QRec) : Dev := (d.countBufs q.pool (· - q.bufs)).dropBuffers q.chain

/-- Change the grant entry of a stream on a port. -/
def Dev.modGrant (d : Dev) (a p v : Nat) (f : Grant → Grant) : Dev :=
  let change := fun (g : Grant) => if g.address == a && g.port == p && g.vc == v then f g else g
  { d with mrg := { d.mrg with grants := d.mrg.grants.map change } }

/-- The grant entry of a stream on a port. -/
def Dev.grant? (d : Dev) (a p v : Nat) : Option Grant := d.mrg.grants.find? fun g => g.address == a && g.port == p && g.vc == v

/-- Send the passes of a stream that are returnable: an item for the port's lift-pass parcels (R279, R280). -/
def Dev.sendReturn (d : Dev) (a p v : Nat) : Dev :=
  match d.grant? a p v with
  | none => d
  | some g =>
    if g.returnable = 0 then d
    else
      let add := fun (l : LinkPort) => { l with tx := { l.tx with returns := l.tx.returns ++ [⟨a, v, g.returnable, false⟩] } }
      { d.modGrant a p v fun g => { g with outstanding := g.outstanding - g.returnable, returnable := 0 } with
        link := modAt d.link p add }

/-- Make the passes of a stream's parcels returnable: once `batch` of them are, they are returned (R279). -/
def Dev.returnPasses (d : Dev) (a p v n : Nat) : Dev :=
  let d := d.modGrant a p v fun g =>
    { g with returnable := g.returnable + n, since := if g.returnable == 0 then d.sys.ticks else g.since }
  if (d.grant? a p v).any fun g => g.batch ≤ g.returnable then d.sendReturn a p v else d

/-- Parcels that carry a record of so many bytes (R285). -/
def parcelsOf (len : Nat) : Nat := ceilDiv len 54

/-- A record leaves merge memory: its buffers go back and, for a partner's record, its passes become returnable; the
passes of a downward packet (address 0) went back when it was handed on (R279, R296). -/
def Dev.releaseRec (d : Dev) (q : QRec) : Dev :=
  let d := d.freeBufs q
  match q.pool with
  | .grant a p v => if a == 0 then d else d.returnPasses a p v (parcelsOf q.bytes.length)
  | _ => d

/-- The gap marker of cause 1 that stands last in a queue and whose first parcel has not been sent, with its
count raised and its last key set (R295). -/
def bumpMarker (q : QRec) (key : Nat) : QRec :=
  let r := Rec.ofBytes q.bytes
  let body := leBytes 4 (fieldAt r.body 0 4 + 1) ++ sliceBytes r.body 4 4 ++ leBytes 6 key ++ zeros 2
  { q with bytes := { r with body := body }.bytes }

/-- Form the gap marker of cause 1 of a queue in the buffer kept for it (R295). -/
def Dev.formMarker (d : Dev) (vc count first last : Nat) : Dev :=
  let (d, q) := d.newRec 2 (gapMarker d 1 true vc 0 count first last).bytes first (.marker vc)
  d.modUp vc fun t => { t with items := t.items ++ [⟨[{ q with ownMarker := true }]⟩], drops := none }

/-- An item dropped because its queue is full: the marker of cause 1 takes it up (R295). The number given back
is the count of the marker that stands for the dropped item. -/
def Dev.dropUp (d : Dev) (vc key : Nat) : Dev × Nat :=
  let d := { d with mrg := { d.mrg with counters := { d.mrg.counters with
    itemsDropped := modAt d.mrg.counters.itemsDropped vc (· + 1) } } }
  let t := d.upStream vc
  match t.items.getLast? with
  | some ⟨[q]⟩ =>
    if q.ownMarker && q.carriers.isEmpty then
      let q' := bumpMarker q key
      (d.modUp vc fun t => { t with items := t.items.dropLast ++ [⟨[q']⟩] }, fieldAt q'.bytes 32 4)
    else if t.items.any fun i => i.recs.any (·.ownMarker) then
      let dc : DropCount := match t.drops with
        | some c => { c with count := c.count + 1, lastKey := key }
        | none => ⟨1, key, key⟩
      (d.modUp vc fun t => { t with drops := some dc }, dc.count)
    else (d.formMarker vc 1 key key, 1)
  | _ =>
    if t.items.any fun i => i.recs.any (·.ownMarker) then
      let dc : DropCount := match t.drops with
        | some c => { c with count := c.count + 1, lastKey := key }
        | none => ⟨1, key, key⟩
      (d.modUp vc fun t => { t with drops := some dc }, dc.count)
    else (d.formMarker vc 1 key key, 1)

/-- An item joins its upward queue, or is dropped where the queue is at its limit (R295). The records given
back hold buffers already. The second part is the count of the marker when it was dropped. -/
def Dev.joinItem (d : Dev) (vc : Nat) (recs : List QRec) : Dev × Option Nat :=
  let t := d.upStream vc
  let own := (t.items.filter fun i => i.recs.any (·.ownMarker)).length
  if t.items.length - own < upItems (d.itemMap (recs.any (·.old))) vc then
    (d.modUp vc fun t => { t with items := t.items ++ [⟨recs⟩] }, none)
  else
    let d := recs.foldl (fun d q => d.releaseRec q) d
    let (d, n) := d.dropUp vc ((recs.head?.map (·.key)).getD 0)
    (d, some n)

/-- A record of the local pool is written in a turn of its writer and joins its upward queue. -/
def Dev.writeLocal (d : Dev) (vc : Nat) (r : Rec) (old : Bool) : Dev × Option Nat :=
  let (d, q) := (d.noteWriter r.typ).newRec (clientOf r.typ) r.bytes r.eventKey .loc
  d.joinItem vc [{ q with old := old }]

/-- A record of CTRL, MON, the tag framer or MRG joins its upward queue as soon as the local pool has buffers for it and its turn
has come; until then it waits, behind the earlier ones of its writer (R22, R295, R297). -/
def Dev.joinFormed (d : Dev) (vc : Nat) (r : Rec) (old : Bool) : Dev × Option Nat :=
  if chainBuffers r.bytes.length ≤ d.localFree && d.writerTurn r.typ
      && !(d.mrg.waiting.any fun w => writerOf w.record.typ == writerOf r.typ) then
    d.writeLocal vc r old
  else ({ d with mrg := { d.mrg with waiting := d.mrg.waiting ++ [⟨vc, r, old⟩] } }, none)

/-- A record formed behind every swap marker joins its upward queue. -/
def Dev.joinLocal (d : Dev) (vc : Nat) (r : Rec) : Dev × Option Nat := d.joinFormed vc r false

/-! ### Events (R435 to R441, R598) -/

/-- The band of a source in the order of R435. -/
def band (src : Nat) : Nat :=
  if src < 1024 then 0 else if src < 1088 then 1 else if src < 1216 then 2 else if src < 1248 then 3
  else if src < 1312 then 4 else if src < 1376 then 5 else if src < 1408 then 6 else if src < 1472 then 7
  else if src < 1536 then 8 else if src < 1600 then 9 else if src < 1664 then 10 else if src < 1792 then 11
  else if src < 1856 then 12 else if src < 1888 then 13 else if src < 2016 then 14 else 15

/-- The non-maskable sources of R435. -/
def nonMaskable : List Nat := [1536, 1537, 1600, 1601, 1792]

/-- The source is non-maskable. -/
def isNmi (src : Nat) : Bool := nonMaskable.contains src

/-- The bytes of an event's data item (R437). -/
def EvItem.bytes : EvItem → List Byte
  | .num i => leBytes 8 (toTwos 64 i)
  | .real w => leBytes 4 w ++ zeros 4
  | .time t => timeWord16 t

/-- A number as a data item. -/
def evNat (n : Nat) : EvItem := .num n

/-- The event record of R436. -/
def eventRec (d : Dev) (src kind seq lost : Nat) (rep : Bool) (t : TimeWord) (items : List EvItem) : Rec :=
  let data := (items.map EvItem.bytes).flatten
  { typ := 0x30, version := 1, origin := selfAddress d.map.active, flags := 0
    eventKey := eventKey (coalesce d.map.active) t, time := t, aux := 0
    body := leBytes 2 src ++ leBytes 1 (b2n (isNmi src) + 2 * b2n rep) ++ leBytes 1 kind ++ leBytes 4 seq
      ++ leBytes 2 lost ++ leBytes 2 data.length ++ zeros 4 ++ data }

/-- The uplink path runs: the active map gives a port the role Up-A or Store (R439). -/
def Dev.uplinkRuns (d : Dev) : Bool := hasUp d.map.active || hasStore d.map.active

/-- An event enters the service queue when more than 64 entries are free, or more than 8 for a non-maskable
event; otherwise it is dropped and counted (R434). -/
def Dev.serviceEvent (d : Dev) (src kind seq : Nat) (rep : Bool) (t : TimeWord) (items : List EvItem) : Dev :=
  let free := 128 - d.evt.service.length
  if 64 < free || (isNmi src && 8 < free) then
    let r := eventRec d src kind seq (saturate 16 d.evt.lostSince) rep t items
    { d with evt := { d.evt with service := d.evt.service ++ [⟨.event, r⟩], lostSince := 0 } }
  else
    { d with evt := { d.evt with
      lostSince := satInc 16 d.evt.lostSince, eventsLost := (d.evt.eventsLost + 1) % 2 ^ 32
      droppedSvc := (d.evt.droppedSvc + 1) % 2 ^ 64 } }

/-- Deliver an event on each path that takes it (R439, R440). The second part is the marker count when the VC0
queue dropped it. -/
def Dev.deliverNow (d : Dev) (src kind seq : Nat) (rep : Bool) (t : TimeWord) (items : List EvItem) : Dev × Option Nat :=
  let up := d.uplinkRuns && (isNmi src || d.evt.toUplink)
  let (d, dropped) :=
    if up then
      let (d, n) := d.joinLocal 0 (eventRec d src kind seq 0 rep t items)
      (if n.isSome then { d with evt := { d.evt with droppedUp := (d.evt.droppedUp + 1) % 2 ^ 64 } } else d, n)
    else (d, none)
  if isNmi src || d.evt.toService || !up then (d.serviceEvent src kind seq rep t items, dropped) else (d, dropped)

/-- Deliver an event, or keep it until the reply of the command under way has been formed (R444). -/
def Dev.deliver (d : Dev) (src kind seq : Nat) (t : TimeWord) (items : List EvItem) : Dev × Option Nat :=
  match d.evt.hold with
  | none => d.deliverNow src kind seq false t items
  | some q => ({ d with evt := { d.evt with hold := some (q ++ [⟨src, kind, seq, t, items⟩]) } }, none)

/-- Latch a non-maskable source with its latest event (R440). -/
def latch (ls : List Latch) (l : Latch) : List Latch := ls.filter (·.source != l.source) ++ [l]

/-- Form and deliver an event, masked or not (R436 to R440), without what a drop of it would raise in turn. In Off no
path takes an event, and nothing runs (R439, R566). -/
def Dev.raiseOnce (d : Dev) (src kind : Nat) (items : List EvItem) : Dev × Option Nat :=
  if d.sys.state == .off then (d, none)
  else
    let d := { d with evt := { d.evt with raised := modAt d.evt.raised (band src) fun n => (n + 1) % 2 ^ 64 } }
    if !isNmi src && d.evt.mask.getLsbD src then
      ({ d with evt := { d.evt with masked := modAt d.evt.masked (band src) fun n => (n + 1) % 2 ^ 64 } }, none)
    else
      let seq := (d.evt.eventSeq + 1) % 2 ^ 32
      let d := { d with evt := { d.evt with eventSeq := seq } }
      let t := d.now
      let (d, n) := d.deliver src kind seq t items
      if isNmi src then
        ({ d with evt := { d.evt with latches := latch d.evt.latches ⟨src, t, seq, items, d.sys.ticks⟩ } }, n)
      else (d, n)

/-- The interval of R598 has passed for a key of a source. -/
def Dev.intervalPassed (d : Dev) (src kind key : Nat) : Bool :=
  d.evt.intervals.all fun i =>
    !(i.source == src && i.kind == kind && i.key == key) || ticksPerSecond ≤ d.sys.ticks - i.raisedAt

/-- Start the interval of R598 for a key of a source. -/
def Dev.startInterval (d : Dev) (src kind key : Nat) : Dev :=
  { d with evt := { d.evt with intervals :=
      (d.evt.intervals.filter fun i => !(i.source == src && i.kind == kind && i.key == key))
        ++ [⟨src, kind, key, d.sys.ticks⟩] } }

/-- What a dropped queue item raises: event 1410 with its VC and the items its marker counts, at most once per second: it has
neither a cause nor a port (R295, R300). -/
def Dev.raiseDropped (d : Dev) (vc : Nat) (n : Option Nat) : Dev :=
  match n with
  | none => d
  | some c =>
    if d.intervalPassed 1410 0 0 then
      ((d.startInterval 1410 0 0).raiseOnce 1410 0 [evNat vc, evNat c]).1
    else d

/-- Raise an event (R436 to R440). -/
def Dev.raise (d : Dev) (src kind : Nat) (items : List EvItem) : Dev :=
  let (d, n) := d.raiseOnce src kind items
  d.raiseDropped 0 n

/-- Events raised from here on go behind the reply that is to be formed (R444). -/
def Dev.holdEvents (d : Dev) : Dev := { d with evt := { d.evt with hold := some (d.evt.hold.getD []) } }

/-- An event that was held is delivered. -/
def Dev.deliverHeld (d : Dev) (e : HeldEvent) : Dev :=
  let (d, n) := d.deliverNow e.source e.kind e.seq false e.time e.items
  d.raiseDropped 0 n

/-- The events held are delivered, in the order in which they were raised. -/
def Dev.releaseEvents (d : Dev) : Dev :=
  (d.evt.hold.getD []).foldl (·.deliverHeld ·) { d with evt := { d.evt with hold := none } }

/-- Raise an event at most once per second for a key (R598). -/
def Dev.raiseLimited (d : Dev) (src kind key : Nat) (items : List EvItem) : Dev :=
  if d.intervalPassed src kind key then (d.startInterval src kind key).raise src kind items else d

/-- A record joins its upward queue, formed ahead of the marker under way or not; a drop raises event 1410 (R295). -/
def Dev.sendFormed (d : Dev) (vc : Nat) (r : Rec) (old : Bool) : Dev :=
  let x := d.joinFormed vc r old
  x.1.raiseDropped vc x.2

/-- A record joins its upward queue; a drop raises event 1410 (R295). -/
def Dev.sendUp (d : Dev) (vc : Nat) (r : Rec) : Dev := d.sendFormed vc r false

/-- An item whose records hold their buffers joins its upward queue; a drop raises event 1410 (R295). -/
def Dev.sendItem (d : Dev) (vc : Nat) (recs : List QRec) : Dev :=
  let (d, n) := d.joinItem vc recs
  d.raiseDropped vc n

/-! ### The status byte of the service port (R434) -/

/-- The status byte, which the module drives while the first byte of a transaction is sent. -/
def Dev.statusByte (d : Dev) : Byte :=
  BitVec.ofNat 8 (b2n (!d.evt.service.isEmpty) + 2 * b2n (d.cmd.writeFree != 0) + 4 * b2n (!d.evt.latches.isEmpty)
    + 8 * b2n (d.sys.state == .lodge))

/-- The module drives the status byte, then the bytes of a transaction (R433). -/
def Dev.onSvdo (d : Dev) (bytes : List Byte) : Dev :=
  { d with cmd := { d.cmd with svdo := d.statusByte :: bytes } }

/-! ### Replies (R422 to R425) -/

/-- The reply record of R422. -/
def replyRec (d : Dev) (opcode tag requester : Nat) (st : Status) (interim deferred : Bool) (lateness : Nat)
    (t : TimeWord) (data : List Byte) : Rec :=
  { typ := 0x31, version := 1, origin := selfAddress d.map.active, flags := 0
    eventKey := eventKey (coalesce d.map.active) t, time := t, aux := 0
    body := leBytes 2 opcode ++ leBytes 2 tag ++ leBytes 2 st.code ++ leBytes 1 requester
      ++ leBytes 1 (b2n interim + 2 * b2n deferred) ++ leBytes 2 data.length ++ zeros 2 ++ leBytes 4 lateness ++ data }

/-- The requester a packet is taken as (R418). -/
def requesterOf (h : CmdHeader) : Nat :=
  match h.path with
  | .service => 255
  | .uplink _ => h.requester

/-- What stands in the service queue for the interim reply of a queued command. -/
def interimOf (h : CmdHeader) (opcode : Nat) : SvcKind := .interim h.tag opcode h.executeAt

/-- A final reply of the service port enters the service queue, that of a queued command in the place of its interim reply
(R434). -/
def svcFinal (q : List SvcItem) (h : CmdHeader) (opcode : Nat) (r : Rec) : List SvcItem :=
  match if h.timed then q.findIdx? fun i => i.kind == interimOf h opcode else none with
  | some k => q.set k ⟨.reply, r⟩
  | none => q ++ [⟨.reply, r⟩]

/-- A reply leaves by the path its packet came by (R424): `place` is how it enters the service queue. -/
def Dev.sendReply (d : Dev) (h : CmdHeader) (place : List SvcItem → Rec → List SvcItem) (r : Rec) : Dev :=
  match h.path with
  | .service => { d with evt := { d.evt with service := place d.evt.service r } }
  | .uplink _ => d.sendUp 0 r

/-- Count a command answered with a status (R445). -/
def Dev.countAnswer (d : Dev) (st : Status) : Dev :=
  { d with cmd := { d.cmd with answered := modAt d.cmd.answered st.code fun n => (n + 1) % 2 ^ 64 } }

/-- What a command without reply leaves: nothing, or event 1825 where it failed (R425). -/
def Dev.noReply (d : Dev) (h : CmdHeader) (opcode : Nat) (st : Status) : Dev :=
  if st.success then d
  else
    let d := { d with evt := { d.evt with ownCounts := modAt d.evt.ownCounts 1 fun n => (n + 1) % 2 ^ 32 } }
    d.raiseLimited 1825 0 0 [evNat opcode, evNat h.tag, evNat (requesterOf h), evNat st.code]

/-- Answer a packet with no data: the refusals of checks 1 to 8, and the interim reply (R417, R424). -/
def Dev.answer (d : Dev) (h : CmdHeader) (opcode : Nat) (st : Status) (interim : Bool) : Dev :=
  let d := d.countAnswer st
  if h.noReply then d.noReply h opcode st
  else
    d.sendReply h (fun q r => q ++ [⟨if interim then interimOf h opcode else .reply, r⟩])
      (replyRec d opcode h.tag (requesterOf h) st interim false 0 d.now [])

/-- A command of the timed queue that came by a lane: it was in flight only until it entered the queue (R419). -/
def leftFlight (h : CmdHeader) : Bool := h.timed && h.path != .service

/-- A command is in flight no more (R419). -/
def Dev.endFlight (d : Dev) (h : CmdHeader) (opcode : Nat) : Dev :=
  { d with cmd := { d.cmd with
      inFlight := if leftFlight h then d.cmd.inFlight else d.cmd.inFlight.erase (requesterOf h, h.tag, opcode) } }

/-- The status a final reply carries: LATE_EXECUTED in place of OK and REFUSED_BOUNDARY (R427). -/
def finalStatus (c : Ctx) (st : Status) : Status :=
  match c.late with
  | some _ => if st == .ok || st == .refusedBoundary then .lateExecuted else st
  | none => st

/-- The final reply of a command (R424, R427). -/
def Dev.finish (d : Dev) (c : Ctx) (st : Status) (data : List Byte) : Dev :=
  let d := (d.endFlight c.header c.opcode).countAnswer (finalStatus c st)
  if c.header.noReply then d.noReply c.header c.opcode (finalStatus c st)
  else
    d.sendReply c.header (fun q r => svcFinal q c.header c.opcode r)
      (replyRec d c.opcode c.header.tag (requesterOf c.header) (finalStatus c st) false (st == .refusedBoundary)
        (if finalStatus c st == .lateExecuted then saturate 32 (c.late.getD 0) else 0) c.moment data)

/-! ### Running host commands (R417, R426 to R429) -/

/-- What a command's own chapter makes of it: a final reply at once, or one that follows its completion. -/
inductive CmdResult where
  | done (st : Status) (data : List Byte)
  | wait
  deriving DecidableEq, Repr

/-- What the table of its chapter says of a command: its opcode, whether it is timable (R426), and the device
states in which it is legal. -/
structure CmdKind where
  opcode : Nat
  timable : Bool
  legal : List DevState
  deriving DecidableEq, Repr

/-- The effect of a command's own chapter on the state, with its answer. -/
abbrev Effect := Ctx → State → State × CmdResult

/-- Lift an effect on the volatile state that also reads the flash. -/
def onDev (f : List Host.Cell → Ctx → Dev → Dev × CmdResult) : Effect := fun c s =>
  let (d, r) := f s.flash c s.dev
  ({ s with dev := d }, r)

/-- An effect that only reads, answered OK with data. -/
def reads (f : Dev → List Byte) : Effect := onDev fun _ _ d => (d, .done .ok (f d))

/-- An effect that only reads, where some fields may be free: the next read takes fresh ones. -/
def readsFree (f : Dev → List Byte) : Effect := onDev fun _ _ d => ({ d with free := d.free + 1 }, .done .ok (f d))

/-- Change the volatile state alone. -/
def State.onDev (s : State) (f : Dev → Dev) : State := { s with dev := f s.dev }

/-- The commands that the patrol answers itself while it keeps the members stopped (R472): `SYS.IDENTIFY`, `SYS.STATE`,
`SYS.TRIAD_STATUS`, `SYS.PING` and `SYS.RESET`. -/
def patrolAnswers : List Nat := [0x0000, 0x0001, 0x0004, 0x000A, 0x0003]

/-- A command is legal at its execution: the device state allows it, and the control members run or the patrol answers
it (R417, R472). -/
def Dev.legal (d : Dev) (k : CmdKind) : Bool :=
  k.legal.contains d.sys.state && (!d.triad.stopped || patrolAnswers.contains k.opcode)

/-- Check 9, check 10 and the effect of an accepted command, then its answer, and behind it the events raised meanwhile
(R417, R444). -/
def runNow (k : CmdKind) (h : CmdHeader) (late : Option Nat) (eff : Effect) (s : State) : State :=
  let c : Ctx := ⟨h, k.opcode, late, s.dev.now⟩
  if s.dev.legal k then
    match eff c (s.onDev (·.holdEvents)) with
    | (s, .done st data) => s.onDev fun d => (d.finish c st data).releaseEvents
    | (s, .wait) => s.onDev (·.releaseEvents)
  else s.onDev (·.finish c .wrongState [])

/-- Put a command in flight (R419). -/
def Dev.takeFlight (d : Dev) (h : CmdHeader) (opcode : Nat) : Dev :=
  { d with cmd := { d.cmd with inFlight := d.cmd.inFlight ++ [((requesterOf h), h.tag, opcode)] } }

/-- The bounds of R419: 64 commands of one requester and 256 in all. -/
def Dev.flightRoom (d : Dev) (h : CmdHeader) : Bool :=
  d.cmd.inFlight.length < 256 && (d.cmd.inFlight.filter (·.1 == (requesterOf h))).length < 64

/-- Put a command into the timed queue, behind those that fall due no later (R429). -/
def insertTimed (q : List Timed) (e : Timed) : List Timed :=
  (q.takeWhile fun x => x.header.executeAt.le e.header.executeAt)
    ++ e :: q.dropWhile fun x => x.header.executeAt.le e.header.executeAt

/-- A timed command enters the queue and gets its interim reply (R424, R429). -/
def Dev.enqueueTimed (d : Dev) (i : Instr) (badLength : Bool) (k : CmdKind) (h : CmdHeader) : Dev :=
  let q := insertTimed d.cmd.timed ⟨i, h, k.opcode, false, badLength⟩
  let d := { d with cmd := { d.cmd with timed := q, peakTimed := max d.cmd.peakTimed q.length } }
  let d := if leftFlight h then d else d.takeFlight h k.opcode
  d.answer h k.opcode .accepted true

/-- Packets are accepted nowhere in Off, from the service port alone in Lodge and Boot, and on both paths in the other
states (R566). -/
def Dev.hears (d : Dev) (p : CmdPath) : Bool :=
  match d.sys.state with
  | .off => false
  | .lodge | .boot => p == .service
  | _ => true

/-- Check 10 where `param_length` is not one that the opcode allows (R447). -/
def lengthEff : Effect := fun _ s => (s, .done .outOfRange [])

/-- Checks 5 to 10 of R417 for a packet whose `param_length` may be one that its opcode does not allow, and its
execution. A late command that may still execute does so at once, like an untimed one (R427); while the members are kept
stopped, the patrol answers every command but its own WRONG_STATE (R472). -/
def acceptCmd (i : Instr) (badLength : Bool) (k : CmdKind) (h : CmdHeader) (eff : Effect) (s : State) : State :=
  let d := s.dev
  let run := if badLength then lengthEff else eff
  if !d.hears h.path then s
  else if !d.flightRoom h then s.onDev (·.answer h k.opcode .busy false)
  else if !h.timed then runNow k h none run (s.onDev (·.takeFlight h k.opcode))
  else if d.triad.stopped && !patrolAnswers.contains k.opcode then s.onDev (·.answer h k.opcode .wrongState false)
  else if !(k.timable && h.executeAt.legal
      && h.executeAt.globalTick ≤ d.globalNow + 86400 * ticksPerSecond) then
    s.onDev (·.answer h k.opcode .outOfRange false)
  else if h.executeAt.le d.now then
    if h.latePermitted then
      runNow k { h with timed := false } (some (d.globalNow - h.executeAt.globalTick)) run (s.onDev (·.takeFlight h k.opcode))
    else s.onDev (·.answer h k.opcode .timePast false)
  else if 1024 ≤ d.cmd.timed.length then s.onDev (·.answer h k.opcode .busy false)
  else s.onDev (·.enqueueTimed i badLength k h)

/-- Checks 5 to 10 of R417 for one packet, and its execution. -/
def hostRun (i : Instr) (k : CmdKind) (h : CmdHeader) (eff : Effect) (s : State) : State := acceptCmd i false k h eff s

/-- Put an action into the deferred queue: REFUSED_BOUNDARY, or BUSY where it is full (R432). -/
def Dev.deferAction (d : Dev) (i : Instr) : Dev × CmdResult :=
  if 256 ≤ d.cmd.deferred.length then (d, .done .busy [])
  else
    let q := d.cmd.deferred ++ [i]
    ({ d with cmd := { d.cmd with deferred := q, peakDeferred := max d.cmd.peakDeferred q.length } },
      .done .refusedBoundary [])

/-- An action that takes effect at the next tick. -/
def Dev.atNextTick (d : Dev) (i : Instr) : Dev := { d with cmd := { d.cmd with nextTick := d.cmd.nextTick ++ [i] } }

/-- An action at the next boundary (R54, R432): at the next tick in Standby and Ready, where every tick is a boundary, and
answered OK; in the deferred queue in the other states. -/
def atBoundary (i : Instr) (d : Dev) : Dev × CmdResult :=
  if d.sys.state == .ready || d.sys.state == .standby then
    (d.atNextTick i, .done .ok [])
  else d.deferAction i

/-- The eight device states but Off, in which the service port works (R433). -/
def anyState : List DevState := [.lodge, .boot, .standby, .ready, .running, .quiesce, .faultHold]

/-- Standby, Ready, Running, Quiesce and Fault-hold: the usual states of a status command. -/
def upStates : List DevState := [.standby, .ready, .running, .quiesce, .faultHold]

/-- Standby, Ready, Running and Quiesce. -/
def workStates : List DevState := [.standby, .ready, .running, .quiesce]

/-- The page of R450: the 8-byte header and as many whole entries as fit in 4,088 bytes. -/
def page (start total size : Nat) (entry : Nat → List Byte) : List Byte :=
  let n := if start < total then min (total - start) (4088 / size) else 0
  leBytes 2 start ++ leBytes 2 n ++ leBytes 2 total ++ zeros 2
    ++ ((List.range n).map fun k => entry (start + k)).flatten

/-- A legal pixel range (R448). -/
def pixelRange (first last : Nat) : Bool := first ≤ last && last ≤ 1023

/-- A legal tile range (R448). -/
def tileRange (first last : Nat) : Bool := first ≤ last && last ≤ 63

end Sys2Proof.Machine
end

