-- ==== Sys2Proof/Machine/Events.lean ====
section
/-! DEFINITION. The command and event commands of R445, and the repetition of latched events (R440). -/

namespace Sys2Proof.Machine

/-! ### System commands of R445 -/

/-- `SYS.TIMED_LIST` (R445): opcode and legal states. -/
def sysTimedListKind : CmdKind := ⟨0x0008, false, upStates⟩

/-- An entry of the timed list: 24 bytes (R455). -/
def timedEntry (q : List Timed) (k : Nat) : List Byte :=
  match q[k]? with
  | none => []
  | some e => leBytes 2 e.opcode ++ leBytes 2 e.header.tag ++ leBytes 1 (requesterOf e.header) ++ zeros 3
      ++ timeWord16 e.header.executeAt

/-- The queued commands in order of falling due (R445). -/
def sysTimedListEff (start : Nat) : Effect :=
  reads fun d => page start d.cmd.timed.length 24 (timedEntry d.cmd.timed)

/-- SYS_TIMED_LIST. -/
def execSysTimedList (h : CmdHeader) (start : Nat) (s : State) : Host.Outcome State Fault Refusal :=
  .next (hostRun (.sysTimedList h start) sysTimedListKind h (sysTimedListEff start) s)

/-- A queued command leaves the timed queue unexecuted: WRONG_STATE, unless it has `no_reply` set (R429, R431). -/
def Dev.discardTimed (d : Dev) (e : Timed) : Dev :=
  if e.header.noReply then d.endFlight e.header e.opcode
  else d.finish ⟨e.header, e.opcode, none, d.now⟩ .wrongState []

/-- `SYS.TIMED_CANCEL` (R445). -/
def sysTimedCancelKind : CmdKind := ⟨0x0009, false, workStates⟩

/-- A queued command has a given requester and tag. -/
def Timed.matches (requester tag : Nat) (e : Timed) : Bool :=
  requesterOf e.header == requester && e.header.tag == tag

/-- Remove every queued command with a requester and tag (R429); OUT_OF_RANGE where none matches. -/
def sysTimedCancelEff (requester tag : Nat) : Effect := onDev fun _ _ d =>
  let gone := d.cmd.timed.filter (·.matches requester tag)
  if gone.isEmpty then (d, .done .outOfRange [])
  else
    let d := { d with cmd := { d.cmd with timed := d.cmd.timed.filter fun e => !e.matches requester tag } }
    (gone.foldl (fun d e => d.discardTimed e) d, .done .ok (leBytes 2 gone.length))

/-- SYS_TIMED_CANCEL. -/
def execSysTimedCancel (h : CmdHeader) (requester tag : Nat) (s : State) : Host.Outcome State Fault Refusal :=
  .next (hostRun (.sysTimedCancel h requester tag) sysTimedCancelKind h (sysTimedCancelEff requester tag) s)

/-- `SYS.PING` (R445). -/
def sysPingKind : CmdKind := ⟨0x000A, false, anyState⟩

/-- The parameter bytes come back behind the time word of execution (R445, R455). -/
def sysPingEff (data : List Byte) : Effect :=
  onDev fun _ c d => if data.length ≤ 1008 then (d, .done .ok (timeWord16 c.moment ++ data)) else (d, .done .outOfRange [])

/-- SYS_PING. -/
def execSysPing (h : CmdHeader) (data : List Byte) (s : State) : Host.Outcome State Fault Refusal :=
  .next (hostRun (.sysPing h data) sysPingKind h (sysPingEff data) s)

/-! ### Event commands -/

/-- Boot and the states of `upStates`. -/
def bootStates : List DevState := .boot :: upStates

/-- `EVT.STATUS` (R445). -/
def evtStatusKind : CmdKind := ⟨0x0F00, false, bootStates⟩

/-- The latch bits of sources 1536, 1537, 1600, 1601 and 1792 in that order (R461). -/
def latchBits (ls : List Latch) : Nat :=
  ((List.range 5).map fun i => b2n (ls.any fun l => some l.source == nonMaskable[i]?) * 2 ^ i).sum

/-- The halted downward command streams, bit n for port n (R461). -/
def haltedDownward (d : Dev) : Nat :=
  ((List.range 8).map fun n => b2n (d.mrg.streams.any fun r =>
    r.port == n && r.address == 0 && r.mode == .halted) * 2 ^ n).sum

/-- The 292 bytes of `EVT.STATUS` (R461). -/
def evtStatusData (d : Dev) : List Byte :=
  leBytes 1 (b2n d.evt.toUplink + 2 * b2n d.evt.toService) ++ zeros 1 ++ leBytes 2 d.evt.nmiPeriod
    ++ leBytes 1 (latchBits d.evt.latches) ++ zeros 3 ++ leBytes 4 d.evt.eventSeq
    ++ leBytes 2 d.cmd.timed.length ++ leBytes 2 d.cmd.deferred.length ++ leBytes 2 d.evt.service.length
    ++ leBytes 1 (haltedDownward d) ++ zeros 1
    ++ (d.evt.ownCounts.toList.map (leBytes 4)).flatten
    ++ (List.range 256).map fun r => BitVec.ofNat 8 (d.cmd.inFlight.filter (·.1 == r)).length

/-- EVT_STATUS. -/
def execEvtStatus (h : CmdHeader) (s : State) : Host.Outcome State Fault Refusal :=
  .next (hostRun (.evtStatus h) evtStatusKind h (reads evtStatusData) s)

/-- `EVT.MASK` (R445). -/
def evtMaskKind : CmdKind := ⟨0x0F01, false, upStates⟩

/-- A source whose mask bit is always 0: the non-maskable and the reserved ones (R438, R441). -/
def unmaskable (src : Nat) : Bool := isNmi src || 2016 ≤ src

/-- The mask with the bits of a range set or cleared, the unmaskable ones left 0 (R438). -/
def maskRange (m : BitVec 2048) (first last : Nat) (set : Bool) : BitVec 2048 :=
  (List.range (last + 1 - first)).foldl
    (fun m i =>
      let b := BitVec.twoPow 2048 (first + i)
      if unmaskable (first + i) then m else if set then m ||| b else m &&& ~~~b) m

/-- The mask bits of a range, packed as the reply carries them (R461). -/
def maskBytes (m : BitVec 2048) (first last : Nat) : List Byte :=
  bytesOfBits (ceilDiv (last + 1 - first) 8) ((List.range (last + 1 - first)).map fun i => m.getLsbD (first + i))

/-- Set or clear the mask bits of a range, and return the mask in force (R445). -/
def evtMaskEff (first last set : Nat) : Effect := onDev fun _ _ d =>
  if first ≤ last && last ≤ 2047 && set ≤ 1 then
    let m := maskRange d.evt.mask first last (set == 1)
    ({ d with evt := { d.evt with mask := m } }, .done .ok (maskBytes m first last))
  else (d, .done .outOfRange [])

/-- EVT_MASK. -/
def execEvtMask (h : CmdHeader) (first last set : Nat) (s : State) : Host.Outcome State Fault Refusal :=
  .next (hostRun (.evtMask h first last set) evtMaskKind h (evtMaskEff first last set) s)

/-- `EVT.ACK` (R445). -/
def evtAckKind : CmdKind := ⟨0x0F02, false, bootStates⟩

/-- Clear the latch of one non-maskable source; OUT_OF_RANGE for any other source (R440, R445). -/
def evtAckEff (source : Nat) : Effect := onDev fun _ _ d =>
  if isNmi source then
    ({ d with evt := { d.evt with latches := d.evt.latches.filter (·.source != source) } }, .done .ok [])
  else (d, .done .outOfRange [])

/-- EVT_ACK. -/
def execEvtAck (h : CmdHeader) (source : Nat) (s : State) : Host.Outcome State Fault Refusal :=
  .next (hostRun (.evtAck h source) evtAckKind h (evtAckEff source) s)

/-- `EVT.COUNTERS` (R445). -/
def evtCountersKind : CmdKind := ⟨0x0F03, false, upStates⟩

/-- The 520 bytes of `EVT.COUNTERS` (R461). -/
def evtCountersData (d : Dev) : List Byte :=
  (d.evt.raised.toList.map (leBytes 8)).flatten ++ (d.evt.masked.toList.map (leBytes 8)).flatten
    ++ leBytes 8 d.evt.droppedUp ++ leBytes 8 d.evt.droppedSvc
    ++ (d.cmd.answered.toList.map (leBytes 8)).flatten
    ++ leBytes 2 d.cmd.peakTimed ++ leBytes 2 d.cmd.peakDeferred ++ zeros 4

/-- The counts of `EVT.COUNTERS` cleared. -/
def Dev.clearEvtCounters (d : Dev) : Dev :=
  { d with
    evt := { d.evt with raised := fill 16 0, masked := fill 16 0, droppedUp := 0, droppedSvc := 0 }
    cmd := { d.cmd with answered := fill 30 0, peakTimed := 0, peakDeferred := 0 } }

/-- Read the counts and clear them where asked, in one action (R445, R451). -/
def evtCountersEff (clear : Bool) : Effect := onDev fun _ _ d =>
  (if clear then d.clearEvtCounters else d, .done .ok (evtCountersData d))

/-- EVT_COUNTERS. -/
def execEvtCounters (h : CmdHeader) (clear : Bool) (s : State) : Host.Outcome State Fault Refusal :=
  .next (hostRun (.evtCounters h clear) evtCountersKind h (evtCountersEff clear) s)

/-- `EVT.SET_DELIVERY` (R445). -/
def evtSetDeliveryKind : CmdKind := ⟨0x0F04, false, upStates⟩

/-- Set the delivery fields until the next map becomes active (R445). -/
def evtSetDeliveryEff (up svc : Bool) (period : Nat) : Effect := onDev fun _ _ d =>
  if 1 ≤ period && period ≤ 60 then
    ({ d with evt := { d.evt with toUplink := up, toService := svc, nmiPeriod := period } }, .done .ok [])
  else (d, .done .outOfRange [])

/-- EVT_SET_DELIVERY. -/
def execEvtSetDelivery (h : CmdHeader) (up svc : Bool) (period : Nat) (s : State) : Host.Outcome State Fault Refusal :=
  .next (hostRun (.evtSetDelivery h up svc period) evtSetDeliveryKind h (evtSetDeliveryEff up svc period) s)

/-- Deliver the latest event of a latched source again, once `nmi_repeat` has passed since its latest delivery:
`repeat` set, the same `event_seq` (R440). -/
def Dev.nmiAgain (d : Dev) (source : Nat) : Dev :=
  match d.evt.latches.find? (·.source == source) with
  | none => d
  | some l =>
    if d.evt.nmiPeriod * ticksPerSecond ≤ d.sys.ticks - l.last then
      let (d, n) := d.deliverNow source 0 l.seq true l.time l.items
      let d := { d with evt := { d.evt with latches := latch d.evt.latches { l with last := d.sys.ticks } } }
      d.raiseDropped 0 n
    else d

/-- NMI_REPEAT: the repeat time of a latched source has come. -/
def execNmiRepeat (source : Nat) (s : State) : Host.Outcome State Fault Refusal :=
  .next (s.onDev (·.nmiAgain source))

end Sys2Proof.Machine
end

