-- ==== Sys2Proof/Machine/Hmon.lean ====
section
/-! DEFINITION. Monitor units: what each measures, its statistics and its alarm (R535 to R537, R541). -/

namespace Sys2Proof.Machine

/-- What a monitor unit measures (R536, R537). -/
structure HmonSetting where
  quantity : Nat
  index : Nat
  lo : Int
  width : Nat
  /-- none: no alarm -/
  alarm : Option Int
  deriving DecidableEq, Repr

/-- The offset of the fabric-station entry that names a unit, if one does (R40). -/
def stationNaming (m : Option PisteMap) (u : Nat) : Option Nat :=
  ((List.range (mapCount m 0x0002 0)).find? fun e => mapNum m 0x0002 0 (16 + 16 * e + 1) 1 255 == u).map (16 + 16 * ·)

/-- The offset of a unit's entry in the monitor-unit table (R537). -/
def unitEntry (m : Option PisteMap) (u : Nat) : Option Nat :=
  ((List.range (mapCount m 0x006A 0)).find? fun e => mapNum m 0x006A 0 (16 + 20 * e) 1 255 == u).map (16 + 20 * ·)

/-- The setting of a unit under a map; none for an idle unit (R535). -/
def hmonSetting (m : Option PisteMap) (u : Nat) : Option HmonSetting :=
  match stationNaming m u with
  | some o => some ⟨1, mapNum m 0x0002 0 o 1 0, 0, ceilDiv (mapNum m 0x0002 0 (o + 4) 4 32) 32, none⟩
  | none =>
    match unitEntry m u with
    | none => none
    | some o =>
      let q := mapNum m 0x006A 0 (o + 1) 1 0
      let num := fun (n : Nat) => if q == 8 then ofTwos 32 n else (n : Int)
      let alarm := mapNum m 0x006A 0 (o + 12) 4 0xFFFFFFFF
      some ⟨q, mapNum m 0x006A 0 (o + 2) 2 0, num (mapNum m 0x006A 0 (o + 4) 4 0), mapNum m 0x006A 0 (o + 8) 4 1,
        if q != 8 && alarm == 0xFFFFFFFF then none else some (num alarm)⟩

/-- A unit takes a value (R535). -/
def HmonUnit.take (x : HmonUnit) (s : HmonSetting) (v : Int) : HmonUnit :=
  let bin := (clampInt 0 63 ((v - s.lo) / (s.width : Int))).toNat
  { minimum := if x.samples = 0 then v else min x.minimum v
    maximum := if x.samples = 0 then v else max x.maximum v
    samples := satInc 32 x.samples, bins := modAt x.bins bin (satInc 32) }

/-- One unit takes a value, and raises its alarm where the value exceeds it (R535, R537). -/
def Dev.unitTake (d : Dev) (u : Nat) (s : HmonSetting) (v : Int) : Dev :=
  let d := { d with hmon := modAt d.hmon u fun x => x.take s v }
  if s.alarm.any (· < v) then d.raiseLimited 1904 0 u [evNat u, .num v] else d

/-- A unit watches a quantity of an instance; course 16 stands for any course (R536). -/
def HmonSetting.watches (s : HmonSetting) (quantity index : Nat) : Bool :=
  s.quantity == quantity && (s.index == index || (quantity == 2 && s.index == 16))

/-- A quantity takes a value: every unit that watches it takes the value (R535). -/
def Dev.measure (d : Dev) (quantity index : Nat) (v : Int) : Dev :=
  (List.range 32).foldl (fun d u =>
    match hmonSetting d.map.active u with
    | some s => if s.watches quantity index then d.unitTake u s v else d
    | none => d) d

/-- A latency the model does not time: every unit that watches it takes a free value (R536). -/
def Dev.measureLatency (d : Dev) (quantity index : Nat) : Dev :=
  { d.measure quantity index (Config.latency quantity d.free) with free := d.free + 1 }

/-- Ticks in ns, rounded down (R8). -/
def ticksNs (t : Nat) : Nat := t * 25 / 64

/-- The units whose entry or station a map changes are cleared (R537). -/
def Dev.hmonFromMap (d : Dev) : Dev :=
  let clear := fun (u : Fin 32) (x : HmonUnit) =>
    if hmonSetting d.map.active u.val == hmonSetting d.map.old u.val then x else HmonUnit.initial
  { d with hmon := Vector.ofFn fun u => clear u (getD d.hmon u.val HmonUnit.initial) }

/-! ### Commands (R541) -/

/-- `HMON.READ`. -/
def hmonReadKind : CmdKind := ⟨0x0D20, false, upStates⟩

/-- The 272 bytes of one unit (R462). -/
def hmonBytes (d : Dev) (u : Nat) : List Byte :=
  let x := getD d.hmon u HmonUnit.initial
  leBytes 1 u ++ leBytes 1 ((hmonSetting d.map.active u).elim 0 (·.quantity)) ++ zeros 2 ++ leBytes 4 (toTwos 32 x.minimum)
    ++ leBytes 4 (toTwos 32 x.maximum) ++ leBytes 4 x.samples ++ (x.bins.toList.map (leBytes 4)).flatten

/-- One unit's contents; OUT_OF_RANGE above 31. -/
def hmonReadEff (unit : Nat) : Effect := onDev fun _ _ d =>
  if unit ≤ 31 then (d, .done .ok (hmonBytes d unit)) else (d, .done .outOfRange [])

/-- HMON_READ. -/
def execHmonRead (h : CmdHeader) (unit : Nat) (s : State) : Host.Outcome State Fault Refusal :=
  .next (hostRun (.hmonRead h unit) hmonReadKind h (hmonReadEff unit) s)

/-- `HMON.CLEAR`. -/
def hmonClearKind : CmdKind := ⟨0x0D21, false, upStates⟩

/-- The contents of the units in a mask cleared (R537). -/
def hmonClearEff (mask : Nat) : Effect := onDev fun _ _ d =>
  let clear := fun (u : Fin 32) => if bit mask u.val then HmonUnit.initial else getD d.hmon u.val HmonUnit.initial
  ({ d with hmon := Vector.ofFn clear }, .done .ok [])

/-- HMON_CLEAR. -/
def execHmonClear (h : CmdHeader) (mask : Nat) (s : State) : Host.Outcome State Fault Refusal :=
  .next (hostRun (.hmonClear h mask) hmonClearKind h (hmonClearEff mask) s)

end Sys2Proof.Machine
end

