-- ==== Sys2Proof/Machine/Integ.lean ====
section
/-! DEFINITION. Memory protection: byte code words, the log, the fault windows and parity words (R391 to R407). -/

namespace Sys2Proof.Machine

/-- Change the integrity state. -/
def Dev.modInteg (d : Dev) (f : IntegState → IntegState) : Dev := { d with integ := f d.integ }

/-- "none" as a data item of an event (R411). -/
def evNone : EvItem := .num Config.noneCode

/-! ### Byte code words (R392, R393) -/

/-- The exclusive-OR of some bits of a number. -/
def xorBits (v : Nat) (is : List Nat) : Bool := is.foldl (fun acc i => xor acc (bit v i)) false

/-- The check bits c3 to c0 of a data byte (R392). -/
def checkBits (b : Nat) : Nat :=
  b2n (xorBits b [0, 1, 3, 4, 6]) + 2 * b2n (xorBits b [0, 2, 3, 5, 6]) + 4 * b2n (xorBits b [1, 2, 3, 7])
    + 8 * b2n (xorBits b [4, 5, 6, 7])

/-- The code word of a byte (R392). -/
def codeWord (b : Nat) : Nat :=
  let w := b % 256 + 256 * checkBits b
  w + 4096 * b2n (xorBits w (List.range 12))

/-- The poison form of a byte: c0 to c4 inverted (R392). -/
def poisonWord (b : Nat) : Nat := codeWord b ^^^ 0x1F00

/-- The syndrome s of a stored word (R393). -/
def syndrome (w : Nat) : Nat := checkBits (w % 256) ^^^ bits w 11 8

/-- The overall parity q of a stored word (R393). -/
def overall (w : Nat) : Bool := xorBits w (List.range 13)

/-- The classes of R393. -/
inductive WordClass where
  | good | correctable | uncorrectable | poison
  deriving DecidableEq, Repr

/-- The class of a stored word (R393). -/
def wordClass (w : Nat) : WordClass :=
  let s := syndrome w
  if overall w then
    if s = 15 then .poison else if s = 13 || s = 14 then .uncorrectable else .correctable
  else if s = 0 then .good else .uncorrectable

/-- The bit of the code word that a correctable syndrome names (R393). -/
def errorBit (s : Nat) : Nat :=
  match s with
  | 0 => 12 | 1 => 8 | 2 => 9 | 4 => 10 | 8 => 11
  | 3 => 0 | 5 => 1 | 6 => 2 | 7 => 3 | 9 => 4 | 10 => 5 | 11 => 6 | _ => 7

/-- A correctable word corrected. -/
def corrected (w : Nat) : Nat := w ^^^ 2 ^ errorBit (syndrome w)

/-! ### The memories (R391) -/

/-- Bytes of a class (R391). -/
def classBytes (cls : Nat) : Nat :=
  match cls with
  | 0 => 67108864 | 1 => 33554432 | 2 => 1048576 | 3 => 16777216 | 4 => 1024 | _ => 0

/-- The word an address holds: the code word of 0 where none is listed. -/
def memRead (m : List CodeCell) (k : Nat) : Nat := ((m.find? fun c => c.at_ == k).map (·.word)).getD (codeWord 0)

/-- Store a word, keeping the list by rising address and without the word an unlisted address holds. -/
def memWrite (m : List CodeCell) (k w : Nat) : List CodeCell :=
  let low := m.takeWhile fun c => c.at_ < k
  let high := (m.dropWhile fun c => c.at_ < k).filter fun c => c.at_ != k
  if w = codeWord 0 then low ++ high else low ++ ⟨k, w⟩ :: high

/-- The canonical form of the memories. -/
def memWf : List CodeCell → Bool
  | [] => true
  | [c] => c.word != codeWord 0
  | c :: x :: r => c.word != codeWord 0 && c.at_ < x.at_ && memWf (x :: r)

/-- Where an access to an address of class 0 or 1 goes: to the spare of its line while an entry is in use (R402). -/
def Dev.remapped (d : Dev) (cls address : Nat) : Nat × Nat :=
  match d.integ.remap.toList.findIdx? fun e => e.state == 1 && e.cls == cls && e.line == address / 64 with
  | some i => if cls ≤ 1 then (4, 64 * i + address % 64) else (cls, address)
  | none => (cls, address)

/-! ### Fault windows (R405 to R407) -/

/-- N of a kind (R406, R409). -/
def faultCount (m : Option PisteMap) (kind : Nat) : Nat :=
  mapNum m 0x0061 0 (16 + 8 * kind + 2) 2 (match kind with | 0 => 2 | 1 => 17 | 2 => 3 | _ => 4)

/-- W of a kind in ms (R406, R409). -/
def faultWindow (m : Option PisteMap) (kind : Nat) : Nat :=
  mapNum m 0x0061 0 (16 + 8 * kind + 4) 4 (match kind with | 0 => 600000 | 1 => 1000 | 2 => 3600000 | _ => 60000)

/-- The occurrences kept for a subject. -/
def Dev.faultTimes (d : Dev) (kind subject : Nat) : List Nat :=
  ((d.integ.histories.find? fun h => h.kind == kind && h.subject == subject).map (·.times)).getD []

/-- Clear a subject's history (R407). -/
def Dev.clearHistory (d : Dev) (kind subject : Nat) : Dev :=
  d.modInteg fun g => { g with histories := g.histories.filter fun h => !(h.kind == kind && h.subject == subject) }

/-- An occurrence of a fault; the second part says that it reaches the window (R405). -/
def Dev.occurrence (d : Dev) (kind subject : Nat) : Dev × Bool :=
  let m := d.map.active
  let times := (d.sys.ticks :: d.faultTimes kind subject).take 64
  let d := (d.clearHistory kind subject).modInteg fun g => { g with histories := g.histories ++ [⟨kind, subject, times⟩] }
  let reached := match times[faultCount m kind - 1]? with
    | some t => d.sys.ticks - t ≤ faultWindow m kind * 2560000
    | none => false
  (d, reached)

/-- Occurrences of a subject within its present window (R413). -/
def Dev.inWindow (d : Dev) (kind : Nat) (times : List Nat) : Nat :=
  (times.filter fun t => d.sys.ticks - t ≤ faultWindow d.map.active kind * 2560000).length

/-- A kind 3 or 4 subject reaches its window: event 1675 and a cleared history (R406, R407). -/
def Dev.parityOccurrence (d : Dev) (kind subject : Nat) : Dev :=
  let (d, reached) := d.occurrence kind subject
  if reached then
    (d.clearHistory kind subject).raise 1675 0
      [evNat kind, evNat subject, evNat (faultCount d.map.active kind), evNat (faultWindow d.map.active kind)]
  else d

/-! ### Parity words (R395, R396) -/

/-- A word written as it should be. -/
def ParityBits.good : ParityBits := ⟨false, false⟩

/-- The poisoned form: Q set and P inverted (R27, R396). -/
def ParityBits.poisoned : ParityBits := ⟨true, true⟩

/-- A bit of the word flips. -/
def ParityBits.flip (x : ParityBits) : ParityBits := { x with odd := !x.odd }

/-- The classes of R396. -/
inductive ParityClass where
  | good | failure | poison
  deriving DecidableEq, Repr

/-- The class of a parity word (R396). -/
def ParityBits.cls (x : ParityBits) : ParityClass :=
  if x.q then (if x.odd then .poison else .failure) else if x.odd then .failure else .good

/-- The word is good: a failure and a poisoned word both take the outcome of R28. -/
def ParityBits.ok (x : ParityBits) : Bool := x.cls == .good

/-- A word fails its parity at a crossing, with its tile or port (R395, R406, R411). -/
def Dev.parityFailure (d : Dev) (crossing tile : Nat) : Dev :=
  let d := d.modInteg fun g => { g with parity := modAt g.parity crossing fun n => (n + 1) % 2 ^ 64 }
  (d.raiseLimited 1673 0 crossing [evNat crossing, evNat tile]).parityOccurrence 3 (256 * crossing + tile)

/-- A word written to a crossing: an injected fault is taken up by it (R413). -/
def Dev.takeCrossingInject (d : Dev) (crossing tile : Nat) : Dev × Bool :=
  if d.integ.crossingInjects.contains (crossing, tile) then
    (d.modInteg fun g => { g with crossingInjects := g.crossingInjects.erase (crossing, tile) }, true)
  else (d, false)

/-- A word is written to a crossing in a form: an injected fault and an upset each flip a bit of it. -/
def Dev.writeForm (d : Dev) (crossing tile : Nat) (form : ParityBits) (upset : Bool) : Dev × ParityBits :=
  let (d, hit) := d.takeCrossingInject crossing tile
  (d, if hit != upset then form.flip else form)

/-- A word is written to a crossing, in its good form. -/
def Dev.writeWord (d : Dev) (crossing tile : Nat) (upset : Bool) : Dev × ParityBits := d.writeForm crossing tile .good upset

/-- The parity of a word is verified at its hand-over: a failure is counted, a poisoned word is not (R28, R396). The second
part says that the word is good. -/
def Dev.verifyWord (d : Dev) (crossing tile : Nat) (x : ParityBits) : Dev × Bool :=
  (if x.cls == .failure then d.parityFailure crossing tile else d, x.ok)

/-- A ring word fails its parity at its read by the builder (R396, R411). -/
def Dev.ringParityFailure (d : Dev) (p tick : Nat) : Dev :=
  (d.raiseLimited 1674 0 p [evNat p, evNat tick]).parityOccurrence 4 p

/-- A record is poisoned at a hand-over of R28. -/
def Dev.notePoisoned (d : Dev) (h : Nat) : Dev :=
  d.modInteg fun g => { g with handOver := modAt g.handOver h fun n => (n + 1) % 2 ^ 64 }

/-- A record that goes on poisoned raises event 1671 (R29). -/
def Dev.noteSent (d : Dev) (r : Rec) : Dev :=
  if r.poisoned then d.raise 1671 0 [evNat r.typ, evNat r.origin, evNat r.eventKey] else d

/-! ### The log (R400, R401) -/

/-- Milliseconds between two occurrences. -/
def msBetween (a b : Nat) : Nat := min ((b - a) / 2560000) 0xFFFFFFFE

/-- An occurrence joins an entry of its address. -/
def LogEntry.note (e : LogEntry) (now : Nat) (t : TimeWord) (unc : Bool) (s : Nat) (q inj : Bool) (reader : Nat) : LogEntry :=
  { e with uncorrectable := e.uncorrectable || unc, injected := inj, count := satInc 16 e.count, syndrome := s, q := q
           reader := reader, last := t, ticks := (now :: e.ticks).take 3 }

/-- The entry that a new address displaces in a full log: the oldest `last` among those without `lasting`, or of all
(R401). -/
def displaced (l : List (Option LogEntry)) : Nat :=
  let cand := (List.range 32).filterMap fun i => match l[i]? with | some (some e) => some (i, e) | _ => none
  let loose := cand.filter fun x => !x.2.lasting
  let pool := if loose.isEmpty then cand else loose
  (pool.foldl (fun (best : Option (Nat × LogEntry)) x =>
    match best with
    | none => some x
    | some b => if x.2.ticks.headD 0 < b.2.ticks.headD 0 then some x else some b) none).elim 0 (·.1)

/-- Put a new entry into the log: a free place, or that of an entry it displaces with event 1668 (R401). -/
def Dev.newLogEntry (d : Dev) (e : LogEntry) : Dev :=
  let l := d.integ.log.toList
  match l.findIdx? Option.isNone with
  | some i => d.modInteg fun g => { g with log := modAt g.log i fun _ => some e }
  | none =>
    let i := displaced l
    let d := match l[i]? with
      | some (some o) => (d.clearHistory 0 (memKey o.cls o.address)).raise 1668 0 [evNat o.cls, evNat o.address]
      | _ => d
    d.modInteg fun g => { g with log := modAt g.log i fun _ => some e }

/-- An address of the log. -/
def LogEntry.isAt (e : LogEntry) (cls address : Nat) : Bool := e.cls == cls && e.address == address

/-- Change the log entry of an address. -/
def Dev.modLog (d : Dev) (cls address : Nat) (f : LogEntry → LogEntry) : Dev :=
  let change := fun (o : Option LogEntry) => match o with
    | some e => if e.isAt cls address then some (f e) else some e
    | none => none
  d.modInteg fun g => { g with log := g.log.map change }

/-- `remap_enable` (R408). -/
def remapEnabled (m : Option PisteMap) : Bool := mapBits m 0x0060 0 (16 + 8) 1 1 1 1 == 1

/-- The free entry of lowest index of the remap table. -/
def freeSpare (r : List RemapEntry) : Option Nat := r.findIdx? fun e => e.state == 0

/-- A lasting line waits for a turn of the groomer and self-test (R403). -/
def Dev.queueRemap (d : Dev) (cls line : Nat) : Dev :=
  if d.integ.remapDue.contains (cls, line) then d
  else d.modInteg fun g => { g with remapDue := g.remapDue ++ [(cls, line)] }

/-- A spare found lasting is retired (R404): one in use with the move of its line, in the groomer's turn (R403). -/
def Dev.retireSpare (d : Dev) (i : Nat) : Dev :=
  match d.integ.remap[i]? with
  | none => d
  | some e =>
    if e.state == 1 then d.queueRemap 4 i
    else if e.state == 2 then d
    else (d.modInteg fun g => { g with remap := modAt g.remap i fun x => { x with state := 2 } }).raise 1678 0 [evNat i, evNone]

/-- An address is found lasting (R403, R404, R406). -/
def Dev.lastingAddress (d : Dev) (cls address : Nat) : Dev :=
  let d := d.modLog cls address fun e => { e with lasting := true }
  let line := address / 64
  let d := d.modInteg fun g => { g with listDue := g.listDue ++ [(cls, line)] }
  if cls = 4 then d.retireSpare line
  else if cls = 2 || cls = 3 then d.raise 1666 0 [evNat cls, evNat line, evNone]
  else if !remapEnabled d.map.active || d.integ.remap.toList.any (fun e => e.state == 1 && e.cls == cls && e.line == line) then d
  else if (freeSpare d.integ.remap.toList).isNone then d.raise 1667 0 [evNat cls, evNat line]
  else d.queueRemap cls line

/-- An error at an address is logged and counted in its window (R400, R401, R406). -/
def Dev.logError (d : Dev) (cls address : Nat) (w : Nat) (reader : Nat) : Dev :=
  let unc := wordClass w == .uncorrectable
  let s := syndrome w
  let inj := d.integ.injected.contains (memKey cls address)
  let d := d.modInteg fun g => { g with injected := g.injected.erase (memKey cls address) }
  let items := [evNat cls, evNat address, evNat s, evNat reader]
  let old := d.integ.log.toList.any fun o => o.any (·.isAt cls address)
  let d :=
    if old then d.modLog cls address fun e => e.note d.sys.ticks d.now unc s (overall w) inj reader
    else
      (d.newLogEntry {
        cls := cls, address := address, uncorrectable := unc, lasting := false
        remapped := cls ≤ 1 && (d.remapped cls address).1 == 4, injected := inj, count := 1, syndrome := s, q := overall w
        reader := reader, first_ := d.now, last := d.now, ticks := [d.sys.ticks] }).raiseLimited
          (if unc then 1665 else 1664) 0 cls items
  let (d, reached) := d.occurrence 0 (memKey cls address)
  if reached && !(d.integ.log.toList.any fun o => o.any fun e => e.isAt cls address && e.lasting) then d.lastingAddress cls address
  else d

/-- Count a read outcome of a class (R413). -/
def Dev.countRead (d : Dev) (cls : Nat) (f : MemCounts → MemCounts) : Dev :=
  d.modInteg fun g => { g with memCounts := modAt g.memCounts cls f }

/-- The shadow map is no longer valid: a queued swap is cancelled, and event 1814 (R58). -/
def Dev.dropShadow (d : Dev) : Dev :=
  match d.map.shadow with
  | none => d
  | some m =>
    let swaps := fun (i : Instr) => match i with | .mapSwap _ _ => false | _ => true
    let d := { d with
      map := { d.map with shadow := none, swap := none }
      cmd := { d.cmd with deferred := d.cmd.deferred.filter swaps, nextTick := d.cmd.nextTick.filter swaps } }
    d.raise 1814 0 [evNat m.mapId]

/-- An uncorrectable error at an address of the shadow banks: the shadow map is lost (R58, R391). -/
def Dev.noteShadow (d : Dev) (cls address : Nat) : Dev := if cls = 3 && 8388608 ≤ address then d.dropShadow else d

/-- What a reader does with a code word `w` of a class and address as stored, once it is told apart (R394): a correctable
word is corrected and written back, an uncorrectable one becomes the poison form of the byte as read; both are logged. -/
def Dev.readWord (d : Dev) (c a w reader : Nat) : WordClass → Dev
  | .good => d
  | .poison =>
    let d := d.modInteg fun g => { g with injected := g.injected.erase (memKey c a) }
    d.countRead c fun n => { n with poison := (n.poison + 1) % 2 ^ 64 }
  | .correctable =>
    let d := d.modInteg fun g => { g with mem := memWrite g.mem (memKey c a) (corrected w) }
    (d.countRead c fun n => { n with corrections := (n.corrections + 1) % 2 ^ 64 }).logError c a w reader
  | .uncorrectable =>
    let d := d.modInteg fun g => { g with mem := memWrite g.mem (memKey c a) (poisonWord w) }
    ((d.countRead c fun n => { n with uncorrectable := (n.uncorrectable + 1) % 2 ^ 64 }).logError c a w reader).noteShadow c a

/-- A reader reads one byte (R394). The second part is the class of what it found. -/
def Dev.readByte (d : Dev) (cls address reader : Nat) : Dev × WordClass :=
  let x := d.remapped cls address
  let w := memRead d.integ.mem (memKey x.1 x.2)
  (d.readWord x.1 x.2 w reader (wordClass w), wordClass w)

/-- Bits of the stored word of an address flip; a word that is good again holds no injected fault any more. -/
def Dev.upset (d : Dev) (cls address flips : Nat) : Dev :=
  let (c, a) := d.remapped cls address
  let k := memKey c a
  let w := memRead d.integ.mem k ^^^ flips % 8192
  d.modInteg fun g => { g with
    mem := memWrite g.mem k w, injected := if wordClass w == .good then g.injected.erase k else g.injected }

/-- A byte is written in its poison form (R27, R392). -/
def Dev.poisonAt (d : Dev) (cls address : Nat) : Dev :=
  let (c, a) := d.remapped cls address
  d.modInteg fun g => { g with mem := memWrite g.mem (memKey c a) (poisonWord 0), injected := g.injected.erase (memKey c a) }

/-- Upsets that a step brings flip their bits. -/
def Dev.applyUpsets (d : Dev) (l : List Upset) : Dev :=
  l.foldl (fun d u => if u.address < classBytes u.cls then d.upset u.cls u.address u.flips else d) d

/-- A reader meets bytes that have been upset before its read; it learns whether one of them is damaged for good,
uncorrectable or already in the poison form (R394). -/
def Dev.readUpsets (d : Dev) (reader : Nat) (l : List Upset) : Dev × Bool :=
  l.foldl (fun (x : Dev × Bool) u =>
    if u.address < classBytes u.cls then
      let (d, c) := (x.1.upset u.cls u.address u.flips).readByte u.cls u.address reader
      (d, x.2 || c == .uncorrectable || c == .poison)
    else x) (d, false)

/-- A reader reads one data byte of a class that its owner wrote as `data`; a cell holds what the stored code word differs in
from the one written, and the code is linear, so this tells the word apart (R392 to R394). A correctable word gives the byte
written; a damaged one gives the byte as read. -/
def Dev.readData (d : Dev) (cls address reader data : Nat) : Dev × Nat × Bool :=
  let x := d.remapped cls address
  let w := memRead d.integ.mem (memKey x.1 x.2)
  let (d, c) := d.readByte cls address reader
  if c == .uncorrectable || c == .poison then (d, data ^^^ w % 256, true) else (d, data, false)

/-- A reader reads bytes at their addresses, one after another: each with the value read, and whether it is damaged (R394). -/
def Dev.readArea (d : Dev) (cls reader : Nat) : List (Nat × Byte) → Dev × List (Byte × Bool)
  | [] => (d, [])
  | (a, b) :: rest =>
    let (d, v, bad) := d.readData cls a reader b.toNat
    let (d, l) := d.readArea cls reader rest
    (d, (BitVec.ofNat 8 v, bad) :: l)

/-- Some byte that was read is damaged. -/
def anyBad (l : List (Byte × Bool)) : Bool := l.any (·.2)

end Sys2Proof.Machine
end

