-- ==== Sys2Proof/Machine/Tdc.lean ====
section
/-! DEFINITION. Interpolators: captured edges, hit words and tag words, and how they enter the tile histories, the
open segments and the tag frames (R163 to R183, R223, R234 to R236). -/

namespace Sys2Proof.Machine

/-! ### Spans of ticks -/

/-- A span holds a tick. -/
def Span.holds (s : Span) (t : Nat) : Bool :=
  s.start ≤ t && (match s.stop with | none => true | some e => t < e)

/-- Some span of a list holds a tick. -/
def inSpans (l : List Span) (t : Nat) : Bool := l.any (·.holds t)

/-- Ticks for which spans are kept: the longest dwell (R111) and the ring's look-back after it (R215). -/
def spanMemory : Nat := 2 ^ 27 + 32768

/-- Spans that can still matter to a window of the ring or to a dwell. -/
def recentSpans (now : Nat) (l : List Span) : List Span :=
  l.filter fun s => match s.stop with | none => true | some e => now < e + spanMemory

/-- Open a span at a tick, unless the latest one is still open. -/
def openSpan (now : Nat) (l : List Span) : List Span :=
  match l with
  | ⟨a, none⟩ :: r => ⟨a, none⟩ :: recentSpans now r
  | _ => ⟨now, none⟩ :: recentSpans now l

/-- Close the open span at a tick. -/
def closeSpan (now : Nat) (l : List Span) : List Span :=
  l.map fun s => match s.stop with | none => ⟨s.start, some now⟩ | some _ => s

/-- Add a span of given length from a tick on. -/
def addSpan (now len : Nat) (l : List Span) : List Span := ⟨now, some (now + len)⟩ :: recentSpans now l

/-! ### Pixels and tiles -/

/-- The tile of a pixel. -/
def tileOf (p : Nat) : Nat := p / 16

/-- The front end of a pixel. -/
def Dev.pixelFe (d : Dev) (p : Nat) : Option PixelFe := d.fe.pixels[p]?

/-- The bias, gate and check of a tile. -/
def Dev.tileFe (d : Dev) (n : Nat) : Option TileFe := d.fe.tiles[n]?

/-- Change the front end of a pixel. -/
def Dev.modPixel (d : Dev) (p : Nat) (f : PixelFe → PixelFe) : Dev :=
  { d with fe := { d.fe with pixels := modAt d.fe.pixels p f } }

/-- Change the front end of every pixel of a range. -/
def Dev.modPixels (d : Dev) (r : Range) (f : Nat → PixelFe → PixelFe) : Dev :=
  { d with fe := { d.fe with pixels := modRange d.fe.pixels r f } }

/-- Change a tile. -/
def Dev.modTile (d : Dev) (n : Nat) (f : TileFe → TileFe) : Dev :=
  { d with fe := { d.fe with tiles := modAt d.fe.tiles n f } }

/-- The interpolator of a pixel. -/
def Dev.tdcPixel (d : Dev) (p : Nat) : Option TdcPixel := d.tdc[p]?

/-- Change the interpolator of a pixel. -/
def Dev.modTdc (d : Dev) (p : Nat) (f : TdcPixel → TdcPixel) : Dev := { d with tdc := modAt d.tdc p f }

/-- `enable` of a pixel (R75); an interpolator is in use while it is 1 (R163). -/
def pixelEnabled (m : Option PisteMap) (p : Nat) : Bool := mapBits m 0x0010 0 (16 + 8 * p + 3) 1 0 0 0 == 1

/-- The tile gives no trigger primitives, hit words or tag words: a gate, a ramp, an open-input check or a
calibration run (R69, R81, R517). -/
def Dev.tileMasked (d : Dev) (n : Nat) : Bool :=
  match d.tileFe n with
  | none => false
  | some t => inSpans t.gatedSpans d.sys.ticks || inSpans t.rampSpans d.sys.ticks || t.calibrating
      || t.check != OpenCheck.none

/-- The pixel gives no primitives or words because of its tile or of its own settling trim (R69, R81). -/
def Dev.pixelMasked (d : Dev) (p : Nat) : Bool :=
  d.tileMasked (tileOf p) || (match d.pixelFe p with | none => false | some f => inSpans f.gatedSpans d.sys.ticks)

/-- The present tick is one of the pixel's 6 range-transition samples (R87). -/
def Dev.inTransition (d : Dev) (p : Nat) : Bool :=
  match d.pixelFe p with | none => false | some f => inSpans f.rangeSpans d.sys.ticks

/-- The thresholds in force of a pixel: those of its gain step (R72). -/
def Dev.thresholdsNow (d : Dev) (p : Nat) : Thresholds :=
  match d.pixelFe p with | none => ⟨0, 0⟩ | some f => getD f.thresholds f.gain ⟨0, 0⟩

/-- A threshold code above full scale at every gain step: its discriminator never fires (R74). -/
def silentCode (code : Nat) : Bool := 1001 ≤ code

/-! ### What samples carry -/

/-- The ring position of a tick was written since the converters last started (R216). -/
def writtenAt (run : Option Span) (k : Int) : Bool :=
  match run with
  | none => false
  | some s => decide ((s.start : Int) ≤ k) && (match s.stop with | none => true | some e => decide (k < e))

/-- The converters run, or are about to start (R570). -/
def Dev.converting (d : Dev) : Bool := d.acq.conv.any (·.stop.isNone)

/-- What a sample of a window carries: clamp, range-transition, gated, calibrating (R65, R69, R81, R87, R216). -/
structure SampleFlags where
  clamp : Bool
  range : Bool
  gated : Bool
  cal : Bool
  deriving DecidableEq, Repr

/-- A sample that carries no flag. -/
def SampleFlags.none : SampleFlags := ⟨false, false, false, false⟩

/-- A span list holds a tick that may lie before Boot. -/
def inSpansAt (l : List Span) (k : Int) : Bool := decide (0 ≤ k) && inSpans l k.toNat

/-- The flags of a pixel's sample at a tick. -/
def Dev.sampleFlags (d : Dev) (written : Option Span) (p : Nat) (k : Int) : SampleFlags :=
  match d.pixelFe p, d.tileFe (tileOf p) with
  | some f, some t =>
    ⟨inSpansAt f.clampSpans k, inSpansAt f.rangeSpans k,
      inSpansAt t.gatedSpans k || inSpansAt t.rampSpans k || inSpansAt f.gatedSpans k,
      inSpansAt t.calSpans k || inSpansAt f.calSpans k || !writtenAt written k⟩
  | _, _ => SampleFlags.none

/-! ### Tag frames -/

/-- `frame_phase` in force (R233). -/
def Dev.framePhase (d : Dev) : Nat := mapNum d.map.active 0x0038 0 28 4 0

/-- Ticks from the tag-frame edge at or before a global tick count (R233). -/
def sinceEdge (phase g : Nat) : Nat := (g + tagFrameTicks - phase % tagFrameTicks) % tagFrameTicks

/-- The present tick is a tag-frame edge (R233). -/
def Dev.atFrameEdge (d : Dev) : Bool := sinceEdge d.framePhase d.globalNow == 0

/-- Global tick count of the next tag-frame edge after the present tick. -/
def Dev.nextEdge (d : Dev) : Nat := d.globalNow + tagFrameTicks - sinceEdge d.framePhase d.globalNow

/-- The 4 bytes of a calibration pair (R172). -/
def CalPair.bytes (p : CalPair) : List Byte :=
  leBytes 2 (p.c1 % 8192 + 32768 * b2n p.subst) ++ leBytes 2 (p.c2 % 8192 + 32768 * b2n p.factory)

/-- The map that serves a frame: the old one for a frame ahead of the marker (R25). -/
def Dev.frameMap (d : Dev) (f : TagFrame) : Option PisteMap := if d.aheadOfEdge f.start then d.map.old else d.map.active

/-- The tag-frame record of a part of a tile's frame (R235). -/
def tagRecord (m : Option PisteMap) (tile : Nat) (f : TagFrame) (final : Bool) : Rec :=
  let t := TimeWord.ofGlobalTick f.start
  { typ := 0x11, version := 1, origin := selfAddress m
    flags := 2 ^ 8 * b2n (f.dropped != 0) + 2 ^ 9 * b2n (f.part != 0) + 2 ^ 10 * b2n final + b2n f.damaged
    eventKey := eventKey (coalesce m) t, time := t, aux := 0
    body := leBytes 1 tile ++ zeros 1 ++ leBytes 2 f.part ++ leBytes 4 f.words.length ++ leBytes 4 f.dropped
      ++ leBytes 2 f.mask ++ zeros 2 ++ (f.pairs.map CalPair.bytes).flatten ++ (f.words.map (leBytes 6)).flatten }

/-- The tag framer gives a record of a part of a frame to VC2 (R29, R234). -/
def Dev.sendTags (d : Dev) (tile : Nat) (f : TagFrame) (final : Bool) : Dev :=
  let r := tagRecord (d.frameMap f) tile f final
  (d.noteSent r).sendFormed 2 r (d.aheadOfEdge f.start)

/-- A tag-frame record waits for chain buffers: the tag framer takes no word and closes no frame until it is written (R297). -/
def Dev.framerWaits (d : Dev) : Bool := d.mrg.waiting.any fun w => writerOf w.record.typ == some .framer

/-- Change the counters of R241, which count in Running alone. -/
def Dev.modAcqCounters (d : Dev) (f : AcqCounters → AcqCounters) : Dev :=
  if d.sys.state == .running then { d with acq := { d.acq with counters := f d.acq.counters } } else d

/-- Change the open frame of a tile that starts at a tick. -/
def Dev.modFrame (d : Dev) (tile start : Nat) (f : TagFrame → TagFrame) : Dev :=
  { d with acq := { d.acq with frames := modAt d.acq.frames tile fun l => l.map fun x => if x.start == start then f x else x } }

/-- The tag cap of the level in force, in 10 M tags/s; 0xFFFF is none (R504, R505). -/
def Dev.tagCap (d : Dev) : Nat := mapNum d.map.active 0x0005 0 (40 + 16 * d.pwr.level) 2 0xFFFF

/-- Tokens of a tile's tag bucket at the present tick, in 1/16,384: `tag_cap` of them are added at every tick,
up to 4,096 tokens (R504). -/
def Dev.tagTokens (d : Dev) (tile : Nat) : Nat :=
  let b := getD d.acq.tagBucket tile (0, 0)
  min (4096 * 16384) (b.1 + (if d.tagCap == 0xFFFF then 0 else d.tagCap * (d.sys.ticks - b.2)))

/-- Bring every tag bucket to the present tick, before the cap changes (R504). -/
def Dev.settleTagBuckets (d : Dev) : Dev :=
  { d with acq := { d.acq with tagBucket := Vector.ofFn fun i => (d.tagTokens i, d.sys.ticks) } }

/-- A tag word dropped at its tile's entry (R236). -/
def Dev.dropTag (d : Dev) (p : Nat) (f : TagFrame) : Dev :=
  let n := saturate 32 (f.dropped + 1)
  let d := d.modFrame (tileOf p) f.start fun x => { x with dropped := n }
  let d := d.modTdc p fun t => { t with tagOverflow := some f.start }
  let d := d.modAcqCounters fun c => { c with tagsDropped := (c.tagsDropped + 1) % 2 ^ 64 }
  d.raiseLimited 1318 0 (tileOf p) [evNat (tileOf p), evNat n]

/-- A tag word is placed in its tile's frame; a part that holds `part_tags` words closes (R234). -/
def Dev.placeTag (d : Dev) (tile : Nat) (f : TagFrame) (word : TagWord) (ok : Bool) : Dev :=
  let d := if ok || f.damaged then d else d.notePoisoned 1
  let f' := { f with words := f.words ++ [word], damaged := f.damaged || !ok }
  let d := d.modAcqCounters fun c => { c with tagsFramed := (c.tagsFramed + 1) % 2 ^ 64 }
  if f'.words.length < mapNum (d.frameMap f) 0x0038 0 26 2 32768 then d.modFrame tile f.start fun _ => f'
  else
    (d.modFrame tile f.start fun _ => { f' with words := [], part := f.part + 1, damaged := false }).sendTags tile f' false

/-- The tag framer takes the oldest word of a tile's entry: its parity is verified and it is placed (R28, R234). -/
def Dev.takeTag (d : Dev) (tile : Nat) : Dev :=
  match getD d.acq.tagFifo tile [] with
  | [] => d
  | e :: rest =>
    let d := { d with acq := { d.acq with tagFifo := modAt d.acq.tagFifo tile fun _ => rest } }
    let (d, ok) := d.verifyWord 3 tile e.parity
    match (getD d.acq.frames tile []).find? (·.start == e.frame) with
    | some f => d.placeTag tile f e.word ok
    | none => d

/-- The tag framer takes so many words of a tile's entry, while no record of its own waits for buffers (R297). -/
def Dev.takeTags (d : Dev) (tile : Nat) : Nat → Dev
  | 0 => d
  | n + 1 => if d.framerWaits then d else (d.takeTag tile).takeTags tile n

/-- The oldest open frame of a tile that holds a tick, and in which a pixel frames tags (R234). -/
def Dev.tagFrameAt (d : Dev) (p g : Nat) : Option TagFrame :=
  ((getD d.acq.frames (tileOf p) []).find? fun f => f.start ≤ g && g < f.start + tagFrameTicks).filter fun f => bit f.mask (p % 16)

/-- A tag word of a pulse closes (R176) and enters its tile's tag-framer entry where the frame of its rising edge is open
and the pixel frames tags (R234); where the entry is full, or the tag cap allows none, it is dropped (R236, R504). `tot` is in
ticks. A word whose rising edge `t_offset` has put into the next frame waits until that frame opens (DESIGN CHOICE, log entry
106). -/
def Dev.closeTag (d : Dev) (p : Nat) (rise : Int) (tot : Nat) (noFalling parity : Bool) : Dev :=
  let tile := tileOf p
  match d.tagFrameAt p (rise / 128).toNat with
  | none =>
    if decide (128 * (d.nextEdge : Int) ≤ rise) then
      { d with acq := { d.acq with earlyTags := d.acq.earlyTags ++ [(p, rise, tot, noFalling, parity)] } }
    else d
  | some f =>
    if crossingDepth d.map.active 3 0 4096 ≤ (getD d.acq.tagFifo tile []).length
        || (d.tagCap != 0xFFFF && d.tagTokens tile < 16384) then d.dropTag p f
    else
      let isOver := match d.tdcPixel p with | none => false | some t => t.tagOverflow == some f.start
      let off := (rise - 128 * (f.start : Int)).toNat
      let word := p + 2 ^ 10 * off + 2 ^ 36 * min tot 1023 + 2 ^ 46 * b2n noFalling + 2 ^ 47 * b2n isOver
      let left := if d.tagCap == 0xFFFF then d.tagTokens tile else d.tagTokens tile - 16384
      let (d, bits) := d.writeWord 3 tile (!parity)
      let e : TagEntry := ⟨f.start, word, bits⟩
      let d := { d with acq := { d.acq with
        tagBucket := modAt d.acq.tagBucket tile fun _ => (left, d.sys.ticks)
        tagFifo := modAt d.acq.tagFifo tile (· ++ [e]) } }
      d.drainTest

/-- The tag words that wait for the frame that now opens enter their tiles' entries (R176, R234). -/
def Dev.enterEarlyTags (d : Dev) : Dev :=
  d.acq.earlyTags.foldl (fun d x => d.closeTag x.1 x.2.1 x.2.2.1 x.2.2.2.1 x.2.2.2.2)
    { d with acq := { d.acq with earlyTags := [] } }

/-! ### Hit words -/

/-- The oldest E a tile history keeps: 16,384 ticks before the newest tick (R223). -/
def Dev.historyFloor (d : Dev) : Int := 128 * ((d.globalNow : Int) - 16384)

/-- Note that a word has left its pixel's history (R223). -/
def Dev.noteLeft (d : Dev) (h : Hit) : Dev :=
  let floor : Int := 128 * ((d.globalNow : Int) - 32768)
  d.modTdc h.pixel fun t => { t with leftHistory := h.rise :: t.leftHistory.filter (decide <| floor ≤ ·) }

/-- Drop the words of a tile history that are too old or have 2,048 newer ones (R223). -/
def Dev.pruneHistory (d : Dev) (tile : Nat) : Dev :=
  let l := getD d.acq.history tile []
  let old := l.take (l.length - 2048)
  let young := l.drop (l.length - 2048)
  let gone := old ++ young.filter fun h => h.rise < d.historyFloor
  gone.foldl Dev.noteLeft { d with acq := { d.acq with
    history := modAt d.acq.history tile fun _ => young.filter fun h => d.historyFloor ≤ h.rise } }

/-- First sample of an order's window as a global tick count (R217). -/
def FreezeOrder.firstGlobal (o : FreezeOrder) : Int := (o.time.globalTick : Int) - o.lookBack

/-- `max_hits` of a map (R242). -/
def maxHits (m : Option PisteMap) : Nat := mapNum m 0x0038 0 17 1 63

/-- The map that serves an order (R25). -/
def Dev.orderMap (d : Dev) (o : FreezeOrder) : Option PisteMap := if o.oldMap then d.map.old else d.map.active

/-- The hit offset of a word lies in a block's window, and it is one of the block's pixel (R223). -/
def Block.wants (b : Block) (o : FreezeOrder) (h : Hit) : Bool :=
  let off := h.rise - 128 * o.firstGlobal
  h.pixel == b.pixel && decide (0 ≤ off) && decide (off < 128 * (o.samples : Int))

/-- A hit word offered to a block: placed while `max_hits` allows, left out after that (R223). Where words of the history were
lost as well, the first word left out takes the place of `first` (DESIGN CHOICE, log entry 108: R230 does not say which of the
two kind 5 names). -/
def Block.offer (b : Block) (o : FreezeOrder) (maxHits : Nat) (h : Hit) : Block :=
  if !b.wants o h then b
  else if b.hits.length < maxHits then { b with hits := b.hits ++ [h] }
  else
    { b with leftOut := b.leftOut + 1
             firstLeft := if b.leftOut = 0 then ((h.rise - 128 * o.firstGlobal) / 128).toNat else b.firstLeft }

/-- Bytes of a block stand in the poison form: a ring word or a hit word failed its check on the way (R27, R28). -/
def Block.hurt (b : Block) : Bool := !b.badSamples.isEmpty || b.hits.any (!·.parity.ok)

/-- The hit list of a segment is open and takes a word. -/
def RawSeg.takesHit (s : RawSeg) (maxHits : Nat) (h : Hit) : Bool :=
  !s.closed && s.blocks.any fun b => b.wants s.order h && decide (b.hits.length < maxHits)

/-- Hit words pass into the segment memory of one segment: the parity of each is verified; the first that is not good
poisons a segment that was clean (R28). -/
def Dev.handHits (d : Dev) (clean : Bool) (hits : List Hit) : Dev :=
  let d := hits.foldl (fun d h => (d.verifyWord 1 (tileOf h.pixel) h.parity).1) d
  if clean && hits.any (!·.parity.ok) then d.notePoisoned 1 else d

/-- The oldest word of a tile's crossing passes it: it joins the history and the open hit lists (R223). -/
def Dev.passHit (d : Dev) (tile : Nat) : Dev :=
  match getD d.acq.hitFifo tile [] with
  | [] => d
  | h :: rest =>
    let d := { d with acq := { d.acq with hitFifo := modAt d.acq.hitFifo tile fun _ => rest } }
    let max := fun (s : RawSeg) => maxHits (d.orderMap s.order)
    let d := (d.acq.segments.filter fun s => s.takesHit (max s) h).foldl
      (fun d s => d.handHits (!s.poisoned && !s.blocks.any (·.hurt)) [h]) d
    let offer := fun (s : RawSeg) => if s.closed then s
      else { s with blocks := s.blocks.map fun (b : Block) => b.offer s.order (max s) h }
    ({ d with acq := { d.acq with
      history := modAt d.acq.history tile (· ++ [h]), segments := d.acq.segments.map offer } }).pruneHistory tile

/-- So many words pass a tile's crossing. -/
def Dev.passHits (d : Dev) (tile : Nat) : Nat → Dev
  | 0 => d
  | n + 1 => (d.passHit tile).passHits tile n

/-- Every word in the crossings of the tiles passes. -/
def Dev.passAllHits (d : Dev) : Dev :=
  (List.range 64).foldl (fun d n => d.passHits n (getD d.acq.hitFifo n []).length) d

/-- A hit word enters its tile's crossing, or is dropped where that is full (R21). -/
def Dev.enterHit (d : Dev) (h : Hit) (parity : Bool) : Dev :=
  let tile := tileOf h.pixel
  if (getD d.acq.hitFifo tile []).length < crossingDepth d.map.active 1 0 4096 then
    let isOver := match d.tdcPixel h.pixel with | none => false | some t => t.hitOverflow
    let (d, bits) := d.writeWord 1 tile (!parity)
    let d := d.modTdc h.pixel fun t => { t with hitOverflow := false }
    let d := { d with acq := { d.acq with
      hitFifo := modAt d.acq.hitFifo tile (· ++ [{ h with overflow := isOver, parity := bits }]) } }
    d.drainTest
  else
    let d := d.modTdc h.pixel fun t => { t with hitOverflow := true }
    let d := d.modAcqCounters fun c => { c with hitOverflow := (c.hitOverflow + 1) % 2 ^ 64 }
    d.raiseLimited 1316 0 tile [evNat tile, evNat d.acq.counters.hitOverflow]

/-- The fabric takes words out of a tile's crossings 1 and 3: how many it has taken by now is its own timing (R19). -/
def Dev.emptyCrossings (d : Dev) (p hits tags : Nat) : Dev :=
  let l := getD d.acq.hitFifo (tileOf p) []
  let t := getD d.acq.tagFifo (tileOf p) []
  (d.passHits (tileOf p) (min hits l.length)).takeTags (tileOf p) (min tags t.length)

/-- Complete a pulse: its hit word, and its tag word unless that has closed or the rising edge is that of a range
transition (R174 to R176). `fall` is F, or none where the falling edge is lost or did not come. -/
def Dev.completePulse (d : Dev) (p : Nat) (q : Pulse) (fall : Option Int) (parity : Bool) : Dev :=
  let d := d.modTdc p fun t => { t with pulse := none }
  let long := match fall with | none => true | some f => 1048560 ≤ f - q.rise
  let width := match fall with | none => 0 | some f => (f - q.rise).toNat
  let h : Hit := { pixel := p, rise := q.rise, tot := if long then 65535 else width / 16, rangeEdge := q.rangeEdge
                   overflow := false, noFalling := long, frame := q.frame, parity := .good }
  let d := d.enterHit h parity
  if q.tagClosed || q.rangeEdge then d
  else
    let none' := fall.isNone || 1023 * 128 ≤ width
    d.closeTag p q.rise (if none' then 1023 else width / 128) none' parity

/-- The falling edge of a pixel's pulse is lost: its words close with no-falling set (R174, R175, R182). -/
def Dev.loseFalling (d : Dev) (p : Nat) : Dev :=
  match d.tdcPixel p with
  | none => d
  | some t => match t.pulse with
    | none => d
    | some q => d.completePulse p q none true

/-- A gate, a check, a calibration run or a ramp begins on a tile while pulses are above threshold (R182). -/
def Dev.loseTilePulses (d : Dev) (n : Nat) : Dev :=
  (List.range 16).foldl (fun d i => d.loseFalling (16 * n + i)) d

/-! ### Captured edges -/

/-- A signed fraction rounded to the nearest integer, ties to even, whatever the sign of its parts (R171). -/
def rneQuot (num den : Int) : Int := if den < 0 then rneInt (-num) den.natAbs else rneInt num den.natAbs

/-- The corrected interval f of R171; a pair whose counts are equal gives a free value. -/
def edgeInterval (pair : CalPair) (r use : Nat) : Int :=
  if pair.c1 = pair.c2 then Config.edgeInterval use
  else rneQuot ((16 * (r : Int) - 2 * pair.c1 + pair.c2) * 128) ((pair.c2 : Int) - pair.c1)

/-- The edge time E of R171 in fine bins counted from second 0. -/
def edgeTime (stop : Nat) (f dFac tOffset : Int) : Int := 128 * (stop : Int) - f - dFac + tOffset

/-- An edge that the interpolator does not capture, or that the front end or a slot takes away (R165, R167, R182):
a rising edge forms no word and neither does the falling edge after it; a falling edge closes the words. -/
def Dev.loseEdge (d : Dev) (p : Nat) (rising : Bool) : Dev :=
  if rising then d.modTdc p fun t => { t with lostRise := true } else d.loseFalling p

/-- First tick of the present tag frame, global tick count. -/
def Dev.frameStart (d : Dev) : Int := (d.globalNow : Int) - sinceEdge d.framePhase d.globalNow

/-- The edge time of a raw code (R171) and the frame whose pair it takes: the pair of the present tag frame, or that of the
frame before it where the time lies in that frame (R173). An edge that `t_offset` carries past the coming tag-frame edge takes
the present pair, since no other is judged when its words must be complete (R175; DESIGN CHOICE, log entry 106). -/
def Dev.edgeTimeNow (d : Dev) (p : Nat) (t : TdcPixel) (raw stop : Nat) : Int × Int :=
  let time := fun (pair : CalPair) => edgeTime stop (edgeInterval pair raw d.free) (Config.edgeDelay p).toNat t.tOffset
  if 128 * d.frameStart ≤ time t.applied then (time t.applied, d.frameStart)
  else (time t.previous, d.frameStart - tagFrameTicks)

/-- A captured edge (R164, R171): its stop tick is the first boundary at least one tick after it. A rising edge
while a pulse is open closes that pulse, whose falling edge never came. -/
def Dev.captureEdge (d : Dev) (p : Nat) (t : TdcPixel) (rising : Bool) (raw : Nat) (onBoundary parity : Bool) : Dev :=
  let ahead := if onBoundary then 1 else 2
  let (e, frame) := d.edgeTimeNow p t raw (d.globalNow + ahead)
  let d := { d with free := d.free + 1 }
  let d := d.modTdc p fun t => { t with lastStop := d.sys.ticks + ahead }
  if rising then
    let d := d.loseFalling p
    d.modTdc p fun t => { t with pulse := some ⟨e, false, false, frame⟩, lostRise := false }
  else if t.lostRise then d.modTdc p fun t => { t with lostRise := false }
  else match t.pulse with
    | none => d
    | some q => d.completePulse p q (some e) parity

/-- An edge of a timing discriminator reaches the interpolator (R73, R164 to R167). -/
def Dev.timingEdge (d : Dev) (p : Nat) (rising : Bool) (raw : Nat) (onBoundary parity : Bool) : Dev :=
  match d.tdcPixel p with
  | none => d
  | some t =>
    if !pixelEnabled d.map.active p || (rising && silentCode (d.thresholdsNow p).timing) then d
    else if d.pixelMasked p || t.slot || d.sys.ticks < t.lastStop then d.loseEdge p rising
    else if d.inTransition p then (if rising then d.modTdc p fun t => { t with lostRise := true } else d)
    else d.captureEdge p t rising raw onBoundary parity

/-- TIMING_EDGE: the edge's direction, its raw code, whether it lies exactly on the tick boundary, how many words the fabric has
taken out of the tile's crossings 1 and 3 by now, and whether the bits of the words it completes stay as written. -/
def execTimingEdge (pixel : Nat) (rising : Bool) (raw : Nat) (onBoundary : Bool) (hitsTaken tagsTaken : Nat) (parity : Bool)
    (s : State) : Host.Outcome State Fault Refusal :=
  .next (s.onDev fun d => (d.emptyCrossings pixel hitsTaken tagsTaken).timingEdge pixel rising raw onBoundary parity)

/-- The limits of R175 and R176 on a pulse without a falling edge: the tag word closes 1,023 ticks after E, the hit
word 24 ticks after 1,048,560 fine bins. -/
def Dev.hitTimeout (d : Dev) (p : Nat) (parity : Bool) : Dev :=
  match d.tdcPixel p with
  | none => d
  | some t => match t.pulse with
    | none => d
    | some q =>
      let age := 128 * (d.globalNow : Int) - q.rise
      let d :=
        if !q.tagClosed && !q.rangeEdge && 1023 * 128 ≤ age then
          (d.modTdc p fun t => { t with pulse := some { q with tagClosed := true } }).closeTag p q.rise 1023 true parity
        else d
      let q := { q with tagClosed := q.tagClosed || (!q.rangeEdge && decide (1023 * 128 ≤ age)) }
      if 1048560 + 24 * 128 ≤ age then d.completePulse p q none parity else d

/-- HIT_WORD_TIMEOUT: the words taken out of the tile's crossings by now, and the bits of the words completed, as for
TIMING_EDGE. -/
def execHitWordTimeout (pixel hitsTaken tagsTaken : Nat) (parity : Bool) (s : State) : Host.Outcome State Fault Refusal :=
  .next (s.onDev fun d => (d.emptyCrossings pixel hitsTaken tagsTaken).hitTimeout pixel parity)

/-! ### Calibration slots (R166 to R170) -/

/-- `slot_enable` of a pixel (R179). -/
def slotEnabled (m : Option PisteMap) (p : Nat) : Bool := mapBits m 0x0029 0 (16 + 8 * p + 2) 1 0 0 1 == 1

/-- The slot of one interpolator starts: a pulse above threshold loses its falling edge (R166, R182). -/
def Dev.startSlot (d : Dev) (p : Nat) : Dev :=
  if pixelEnabled d.map.active p && slotEnabled d.map.active p then
    (d.loseFalling p).modTdc p fun t => { t with slot := true }
  else d

/-- CAL_SLOT_START: the 128 ticks before a tag-frame edge begin; with the loop unlocked the time word stands and no
edge comes (R166). -/
def execCalSlotStart (s : State) : Host.Outcome State Fault Refusal :=
  .next (s.onDev fun d =>
    if sinceEdge d.framePhase d.globalNow == tagFrameTicks - 128 then (List.range 1024).foldl Dev.startSlot d else d)

/-- The factory pair of a pixel with its flags (R172). -/
def factoryPair (p : Nat) : CalPair := ⟨(Config.factoryC1 p).toNat, (Config.factoryC2 p).toNat, true, true⟩

/-- The two tests of R168 with the tolerances of a map. -/
def pairAccepted (m : Option PisteMap) (p : Nat) (c1 c2 : Nat) : Bool :=
  let f := factoryPair p
  (((c2 : Int) - c1) - ((f.c2 : Int) - f.c1)).natAbs ≤ mapNum m 0x0029 0 (16 + 8 * p + 3) 1 41
    && ((2 * (c1 : Int) - c2) - (2 * (f.c1 : Int) - f.c2)).natAbs ≤ mapNum m 0x0029 0 (16 + 8 * p + 4) 2 128

/-- The pair that an interpolator applies from an edge on: the factory pair where its slot is off (R169). -/
def Dev.pairInForce (d : Dev) (p : Nat) (pair : CalPair) : CalPair := if slotEnabled d.map.active p then pair else factoryPair p

/-- The pair of a slot is judged at the tag-frame edge (R168, R170) and the interpolator reconnected. Event 1895 gives the pair
applied as c1, c2 and one item of its flags, 1 for `subst` and 2 for `factory` (DESIGN CHOICE, log entry 106: R181 and R437 do
not split the pair into items). -/
def Dev.judgePair (d : Dev) (p c1 c2 : Nat) : Dev :=
  match d.tdcPixel p with
  | none => d
  | some t =>
    if pairAccepted d.map.active p c1 c2 then
      let d' := d.modTdc p fun t => { t with
        measured := some (c1, c2), previous := t.applied, applied := d.pairInForce p ⟨c1, c2, false, false⟩, lastAccepted := some (c1, c2)
        accepted := (t.accepted + 1) % 2 ^ 64, run := 0, failed := false, slot := false }
      if t.failed then d'.raise 1897 0 [evNat p, evNat c1, evNat c2] else d'
    else
      let pair := match t.lastAccepted with
        | some (a, b) => ⟨a, b, true, false⟩
        | none => factoryPair p
      let pair := d.pairInForce p pair
      let fails := !t.failed && 64 ≤ t.run + 1
      let d := d.modTdc p fun t => { t with
        measured := some (c1, c2), previous := t.applied, applied := pair, rejected := (t.rejected + 1) % 2 ^ 64
        run := satInc 16 t.run, failed := t.failed || fails, slot := false }
      let d := d.raiseLimited 1895 0 p
        [evNat p, evNat c1, evNat c2, evNat pair.c1, evNat pair.c2, evNat (b2n pair.subst + 2 * b2n pair.factory)]
      if fails then d.raise 1896 0 [evNat p, evNat c1, evNat c2] else d

/-- An interpolator at a tag-frame edge at which it judges no pair: it goes on with the pair it applies, or with the
factory pair where its slot is off (R169). -/
def Dev.keepPair (d : Dev) (p : Nat) : Dev :=
  d.modTdc p fun t => { t with
    previous := t.applied, slot := false, applied := d.pairInForce p t.applied }

/-- The sum of 16 raw codes of a slot (R166); codes that are not given are free. -/
def codeSum (codes : List Nat) (p from_ use : Nat) : Nat :=
  ((List.range 16).map fun i => match codes[i]? with
    | some r => r % 512
    | none => (Config.slotCode p (from_ + i) use).toNat).sum

/-- The pairs at a tag-frame edge: of each slot that ran, from the sums of its raw codes (R166, R168). -/
def Dev.judgePairs (d : Dev) (slots : List SlotCodes) : Dev :=
  let use := d.free
  (List.range 1024).foldl (fun d p =>
    if (d.tdcPixel p).any (·.slot) then
      let x := (slots.find? (·.pixel == p)).getD ⟨p, [], []⟩
      d.judgePair p (codeSum x.one p 0 use) (codeSum x.two p 16 use)
    else d.keepPair p) { d with free := d.free + 1 }

/-- A pixel comes into use: no slot has run before the edge, so the first frame applies the factory pair (R169). -/
def Dev.intoUse (d : Dev) (p : Nat) : Dev :=
  d.modTdc p fun t => { t with applied := factoryPair p, slot := false, pulse := none, lostRise := false }

/-- A pixel goes out of use: its interpolator runs no slot and produces no words any more (R163). -/
def Dev.outOfUse (d : Dev) (p : Nat) : Dev :=
  d.modTdc p fun t => { t with slot := false, pulse := none, lostRise := false }

/-- An interpolator whose slot is switched off is not blinded, and applies the factory pair from now on (R169). -/
def Dev.slotOff (d : Dev) (p : Nat) : Dev :=
  d.modTdc p fun t => { t with slot := false, applied := factoryPair p }

/-! ### Commands (R183) -/

/-- `TDC.STATUS`. -/
def tdcStatusKind : CmdKind := ⟨0x0420, false, upStates⟩

/-- A 4-byte entry of `TDC.STATUS` (R458). -/
def tdcEntry (d : Dev) (p : Nat) : List Byte :=
  match d.tdcPixel p with
  | none => []
  | some t => leBytes 2 (p + 2 ^ 10 * b2n (pixelEnabled d.map.active p) + 2 ^ 11 * b2n t.failed
      + 2 ^ 12 * b2n t.applied.subst) ++ leBytes 2 (saturate 16 t.rejected)

/-- TDC_STATUS. -/
def execTdcStatus (h : CmdHeader) (start : Nat) (s : State) : Host.Outcome State Fault Refusal :=
  .next (hostRun (.tdcStatus h start) tdcStatusKind h (reads fun d => page start 1024 4 (tdcEntry d)) s)

/-- `TDC.READ_CAL`. -/
def tdcReadCalKind : CmdKind := ⟨0x0421, false, upStates⟩

/-- The 40 bytes of `TDC.READ_CAL` (R458); the last measured pair is free where no slot has run. -/
def tdcCalData (p use : Nat) (t : TdcPixel) : List Byte :=
  let m := t.measured.getD (Config.unstated 3 use % 8192, Config.unstated 4 use % 8192)
  (factoryPair p).bytes ++ leBytes 2 (Config.edgeDelay p).toNat ++ leBytes 2 (toTwos 16 t.tOffset)
    ++ (CalPair.bytes ⟨m.1, m.2, false, false⟩) ++ t.applied.bytes ++ leBytes 8 t.accepted ++ leBytes 8 t.rejected
    ++ leBytes 2 (saturate 16 t.run) ++ leBytes 1 (b2n t.failed) ++ zeros 5

/-- Read one interpolator; OUT_OF_RANGE beyond pixel 1,023. -/
def tdcReadCalEff (pixel : Nat) : Effect := onDev fun _ _ d =>
  match d.tdcPixel pixel with
  | none => (d, .done .outOfRange [])
  | some t => ({ d with free := d.free + 1 }, .done .ok (tdcCalData pixel d.free t))

/-- TDC_READ_CAL. -/
def execTdcReadCal (h : CmdHeader) (pixel : Nat) (s : State) : Host.Outcome State Fault Refusal :=
  .next (hostRun (.tdcReadCal h pixel) tdcReadCalKind h (tdcReadCalEff pixel) s)

/-- `TDC.SET_OFFSET`. -/
def tdcSetOffsetKind : CmdKind := ⟨0x0422, true, [.ready, .running]⟩

/-- Set `t_offset` of a range of pixels. -/
def Dev.setOffset (d : Dev) (r : Range) (tOffset : Nat) : Dev :=
  { d with tdc := modRange d.tdc r fun _ t => { t with tOffset := ofTwos 16 tOffset } }

/-- Set `t_offset` at the next boundary. -/
def tdcSetOffsetEff (i : Instr) (first last : Nat) : Effect := onDev fun _ _ d =>
  if pixelRange first last then atBoundary i d else (d, .done .outOfRange [])

/-- TDC_SET_OFFSET. -/
def execTdcSetOffset (h : CmdHeader) (first last tOffset : Nat) (s : State) : Host.Outcome State Fault Refusal :=
  .next (hostRun (.tdcSetOffset h first last tOffset) tdcSetOffsetKind h
    (tdcSetOffsetEff (.tdcSetOffset h first last tOffset) first last) s)

end Sys2Proof.Machine
end

