-- ==== Sys2Proof/Machine/CalRun.lean ====
section
/-! DEFINITION. Pixel gain calibration: repeats, results, trims and the calibration record (R513 to R523, R540). -/

namespace Sys2Proof.Machine

/-! ### The calibration table (R522) -/

/-- A field of the calibration table. -/
def calField (m : Option PisteMap) (off n dflt : Nat) : Nat := mapNum m 0x0069 0 off n dflt

/-- `cal_enable`: runs fall due; never while no map is active (R515, R541). -/
def calEnabled (m : Option PisteMap) : Bool := m.isSome && mapBits m 0x0069 0 16 1 0 0 1 == 1

/-- `cal_at_start`. -/
def calAtStart (m : Option PisteMap) : Bool := mapBits m 0x0069 0 16 1 1 1 1 == 1

/-- `include` of a tile. -/
def calTileIncluded (m : Option PisteMap) (n : Nat) : Bool := mapBits m 0x0069 0 (65 + 8 * n) 1 0 0 1 == 1

/-- `include` of a pixel. -/
def calPixelIncluded (m : Option PisteMap) (p : Nat) : Bool := mapBits m 0x0069 0 (578 + 4 * p) 2 0 0 1 == 1

/-- `target` of a pixel. -/
def calTarget (m : Option PisteMap) (p : Nat) : Nat := calField m (576 + 4 * p) 2 0

/-- `repeat_len` in ticks. -/
def repeatTicks (m : Option PisteMap) : Nat := usTicks (calField m 20 4 12500)

/-- `base_len` of a pixel (R75). -/
def baseLen (m : Option PisteMap) (p : Nat) : Nat := mapNum m 0x0010 0 (16 + 8 * p + 7) 1 8

/-- `cal_pre`. -/
def calPre (m : Option PisteMap) : Nat := calField m 30 1 4

/-- `cal_len`. -/
def calLen (m : Option PisteMap) : Nat := calField m 31 1 16

/-! ### Change one tile or pixel -/

/-- Change the calibration of a tile. -/
def Dev.modCalTile (d : Dev) (n : Nat) (f : CalTile → CalTile) : Dev :=
  { d with cal := { d.cal with tiles := modAt d.cal.tiles n f } }

/-- Change the calibration of a pixel. -/
def Dev.modCalPixel (d : Dev) (p : Nat) (f : CalPixel → CalPixel) : Dev :=
  { d with cal := { d.cal with pixels := modAt d.cal.pixels p f } }

/-! ### Repeats (R518, R519) -/

/-- A tick of a pixel carries the clamp, range-transition or gated flag. -/
def Dev.flaggedAt (d : Dev) (p k : Nat) : Bool :=
  ((d.pixelFe p).any fun f => inSpans f.clampSpans k || inSpans f.rangeSpans k || inSpans f.gatedSpans k)
    || ((d.tileFe (tileOf p)).any fun t => inSpans t.gatedSpans k || inSpans t.rampSpans k)

/-- A pulse counts (R518): no other rising edge of its pixel and no flagged sample lies in its windows, and its samples
are whole; it rises in the repeat. `start` is the tick at which the repeat began. -/
def Dev.pulseCounts (d : Dev) (n start : Nat) (pulses : List CalPulse) (x : CalPulse) : Bool :=
  let m := d.map.active
  let p := 16 * n + x.pixel
  let len := baseLen m p + calLen m
  let first : Int := (x.at_ : Int) - calPre m - baseLen m p
  let alone := pulses.all fun y => y.pixel != x.pixel || y.at_ == x.at_
    || decide ((y.at_ : Int) < first) || decide (first + len ≤ (y.at_ : Int))
  let clear := (List.range len).all fun (i : Nat) => !(d.flaggedAt p ((start : Int) + first + (i : Int)).toNat)
  x.samples.length == len && decide (x.at_ < repeatTicks m) && alone && clear

/-- The bin of a pulse (R518); none when q is out of range. q is `num / base`. -/
def pulseBin (m : Option PisteMap) (p gain : Nat) (x : CalPulse) : Option Nat :=
  let base := baseLen m p
  let num : Int := (base : Int) * ((x.samples.drop base).sum : Nat) - (calLen m : Int) * ((x.samples.take base).sum : Nat)
  if num < 0 then none
  else
    let i := 16 * num.toNat / (base * calField m 32 2 16 * 2 ^ gain)
    if i < 256 then some i else none

/-- The counts of the 256 bins. -/
def binCounts (l : List Nat) : List Nat := (List.range 256).map fun i => l.count i

/-- The highest bin, the lowest-numbered on a tie (R519). -/
def highestBin (l : List Nat) : Nat :=
  ((l.zipIdx).foldl (fun (best : Nat × Nat) x => if best.1 < x.1 then x else best) (0, 0)).2

/-- What a repeat gives a pixel (R519): Q as a fraction where c reaches `min_counts`. -/
def evaluate (m : Option PisteMap) (gain : Nat) (counts : List Nat) : CalQ :=
  let h := highestBin counts
  let w := calField m 34 1 4
  let bins := (List.range 256).filter fun i => h ≤ i + w && i ≤ h + w
  let at_ := fun (i : Nat) => counts[i]?.getD 0
  let c := (bins.map at_).sum
  let s := (bins.map fun i => at_ i * (2 * i + 1)).sum
  if c < calField m 28 2 1000 then ⟨none, c⟩ else ⟨some (calField m 32 2 16 * 2 ^ gain * s, 32 * c), c⟩

/-- What a repeat gives the 16 pixels of a tile. -/
def Dev.evaluateRepeat (d : Dev) (n start : Nat) (gains : List Nat) (pulses : List CalPulse) : List CalQ :=
  (List.range 16).map fun i =>
    let g := gains[i]?.getD 0
    let mine := pulses.filter fun x => x.pixel == i && d.pulseCounts n start pulses x
    evaluate d.map.active g (binCounts (mine.filterMap (pulseBin d.map.active (16 * n + i) g)))

/-! ### Results (R520, R521) -/

/-- The result of one pixel's run. -/
structure CalResult where
  code : Nat
  a : CalQ
  b : CalQ
  /-- Q, where the pixel is accepted -/
  q : Option (Nat × Nat)
  trim : Nat
  deriving DecidableEq, Repr

/-- The gain step of a pixel has changed since a tick. -/
def Dev.gainChangedSince (d : Dev) (p start : Nat) : Bool :=
  (d.pixelFe p).any fun f => f.history.any fun x => start < x.1

/-- The result of a pixel (R520). -/
def Dev.calResult (d : Dev) (n i : Nat) (r : CalRun) (b : CalQ) : CalResult :=
  let m := d.map.active
  let p := 16 * n + i
  let x := getD d.cal.pixels p ⟨16384, none, fill 8 0⟩
  let g := r.gains[i]?.getD 0
  let a := r.first_[i]?.getD ⟨none, 0⟩
  let keep := fun code => (⟨code, a, b, none, x.next.getD x.trim⟩ : CalResult)
  if !calPixelIncluded m p then keep 5
  else if d.gainChangedSince p r.startTick then keep 4
  else
    match a.q, b.q with
    | some (na, da), some (nb, db) =>
      -- Qa - Qb = diff / (da db), and Q = sum / (2 da db)
      let diff := ((na * db : Int) - nb * da).natAbs
      let sum := na * db + nb * da
      if 2000 * diff ≤ calField m 18 1 10 * sum then
        let q := (sum, 2 * da * db)
        if calTarget m p = 0 then ⟨0, a, b, some q, x.next.getD x.trim⟩
        else
          let new := rneNat (x.trim * calTarget m p * 2 ^ g * q.2) (16 * q.1)
          let clipped := max 14336 (min 18432 new)
          ⟨if clipped = new then 0 else 1, a, b, some q, clipped⟩
      else keep 2
    | _, _ => keep 3

/-- The charges of a pixel after an accepted run at a gain step (R521). -/
def newCharges (p g : Nat) (q : Nat × Nat) : Vector Nat 8 :=
  Vector.ofFn fun h =>
    if h.val = g then f32OfFrac q.1 q.2
    else f32OfFrac (q.1 * 2 ^ h.val * Config.gainRatio p h.val : Nat) (q.2 * 2 ^ g * Config.gainRatio p g)

/-- A pixel takes its result: an accepted one sets its charges and, with a target, its trim for the next edge (R514, R520,
R521). -/
def Dev.takeResult (d : Dev) (p g : Nat) (r : CalResult) : Dev :=
  match r.q with
  | none => d
  | some q => d.modCalPixel p fun x =>
      { x with next := if calTarget d.map.active p = 0 then x.next else some r.trim, charges := newCharges p g q }

/-! ### The record and the end of a run (R523) -/

/-- A Q as binary32; 0.0 where there is none. -/
def CalQ.bytes (x : CalQ) : List Byte := leBytes 4 (match x.q with | some (n, k) => f32OfFrac n k | none => 0)

/-- The calibration record of a run (R523). -/
def calRecord (d : Dev) (n : Nat) (t : CalTile) (r : CalRun) (rs : List CalResult) : Rec :=
  let entry := fun (x : CalResult × Nat) =>
    leBytes 2 (16 * n + x.2 + 1024 * (r.gains[x.2]?.getD 0)) ++ leBytes 1 x.1.code ++ zeros 1 ++ x.1.a.bytes ++ x.1.b.bytes
      ++ leBytes 2 x.1.trim ++ leBytes 2 (saturate 16 (min x.1.a.count x.1.b.count))
  { typ := 0x50, version := 1, origin := selfAddress d.map.active, flags := 0
    eventKey := eventKey (coalesce d.map.active) r.start, time := r.start, aux := 0
    body := leBytes 1 n ++ leBytes 1 (rs.filter (·.code ≤ 1)).length ++ leBytes 2 t.runs ++ leBytes 4 r.temp
      ++ ((rs.zipIdx).map entry).flatten }

/-- A run ends: its record joins VC3, the discriminators return and the calibrating flag ends (R517, R523). -/
def Dev.endRun (d : Dev) (n : Nat) (t : CalTile) (r : CalRun) (rs : List CalResult) : Dev :=
  let d := d.modCalTile n fun t => { t with run := none }
  let d := d.modTile n fun f => { f with calibrating := false, calSpans := closeSpan d.sys.ticks f.calSpans }
  d.sendUp 3 (calRecord d n t r rs)

/-- A run is aborted: results 6 and event 1899 with its cause: 0 map swap, 1 gating, 2 leaving Ready, Running or Quiesce
(R539, R540). -/
def Dev.abortRun (d : Dev) (n cause : Nat) : Dev :=
  match d.cal.tiles[n]? with
  | none => d
  | some t =>
    match t.run with
    | none => d
    | some r =>
      let rs := (List.range 16).map fun i =>
        let x := getD d.cal.pixels (16 * n + i) ⟨16384, none, fill 8 0⟩
        (⟨6, r.first_[i]?.getD ⟨none, 0⟩, ⟨none, 0⟩, none, x.next.getD x.trim⟩ : CalResult)
      (d.endRun n t r rs).raise 1899 0 [evNat n, evNat cause]

/-- Every run in progress is aborted. -/
def Dev.abortRuns (d : Dev) (cause : Nat) : Dev := (List.range 64).foldl (fun d n => d.abortRun n cause) d

/-- A run falls due on a tile; one that waits or runs takes it up (R515, R516). -/
def Dev.runDue (d : Dev) (n : Nat) : Dev :=
  if calEnabled d.map.active && calTileIncluded d.map.active n then
    d.modCalTile n fun t => if t.run.isSome then t else { t with due := true }
  else d

/-- The waiting trims of pixels in no open segment take effect at a tag-frame edge (R514). -/
def Dev.applyTrims (d : Dev) (open_ : Nat → Bool) : Dev :=
  let apply := fun (p : Fin 1024) =>
    let x := getD d.cal.pixels p.val ⟨16384, none, fill 8 0⟩
    match x.next with
    | some g => if open_ p.val then x else { x with trim := g, next := none }
    | none => x
  { d with cal := { d.cal with pixels := Vector.ofFn apply } }

end Sys2Proof.Machine
end

