-- ==== Sys2Proof/Machine/Mon.lean ====
section
/-! DEFINITION. The monitor converter: its sequencer, results, latest values and records (R112 to R122, R126), and
the tile temperature (R89, R94, R97). -/

namespace Sys2Proof.Machine

/-! ### Tables -/

/-- An entry of the sequencer (R116). -/
structure MonEntry where
  input : Nat
  gain : Nat
  average : Bool
  report : Bool
  /-- µs -/
  settle : Nat
  /-- conversions less one -/
  rep : Nat
  /-- µs -/
  after : Nat
  deriving DecidableEq, Repr

/-- Entries of the table in force: the map's, or the 25 of the built-in sequence (R120). -/
def monCount (m : Option PisteMap) : Nat := match m with | none => 25 | some _ => mapCount m 0x0021 0

/-- Entry k of the table in force. -/
def monEntry (m : Option PisteMap) (k : Nat) : MonEntry :=
  match m with
  | none => ⟨208 + k, 0, false, false, 20, 0, 0⟩
  | some _ =>
    let f := fun off n => mapNum m 0x0021 0 (16 + 8 * k + off) n 0
    ⟨f 0 1, bits (f 1 1) 1 0, bit (f 1 1) 2, bit (f 1 1) 3, f 2 2, f 4 1, f 6 2⟩

/-- The offset of an input's entry in the monitor input table of a map (R94). -/
def inputOffset (m : Option PisteMap) (input : Nat) : Option Nat :=
  ((List.range (mapCount m 0x0015 0)).find? fun e => mapNum m 0x0015 0 (16 + 24 * e) 1 255 == input).map (16 + 24 * ·)

/-- A field of an input's entry; a default where it has none. -/
def inputField (m : Option PisteMap) (input off n dflt : Nat) : Nat :=
  match inputOffset m input with
  | none => dflt
  | some o => mapNum m 0x0015 0 (o + off) n dflt

/-- The mode of a monitor input (R91, R94). -/
def inputMode (m : Option PisteMap) (input : Nat) : Nat := inputField m input 1 1 0

/-- Eighths of a microsecond of one conversion (R114). -/
def conversionEighths (low : Bool) : Nat := if low then 2000 else 125

/-- Ticks of one conversion. -/
def conversionTicks (low : Bool) : Nat := 320 * conversionEighths low

/-- Eighths of a microsecond an entry lasts (R117). -/
def MonEntry.eighths (e : MonEntry) (low : Bool) : Nat := 8 * e.settle + (e.rep + 1) * conversionEighths low + 8 * e.after

/-- The loop period in eighths of a microsecond (R117). -/
def loopEighths (m : Option PisteMap) (low : Bool) : Nat :=
  ((List.range (monCount m)).map fun k => (monEntry m k).eighths low).sum

/-! ### Values -/

/-- A code at a gain in volts, as a fraction (R112). -/
def codeVolts (gain : Nat) (code : Int) : Int × Nat := (code * 256, 100 * 2 ^ (19 + 2 * gain))

/-- The factor by which an internal point's scale divides what MON sees, as a fraction (R113); 1 for the sensors,
whose scale is not given. -/
def pointScale (input : Nat) : Nat × Nat :=
  if input < 192 then (32, 1) else if input < 208 then (1, 250) else if input < 225 then (1, 1)
  else match input with
    | 225 => (32, 1) | 226 => (8, 1) | 228 => (2, 1) | 231 => (2, 1) | 232 => (2, 1) | _ => (1, 1)

/-- The value of a code of an input in the unit of R91 or R113, as binary32 (R119). -/
def monValue (m : Option PisteMap) (input gain : Nat) (code : Int) : Nat :=
  let (n, d) := codeVolts gain code
  if input < 128 then
    if inputMode m input == 2 then
      let i := Config.excitation input (inputField m input 2 1 10)
      f32OfFrac (n * 10 ^ 12) (d * i)
    else f32OfFrac n d
  else
    let (a, b) := pointScale input
    (Config.pointValue input (n * a) (d * b)).toNat

/-- The latest value of an input. -/
def Dev.latestValue (d : Dev) (input : Nat) : Option Nat := (getD d.mon.latest input none).map (·.value)

/-- The polynomial of R94 in binary32. -/
def inputTemperature (m : Option PisteMap) (input x : Nat) : Nat :=
  let c := fun k => inputField m input (8 + 4 * k) 4 0
  f32Add (f32Mul (f32Add (f32Mul (c 2) x) (c 1)) x) (c 0)

/-- The latest value of an input at an earlier tick: the one before it where the latest is younger. -/
def Dev.valueAt (d : Dev) (input : Nat) (tick : Int) : Option Nat :=
  match getD d.mon.latest input none with
  | none => none
  | some l => if (l.tick : Int) ≤ tick then some l.value else l.before.map (·.1)

/-- The temperature of the lid, or a free value while there is no reading of it (R97). -/
def Dev.lidTemperature (d : Dev) (tick : Int) : Nat :=
  match d.valueAt 224 tick with
  | some v => v
  | none => (d.latestValue 224).getD (Config.firstTemperature d.free).toNat

/-- The latest value that a monitor input had at a tick, of the results since a map became active at `from_` (R97). -/
def Dev.inputAtTick (d : Dev) (from_ input : Nat) (tick : Int) : Option Nat :=
  match getD d.mon.latest input none with
  | none => none
  | some l =>
    ((l.value, l.tick) :: l.before.toList).find? (fun x => (x.2 : Int) ≤ tick) |>.bind fun x => if from_ ≤ x.2 then some x.1 else none

/-- The temperature T of a tile at a tick since Boot, under the map that serves there: the old one or the active one (R25,
R82, R89, R97). -/
def Dev.temperatureUnder (d : Dev) (old : Bool) (n : Nat) (tick : Int) : Nat :=
  let m := if old then d.map.old else d.map.active
  let src := mapNum m 0x0013 0 (16 + 32 * n + 9) 1 16
  if src < 16 then (d.valueAt (208 + src) tick).getD (d.lidTemperature tick)
  else if src < 32 then d.lidTemperature tick
  else match d.inputAtTick (if old then d.map.oldAt else d.map.activeAt) (src - 32) tick with
    | some x => inputTemperature m (src - 32) x
    | none => d.lidTemperature tick

/-- The temperature T of a tile at a tick since Boot under the active map. -/
def Dev.tileTemperature (d : Dev) (n : Nat) (tick : Int) : Nat := d.temperatureUnder false n tick

/-! ### The sequencer (R117, R120) -/

/-- MON runs from Boot on (R120, R566). -/
def Dev.monRuns (d : Dev) : Bool := d.sys.state != .off && d.sys.state != .lodge

/-- Change MON. -/
def Dev.modMon (d : Dev) (f : MonState → MonState) : Dev := { d with mon := f d.mon }

/-- The present entry. -/
def MonState.current (m : MonState) : MonEntry := monEntry m.table m.entry

/-- The selected input is in mode 2 (R91). -/
def MonState.resistance (m : MonState) : Bool := m.current.input < 128 && inputMode m.table m.current.input == 2

/-- Select an entry: its input is connected and, in mode 2, its excitation starts (R92, R117). -/
def MonState.select (m : MonState) (now k : Nat) : MonState :=
  let m := { m with entry := k, selectAt := now, phase := .settling, conv := 0, sum := 0, valid := 0, isOver := false }
  { m with excited := m.resistance }

/-- The end of the excitation window of the selected input: `window` after it was selected (R92, R94). -/
def MonState.windowEnd (m : MonState) : Nat := m.selectAt + 256000 * inputField m.table m.current.input 3 1 10

/-- The settling delay ends, `settle` after the selection, and the first conversion starts (R117). -/
def Dev.monSettleEnd (d : Dev) : Dev :=
  if d.monRuns && d.mon.phase == .settling && d.mon.selectAt + usTicks d.mon.current.settle ≤ d.sys.ticks then
    d.modMon fun m => { m with phase := .converting, convTick := d.sys.ticks, convTime := d.now
                               firstTick := d.sys.ticks, firstTime := d.now }
  else d

/-- MON_SETTLE_END. -/
def execMonSettleEnd (s : State) : Host.Outcome State Fault Refusal := .next (s.onDev (·.monSettleEnd))

/-- The excitation of a mode-2 input stops at its window (R92). -/
def Dev.excitationEnd (d : Dev) : Dev :=
  if d.mon.excited && d.mon.windowEnd ≤ d.sys.ticks then d.modMon fun m => { m with excited := false } else d

/-- EXCITATION_WINDOW_END. -/
def execExcitationWindowEnd (s : State) : Host.Outcome State Fault Refusal := .next (s.onDev (·.excitationEnd))

/-! ### Results and records -/

/-- The monitor record of R121. -/
def monRecordOf (d : Dev) (r : MonRecord) : Rec :=
  { typ := 0x20, version := 1, origin := selfAddress d.map.active, flags := 0
    eventKey := eventKey (coalesce d.map.active) r.start, time := r.start, aux := 0
    body := leBytes 4 d.mon.pass ++ leBytes 2 r.words.length ++ leBytes 2 (b2n d.mon.lowPower)
      ++ (r.words.map (leBytes 8)).flatten }

/-- The record being filled closes and joins VC3 (R121). -/
def Dev.closeMonRecord (d : Dev) : Dev :=
  match d.mon.record with
  | none => d
  | some r => (d.modMon fun m => { m with record := none }).sendUp 3 (monRecordOf d r)

/-- Add a result word to the record (R121, R122); a record closes at 512 words. -/
def Dev.addResult (d : Dev) (e : MonEntry) (code : Int) (isOver opened invalid : Bool) (startTick : Nat) (start : TimeWord) : Dev :=
  let r := d.mon.record.getD ⟨start, startTick, []⟩
  let off := (startTick - r.startTick) / 2560 % 2 ^ 24
  let w := toTwos 20 code + 2 ^ 20 * e.input + 2 ^ 30 * e.gain + 2 ^ 32 * off + 2 ^ 56 * b2n invalid
    + 2 ^ 57 * b2n opened + 2 ^ 58 * b2n isOver + 2 ^ 59 * b2n e.average
  let d := d.modMon fun m => { m with record := some { r with words := r.words ++ [w] } }
  if 512 ≤ r.words.length + 1 then d.closeMonRecord else d

/-- A source feeds a monitor input while a result of it is taken: the excitation of a valid mode-2 result, else the
burn-out source where `burn_out` is set (R92, R93). -/
def sourceOn (m : MonState) (e : MonEntry) (invalid : Bool) : Bool :=
  let mode := inputMode m.table e.input
  e.input < 128 && ((mode == 2 && !invalid) || ((mode == 1 || mode == 2) && bit (inputField m.table e.input 4 1 1) 0))

/-- A reading of 2.45 V or more (R93). -/
def readsHigh (e : MonEntry) (code : Int) : Bool :=
  let (n, d) := codeVolts e.gain code
  decide (245 * (d : Int) ≤ 100 * n)

/-- The first finding in each direction of a monitor input (R93, R96). -/
def Dev.noteInput (d : Dev) (input : Nat) (opened : Bool) : Dev :=
  if input < 128 && getD d.mon.inputOpen input false != opened then
    (d.modMon fun m => { m with inputOpen := modAt m.inputOpen input fun _ => opened }).raise
      (if opened then 1888 else 1889) 0 [evNat input]
  else d

/-- The reference and zero readings beyond their tolerance (R124): 0.1 % of 2.048 V on input 233, 50 µV on input 234. -/
def referenceBad (input value : Nat) : Bool :=
  let (n, k) := f32Frac value
  if input == 233 then decide (2048 * (2 ^ k : Int) < (1000000 * n - 2048000 * 2 ^ k).natAbs)
  else if input == 234 then decide (50 * (2 ^ k : Int) < (1000000 * n).natAbs)
  else false

/-- A binary32 value in thousandths, rounded to nearest with ties to even (R536). -/
def thousandths (w : Nat) : Int :=
  let (n, k) := f32Frac w
  clampInt (-(2 ^ 31 : Int)) (2 ^ 31 - 1) (rneInt (n * 1000) (2 ^ k))

/-- A result of an entry (R118, R119): its word, the latest value, and the events of R93 and R124. A reading taken with no
source on shows nothing of the input's connection. The time word of a latest value is that of the end of the result's last
conversion (DESIGN CHOICE, log entry 13: R119 says only "its time word"). -/
def Dev.monOutcome (d : Dev) (e : MonEntry) (code : Int) (isOver invalid : Bool) (startTick : Nat) (start : TimeWord) : Dev :=
  let judged := sourceOn d.mon e invalid
  let opened := judged && readsHigh e code
  let d := if judged then d.noteInput e.input opened else d
  let v := monValue d.mon.table e.input e.gain code
  let d := if invalid || opened then d
    else
      let fresh := fun (o : Option Latest) => some (⟨v, d.now, d.sys.ticks, o.map fun l => (l.value, l.tick)⟩ : Latest)
      (d.modMon fun m => { m with latest := modAt m.latest e.input fresh }).measure 8 e.input (thousandths v)
  let d := if referenceBad e.input v && !invalid then
      (d.modMon fun m => { m with refFaults := satInc 32 m.refFaults }).raiseLimited 1894 0 e.input [evNat e.input, .real v]
    else d
  if e.report then d.addResult e code isOver opened invalid startTick start else d

/-- A conversion has run its time (R114, R117). -/
def Dev.conversionDue (d : Dev) : Bool :=
  d.monRuns && d.mon.phase == .converting && d.mon.convTick + conversionTicks d.mon.lowPower ≤ d.sys.ticks

/-- A conversion completes, one conversion time after it started (R114, R117, R118). It is invalid where its mode-2
excitation stopped before this moment; an excitation that stops at it is none. The counts of R124 stop at their largest value
(DESIGN CHOICE, log entry 104). -/
def Dev.monConversion (d : Dev) (code : Int) : Dev :=
  if !d.conversionDue then d
  else
    let e := d.mon.current
    let invalid := d.mon.resistance && decide (d.mon.windowEnd < d.sys.ticks)
    let isOver := code == 524287 || code == -524288
    let d := if isOver then
        (d.modMon fun m => { m with overRange := satInc 32 m.overRange }).raiseLimited 1893 0 e.input
          [evNat e.input, evNat e.gain, .num code]
      else d
    let last := e.rep < d.mon.conv + 1
    let d := d.modMon fun m => { m with
      sum := if invalid then m.sum else m.sum + code, valid := if invalid then m.valid else m.valid + 1, isOver := m.isOver || (isOver && !invalid) }
    let d :=
      if e.average then
        if last then
          d.monOutcome e (if d.mon.valid = 0 then code else rneInt d.mon.sum d.mon.valid)
            (if d.mon.valid = 0 then isOver else d.mon.isOver) (d.mon.valid = 0)
            d.mon.firstTick d.mon.firstTime
        else d
      else d.monOutcome e code isOver invalid d.mon.convTick d.mon.convTime
    d.modMon fun m => { m with
      conv := m.conv + 1, convTick := d.sys.ticks, convTime := d.now
      phase := if last then .afterwards else .converting, excited := m.excited && !last }

/-- The waiting changes of MON's mode act at the end of a loop pass, in order of acceptance (R120, R432), also before any map
is active (DESIGN CHOICE, log entry 104: R120 has the built-in sequence run in normal mode, and R126 accepts the command in
Standby). -/
def Dev.applyMonModes (d : Dev) : Dev :=
  let low := d.cmd.deferred.foldl (fun acc i => match i with | .monSetMode _ m => m == 1 | _ => acc) d.mon.lowPower
  { d with
    mon := { d.mon with lowPower := low }
    cmd := { d.cmd with deferred := d.cmd.deferred.filter fun i => match i with | .monSetMode _ _ => false | _ => true } }

/-- The end of a loop pass (R120, R121): the record closes, a new mode and a new table take effect. -/
def Dev.endPass (d : Dev) : Dev :=
  let d := d.closeMonRecord.applyMonModes
  if d.mon.tableDue then d.modMon fun m => { m with table := d.map.active, tableDue := false, pass := 0 }
  else d.modMon fun m => { m with pass := (m.pass + 1) % 2 ^ 32 }

/-- The interval `after` ends, counted from the end of the last conversion, and the next entry selects its input (R117). -/
def Dev.monAfterEnd (d : Dev) : Dev :=
  if !(d.monRuns && d.mon.phase == .afterwards && d.mon.convTick + usTicks d.mon.current.after ≤ d.sys.ticks) then d
  else if monCount d.mon.table ≤ d.mon.entry + 1 then d.endPass.modMon (·.select d.sys.ticks 0)
  else d.modMon fun m => m.select d.sys.ticks (m.entry + 1)

/-- MON_AFTER_END. -/
def execMonAfterEnd (s : State) : Host.Outcome State Fault Refusal := .next (s.onDev (·.monAfterEnd))

/-! ### Commands (R126) -/

/-- `MON.STATUS`. -/
def monStatusKind : CmdKind := ⟨0x0310, false, upStates⟩

/-- The 24 bytes of `MON.STATUS` (R457); the loop period is rounded down to µs. -/
def monStatusData (d : Dev) : List Byte :=
  leBytes 1 (b2n d.mon.lowPower) ++ zeros 1 ++ leBytes 2 (monCount d.mon.table)
    ++ leBytes 4 (loopEighths d.mon.table d.mon.lowPower / 8) ++ leBytes 4 d.mon.pass ++ leBytes 4 d.mon.overRange
    ++ leBytes 4 d.mon.refFaults ++ zeros 4

/-- MON_STATUS. -/
def execMonStatus (h : CmdHeader) (s : State) : Host.Outcome State Fault Refusal :=
  .next (hostRun (.monStatus h) monStatusKind h (reads monStatusData) s)

/-- `MON.READ`. -/
def monReadKind : CmdKind := ⟨0x0311, false, upStates⟩

/-- The 16 bytes of one input (R457). -/
def latestBytes (l : Option Latest) : List Byte :=
  match l with
  | some v => leBytes 4 v.value ++ twBytes v.time
  | none => leBytes 4 0x7FC00000 ++ zeros 12

/-- The latest values of a range of inputs; OUT_OF_RANGE where it is no range of inputs. -/
def monReadEff (first last : Nat) : Effect := onDev fun _ _ d =>
  if first ≤ last && last ≤ 255 then
    (d, .done .ok ((List.range (last + 1 - first)).map fun k => latestBytes (getD d.mon.latest (first + k) none)).flatten)
  else (d, .done .outOfRange [])

/-- MON_READ. -/
def execMonRead (h : CmdHeader) (first last : Nat) (s : State) : Host.Outcome State Fault Refusal :=
  .next (hostRun (.monRead h first last) monReadKind h (monReadEff first last) s)

/-- `MON.SET_MODE`. -/
def monSetModeKind : CmdKind := ⟨0x0312, false, workStates⟩

/-- The change waits for the end of a loop pass (R120, R126). -/
def monSetModeEff (i : Instr) (mode : Nat) : Effect := onDev fun _ _ d =>
  if mode ≤ 1 then d.deferAction i else (d, .done .outOfRange [])

/-- MON_SET_MODE. -/
def execMonSetMode (h : CmdHeader) (mode : Nat) (s : State) : Host.Outcome State Fault Refusal :=
  .next (hostRun (.monSetMode h mode) monSetModeKind h (monSetModeEff (.monSetMode h mode) mode) s)

end Sys2Proof.Machine
end

