-- ==== Sys2Proof/Machine/Wfc.lean ====
section
/-! DEFINITION. Waveform converters: slices, dwells and modes (R99 to R111, R126). -/

namespace Sys2Proof.Machine

/-- Change the converter of a pixel. -/
def Dev.modWfc (d : Dev) (p : Nat) (f : WfcPixel → WfcPixel) : Dev := { d with wfc := modAt d.wfc p f }

/-- A slice by number. -/
def WfcPixel.slice (w : WfcPixel) (j : Nat) : Slice := getD w.slices j (Slice.initial .retired 0 0 0)

/-- The slices and the mode as they stand join those of the last 32,768 ticks: they end now (R103). -/
def WfcPixel.keep (w : WfcPixel) (now : Nat) : WfcPixel :=
  { w with past := (now, w.lowPower, w.slices) :: w.past.filter fun x => now < x.1 + 32768 }

/-- The mode and the slices under which the sample of a tick was taken (R103). -/
def WfcPixel.atTick (w : WfcPixel) (k : Nat) : Bool × Vector Slice 9 :=
  match w.past.reverse.find? (k < ·.1) with
  | some x => x.2
  | none => (w.lowPower, w.slices)

/-! ### Codes and ring words (R99, R101, R105, R109) -/

/-- A raw code under a slice's offset and gain (R105). -/
def Slice.correct (s : Slice) (r : Nat) : Nat :=
  (clampInt 0 4095 (rneInt ((64 * (r : Int) - s.off) * (65536 + s.gc)) (64 * 65536))).toNat

/-- The parity of a ring word holds: an even number of ones (R101). -/
def ringParity (w : Nat) : Bool := ((bitsOf 13 w).filter id).length % 2 == 0

/-- The word of a code with its parity (R101). -/
def ringWord (code : Nat) : Nat := code % 4096 + 4096 * (((bitsOf 12 code).filter id).length % 2)

/-- What the converter gives at a tick since Boot: the raw code and the flipped bits of its ring word; a free code where no
operand has given one. -/
def Dev.rawAt (d : Dev) (p k : Nat) : Nat :=
  match d.acq.ring.find? fun r => r.pixel == p && r.start ≤ k && k < r.start + r.words.length with
  | some r => r.words[k - r.start]?.getD 0
  | none => (Config.sampleCode p k).toNat

/-- The global tick count of a tick since Boot. -/
def Dev.globalOf (d : Dev) (k : Nat) : Int := (k : Int) + d.globalNow - d.sys.ticks

/-- The code the slices of a pixel make of the sample of a tick: the slice at position k mod 8 takes it (R99); in low-power
mode each sample stands for its own tick and the three after it (R109); with at most one slice left it is 0 (R108). -/
def Dev.codeAt (d : Dev) (p k : Nat) : Nat :=
  match d.wfc[p]? with
  | none => 0
  | some w =>
    let (low, slices) := w.atTick k
    let back := if low then (d.globalOf k % 4).toNat else 0
    let pos := (d.globalOf (k - back) % 8).toNat
    if (slices.toList.filter (·.role != .retired)).length ≤ 1 then 0
    else match slices.toList.find? (·.role == .position pos) with
      | some sl => sl.correct (d.rawAt p (k - back) % 4096)
      | none => 0

/-- The ring word of a pixel at a tick (R100, R101), with what has flipped in it. -/
def Dev.ringAt (d : Dev) (p k : Nat) : Nat := ringWord (d.codeAt p k) ^^^ (d.rawAt p k / 4096 % 8192)

/-! ### Slices and modes -/

/-- Slices that are not retired, in ascending order. -/
def WfcPixel.live (w : WfcPixel) : List Nat :=
  (List.range 9).filter fun j => (w.slice j).role != .retired

/-- The row of R108, counted from 0, for a number of slices left. -/
def configRow (left : Nat) : Nat :=
  if 9 ≤ left then 0 else if left = 8 then 1 else if 3 ≤ left then 2 else if left = 2 then 3 else 4

/-- The row of R108 a pixel runs in. -/
def WfcPixel.row (w : WfcPixel) : Nat := configRow w.live.length

/-- The mode a pixel runs in: the one asked for with nine slices, the one R108 forces with fewer. -/
def WfcPixel.modeFor (w : WfcPixel) : Bool :=
  match w.row with
  | 0 => w.lowAsked
  | 1 => false
  | _ => true

/-- Roles of the live slices at a fresh start of a mode (R104, R109): positions in ascending order of slices, then
the spare, the others idle. For a start after Boot this order, and that shadowing then begins at position 0, are DEDUCED:
R104 states them for Boot. -/
def freshRole (low : Bool) (k : Nat) : SliceRole :=
  if low then (if k = 0 then .position 0 else if k = 1 then .position 4 else if k = 2 then .spare else .idle)
  else if k < 8 then .position k else .spare

/-- Give every live slice its role for a mode, from the present tick on. -/
def WfcPixel.assign (w : WfcPixel) (now : Nat) (low : Bool) : WfcPixel :=
  let live := w.live
  { w.keep now with
    dwellFrom := now
    lowPower := low, shadowed := 0, settings := w.nextSettings, gainChanged := false
    slices := w.slices.mapIdx fun j s =>
      match live.findIdx? (· == j) with
      | some k => { s with role := freshRole low k }
      | none => s }

/-- Dwells run: calibration is enabled and the pixel has a spare in rotation (R102, R108). -/
def WfcPixel.rotates (w : WfcPixel) : Bool := (w.row == 0 || w.row == 2) && w.settings.enable

/-- The slice with a role. -/
def WfcPixel.sliceOf (w : WfcPixel) (r : SliceRole) : Option Nat :=
  (List.range 9).find? fun j => (w.slice j).role == r

/-- Give a slice a role. -/
def WfcPixel.setRole (w : WfcPixel) (j : Nat) (r : SliceRole) : WfcPixel :=
  { w with slices := modAt w.slices j fun s => { s with role := r } }

/-- A mode of a pixel takes effect: a fresh assignment, and 64 calibrating samples (R109), counted in ring samples, one to a
tick, in either mode (DEDUCED, log entry 13). While the converters stand they are the first 64 after their start. -/
def Dev.applyMode (d : Dev) (p : Nat) : Dev :=
  match d.wfc[p]? with
  | none => d
  | some w =>
    if w.modeFor == w.lowPower then d
    else if d.converting then
      (d.modWfc p fun w => w.assign d.sys.ticks w.modeFor).modPixel p fun f => { f with calSpans := addSpan d.sys.ticks 64 f.calSpans }
    else d.modWfc p fun w => { w.assign d.sys.ticks w.modeFor with calDue := true }

/-- The places of a retired slice are taken in the same mode: the spare takes its position, and the lowest idle
slice becomes the spare (R109, R125). -/
def WfcPixel.patch (w : WfcPixel) (was : SliceRole) : WfcPixel :=
  let w := match was with
    | .position q => match w.sliceOf .spare with
      | some k => w.setRole k (.position q)
      | none => w
    | _ => w
  if w.row == 2 && (w.sliceOf .spare).isNone then
    match w.sliceOf .idle with
    | some k => w.setRole k .spare
    | none => w
  else w

/-- The code of event 1890 for a reason (R124, R528): the correction that left its range, or the self-test code. -/
def reasonCode (reason : Nat) : Nat := if reason < 3 then Config.retireCode reason else reason - 2

/-- Retire a slice of a pixel for a reason (R108): 0 offset, 1 gain, 2 delay, 3 and 4 self-test with code 1 or 2. Its event
is limited for each pixel and reason (R124). Where the mode stays, the dwell begins again at the position then shadowed, and
the lowest idle slice becomes the spare where one is missing (DESIGN CHOICE, log entry 104: R108 and R125 say neither). -/
def Dev.retireSlice (d : Dev) (p j reason : Nat) : Dev :=
  match d.wfc[p]? with
  | none => d
  | some w =>
    let was := (w.slice j).role
    if was == .retired then d
    else
      let w' := (w.keep d.sys.ticks).setRole j .retired
      let d := d.modWfc p fun _ => { w' with settings := w'.nextSettings, gainChanged := false, dwellFrom := d.sys.ticks }
      let d := if w'.modeFor == w'.lowPower then d.modWfc p (·.patch was) else d.applyMode p
      let d := d.raiseLimited 1890 0 (8 * p + reason) [evNat p, evNat j, evNat (reasonCode reason), evNat w'.row]
      if w'.row == 4 && w.row != 4 then d.raiseLimited 1891 0 p [evNat p, .time d.now] else d

/-! ### Estimates of a dwell (R106) -/

/-- One comparison of a dwell after both corrections: its tick since Boot, the two codes, and the difference of the
neighbouring codes, which is twice the local slope. -/
structure Compared where
  tick : Nat
  active : Nat
  shadow : Nat
  slope : Int
  deriving DecidableEq, Repr

/-- The first tick of a dwell: its converters run and its position is due (R99, R102). -/
def Dev.dwellStart (d : Dev) (w : WfcPixel) : Nat :=
  let a := max w.dwellFrom ((d.acq.conv.map (·.start)).getD 0)
  a + (((w.shadowed : Int) - d.globalOf a) % 8).toNat

/-- A dwell lasts 2^`dwell` samples of its position, one every 8 ticks (R102). -/
def Dev.dwellOver (d : Dev) (w : WfcPixel) : Bool := d.dwellStart w + 8 * 2 ^ w.settings.dwell ≤ d.sys.ticks

/-- The slice that holds a position. -/
def WfcPixel.atPosition (w : WfcPixel) (p : Nat) : Slice :=
  (w.slices.toList.find? (·.role == .position p)).getD (Slice.initial .retired 0 0 0)

/-- One comparison of a dwell (R102, R106), in raw 12-bit slice codes. -/
structure DwellSample where
  /-- number of the position's sample in the dwell, from 0 -/
  index : Nat
  /-- code of the slice at the position -/
  active : Nat
  /-- code of the spare at the same tick -/
  shadow : Nat
  /-- codes of the neighbouring positions just before and just after -/
  before : Nat
  after : Nat
  deriving DecidableEq, Repr

/-- A comparison with its codes corrected (R106): the neighbours are the positions before and after, 4 apart in low-power
mode. -/
def Dev.compared (d : Dev) (w : WfcPixel) (x : DwellSample) : Compared :=
  let step := if w.lowPower then 4 else 1
  let at_ := fun (p : Nat) => w.atPosition (p % 8)
  let spare := (w.slices.toList.find? (·.role == .spare)).getD (Slice.initial .retired 0 0 0)
  { tick := d.dwellStart w + 8 * x.index, active := (at_ w.shadowed).correct x.active, shadow := spare.correct x.shadow
    slope := ((at_ (w.shadowed + step)).correct x.after : Int) - (at_ (w.shadowed + 8 - step)).correct x.before }

/-- A comparison is usable: neither code is at an end, and its sample carries no flag (R106, R125). -/
def Dev.usable (d : Dev) (p : Nat) (x : Compared) : Bool :=
  let ends := fun (c : Nat) => c == 0 || c == 4095
  !(ends x.active || ends x.shadow) && d.sampleFlags d.acq.conv p (x.tick : Int) == SampleFlags.none

/-- Distance of a sample from the position's running mean, in 1/65,536 code; the mean itself is free (R106). Its code is
that of the active slice and not that of the spare (DESIGN CHOICE, log entry 104: R106 says only "its code"). -/
def Compared.distance (x : Compared) (p : Nat) : Int := 65536 * (x.active : Int) - (Config.runningMean p x.tick).toNat

/-- The difference that the active slice shows against the spare. -/
def Compared.difference (x : Compared) : Int := (x.active : Int) - x.shadow

/-- Least-squares slope of the second of each pair on the first, as a numerator and a denominator. -/
def regression (xs : List (Int × Int)) : Int × Int :=
  let n : Int := xs.length
  let sx := (xs.map (·.1)).sum
  let sy := (xs.map (·.2)).sum
  (n * (xs.map fun x => x.1 * x.2).sum - sx * sy, n * (xs.map fun x => x.1 * x.1).sum - sx * sx)

/-- A quotient rounded to the nearest integer, or a free value where there is nothing to divide by. -/
def estimateQuot (use : Nat) (num den : Int) : Int :=
  if den = 0 then (Config.noEstimate use).toInt
  else if den < 0 then rneInt (-num) den.natAbs else rneInt num den.natAbs

/-- What a dwell measured of the slice that held the position: usable and active samples, and the estimates of the three
corrections that would cancel what it shows, in 1/65,536 of the units of R105, before normalisation. -/
structure DwellResult where
  usable : Nat
  active : Nat
  off : Int
  gc : Int
  dly : Int
  deriving DecidableEq, Repr

/-- `wfc_test` of the self-test schedule (R534). -/
def wfcTest (m : Option PisteMap) : Bool := mapBits m 0x0068 0 16 1 4 4 1 == 1

/-- A sample of the dwell is one that the spare shadows: in the first 1,024 it converts the test source where `wfc_test` is
set (R528). -/
def Dev.shadows (d : Dev) (w : WfcPixel) (x : DwellSample) : Bool :=
  x.index < 2 ^ w.settings.dwell && (!wfcTest d.map.active || 1024 ≤ x.index)

/-- The measurement of a dwell (R106): the mean difference, and the regressions of the difference on the distance from the
running mean and on the local slope. A tick is 3,906.25 steps of 0.1 ps. -/
def Dev.measureDwell (d : Dev) (p : Nat) (w : WfcPixel) (s : Slice) (xs : List DwellSample) : DwellResult :=
  let cs := ((xs.filter (d.shadows w)).map (d.compared w)).filter (d.usable p)
  let act := cs.filter fun x => 65536 * w.settings.activity ≤ (x.distance p).natAbs
  let g := regression (act.map fun x => (x.distance p, x.difference))
  let k := regression (act.map fun x => (x.slope, x.difference))
  let apart : Int := if w.lowPower then 4 else 1
  { usable := cs.length, active := act.length
    off := 65536 * s.off + estimateQuot d.free (65536 * 64 * (cs.map (·.difference)).sum) cs.length
    gc := 65536 * s.gc - estimateQuot (d.free + 1) (65536 * 65536 * 65536 * g.1) g.2
    dly := 65536 * s.dly - estimateQuot (d.free + 2) (512000000 * apart * k.1) k.2 }

/-- One correction moved towards its estimate (R107); the estimate is in 1/65,536 of the correction's unit. -/
def moveCorrection (v est : Int) (weight : Nat) : Int := v + rneInt (est - v * 65536) (65536 * 2 ^ weight)

/-- An estimate normalised so that those of the live slices average to 0 (R106). -/
def WfcPixel.normalised (w : WfcPixel) (f : Slice → Int) (s : Slice) : Int :=
  let all := (w.slices.toList.filter (·.role != .retired)).map f
  f s - rneInt all.sum all.length

/-- A slice with the estimates of its dwell, of which the unsupported ones keep their values (R106, R107). -/
def Slice.estimated (s : Slice) (r : DwellResult) (upOff upGain : Bool) : Slice :=
  { s with offEst := if upOff then r.off else s.offEst, gcEst := if upGain then r.gc else s.gcEst
           dlyEst := if upGain then r.dly else s.dlyEst }

/-- The corrections of slice j after a dwell (R107), and the first that leaves its range, if one does (R108). A change of
gain during the dwell discards its offset estimate (R125). -/
def correctedSlice (w : WfcPixel) (j : Nat) (r : DwellResult) : Slice × Option Nat :=
  let upOff := 1024 ≤ r.usable && !w.gainChanged
  let upGain := w.settings.minActive ≤ r.active
  let s := (w.slice j).estimated r upOff upGain
  let w := { w with slices := modAt w.slices j fun _ => s }
  let off := if upOff then moveCorrection s.off (w.normalised (·.offEst) s) w.settings.weight else s.off
  let gc := if upGain then moveCorrection s.gc (w.normalised (·.gcEst) s) w.settings.weight else s.gc
  let dly := if upGain then moveCorrection s.dly (w.normalised (·.dlyEst) s) w.settings.weight else s.dly
  let bad := if 4096 < off.natAbs then some 0 else if 3277 < gc.natAbs then some 1 else if 200 < dly.natAbs then some 2 else none
  ({ s with off := off, gc := gc, dly := dly, since := if upGain then 0 else s.since }, bad)

/-- The position after p in the rotation (R102, R109). -/
def nextPosition (low : Bool) (p : Nat) : Nat := if low then 4 - p else (p + 1) % 8

/-- What the converter test of a dwell read (R528): the sum of 256 codes at each of the four levels, and the bits of
[11:0] that were 1 and those that were 0 in all 1,024 samples. -/
structure TestResult where
  sums : List Nat
  ones : Nat
  zeros : Nat
  deriving DecidableEq, Repr

/-- The result of the 1,024 codes that the test reads, 256 at each level (R528). -/
def testResult (codes : List (List Nat)) : TestResult :=
  let xs := (List.range 4).flatMap fun k => (List.range 256).map fun i => ((codes.getD k [])[i]?.getD (Config.testCode k i).toNat) % 4096
  { sums := (List.range 4).map fun k => ((xs.drop (256 * k)).take 256).sum
    ones := xs.foldl (fun a x => a &&& x) 4095, zeros := xs.foldl (fun a x => a &&& (4095 - x)) 4095 }

/-- The factory code of a level of the test source (R528). -/
def testLevel (k : Nat) : Nat := 512 + 1024 * k

/-- The mean code at some level differs by more than 32 codes (R528). -/
def TestResult.meanBad (t : TestResult) : Bool :=
  (List.range 4).any fun k => decide (32 * 256 < ((t.sums[k]?.getD 0 : Int) - 256 * testLevel k).natAbs)

/-- The code of a failed test: 1 for a mean, 2 for a bit that never changed; none where the test passes (R528). -/
def TestResult.code (t : TestResult) : Option Nat :=
  if t.meanBad then some 1 else if t.ones % 4096 != 0 || t.zeros % 4096 != 0 then some 2 else none

/-- The converter test of the spare of a dwell (R528): a second failure in a row retires it. The second part says that
it has been retired. -/
def Dev.converterTest (d : Dev) (p : Nat) (t : TestResult) : Dev × Bool :=
  match d.wfc[p]? with
  | none => (d, false)
  | some w =>
    match w.sliceOf .spare with
    | none => (d, false)
    | some k =>
      if !(wfcTest d.map.active && w.rotates && d.converting) then (d, false)
      else
        match t.code with
        | none => (d.modWfc p fun w => { w with testFails := modAt w.testFails k fun _ => 0 }, false)
        | some c =>
          let d := d.modWfc p fun w => { w with testFails := modAt w.testFails k (· + 1) }
          if 2 ≤ getD w.testFails k 0 + 1 then (d.retireSlice p k (2 + c), true) else (d, false)

/-- The end of a dwell (R102 to R108), which must have run its length: the measured slice is corrected and becomes the
spare, the spare takes the position, and the next dwell begins under the settings that then hold. Event 1892 comes with the
64th starved dwell in a row and again with each further one, at most once a second (DESIGN CHOICE, log entry 104: R124 does
not say whether it is repeated). -/
def Dev.dwellEnd (d : Dev) (p : Nat) (xs : List DwellSample) : Dev :=
  match d.wfc[p]? with
  | none => d
  | some w =>
    match w.sliceOf (.position w.shadowed), w.sliceOf .spare with
    | some j, some k =>
      let r := d.measureDwell p w (w.slice j) xs
      let d := { d with free := d.free + 3 }
      let starved := if w.settings.minActive ≤ r.active then 0 else satInc 32 w.starved
      let aged := { w.keep d.sys.ticks with
        starved := starved, slices := w.slices.map fun s => { s with since := satInc 32 s.since } }
      let (s', bad) := correctedSlice aged j r
      let d := match bad with
        | some reason => (d.modWfc p fun _ => aged).retireSlice p j reason
        | none => d.modWfc p fun _ =>
            { ({ aged with slices := modAt aged.slices j fun _ => s' }.setRole j .spare).setRole k (.position w.shadowed) with
              shadowed := nextPosition w.lowPower w.shadowed, settings := w.nextSettings, gainChanged := false
              dwellFrom := d.sys.ticks }
      if 64 ≤ starved then d.raiseLimited 1892 0 p [evNat p, evNat starved] else d
    | _, _ => d

/-- A dwell of a pixel has run its length: the converters run, its slices rotate, and the samples have been taken (R102). -/
def Dev.dwellDue (d : Dev) (p : Nat) : Bool := d.converting && (d.wfc[p]?).any fun w => w.rotates && d.dwellOver w

/-- The converter test and the end of a dwell: a spare retired by its test ends the dwell without an update. -/
def Dev.dwellDone (d : Dev) (p : Nat) (xs : List DwellSample) (codes : List (List Nat)) : Dev :=
  if !d.dwellDue p then d
  else
    let (d, gone) := d.converterTest p (testResult codes)
    if gone then d else d.dwellEnd p xs

/-- The comparisons of a dwell from their columns, sample by sample from the dwell's first (R102). -/
def dwellSamples (active shadow before after : List Nat) : List DwellSample :=
  ((active.zip shadow).zip (before.zip after)).zipIdx.map fun x => ⟨x.2, x.1.1.1, x.1.1.2, x.1.2.1, x.1.2.2⟩

/-- DWELL_END: the raw codes of a pixel's dwell, one for each sample of the position: of its slice, of the spare, and of the
positions just before and just after; and the 256 codes that its converter test read at each of the four levels (R528). -/
def execDwellEnd (pixel : Nat) (active shadow before after first second third fourth : List Nat) (s : State) :
    Host.Outcome State Fault Refusal :=
  .next (s.onDev (·.dwellDone pixel (dwellSamples active shadow before after) [first, second, third, fourth]))

/-! ### What a map and commands set -/

/-- The calibration settings of a pixel in the converter table (R111). -/
def mapDwell (m : Option PisteMap) (p : Nat) : DwellSettings :=
  { enable := mapBits m 0x0020 0 (16 + 8 * p + 2) 1 1 1 1 == 1
    dwell := mapNum m 0x0020 0 (16 + 8 * p + 3) 1 20
    weight := mapNum m 0x0020 0 (16 + 8 * p + 4) 1 2
    activity := mapNum m 0x0020 0 (16 + 8 * p + 5) 1 16
    minActive := mapNum m 0x0020 0 (16 + 8 * p + 6) 2 4096 }

/-- The first dwell after a pause begins at a tick, under the settings that then hold (R111). -/
def WfcPixel.beginDwells (w : WfcPixel) (at_ : Nat) : WfcPixel :=
  { w with settings := w.nextSettings, dwellFrom := at_, gainChanged := false }

/-- New settings wait for the next dwell; where no dwell is in progress they hold at once, and the dwells start (R111). -/
def WfcPixel.withNext (w : WfcPixel) (converting : Bool) (now : Nat) (s : DwellSettings) : WfcPixel :=
  if converting && w.rotates then { w with nextSettings := s } else { w with nextSettings := s }.beginDwells now

/-- The converters start at a tick (R570): every pixel's dwells begin, and a change of mode made meanwhile flags the first 64
samples (R109). -/
def Dev.beginSampling (d : Dev) (at_ : Nat) : Dev :=
  { d with
    wfc := d.wfc.map fun w => { w.beginDwells at_ with calDue := false }
    fe := { d.fe with pixels := d.fe.pixels.mapIdx fun p f =>
      if (d.wfc[p]?).any (·.calDue) then { f with calSpans := addSpan at_ 64 f.calSpans } else f } }

/-- The converter table of the active map takes effect for one pixel (R109, R111). -/
def Dev.wfcFromMap (d : Dev) (p : Nat) : Dev :=
  let m := d.map.active
  (d.modWfc p fun w => { w.withNext d.converting d.sys.ticks (mapDwell m p) with
    lowAsked := mapBits m 0x0020 0 (16 + 8 * p + 2) 1 0 0 0 == 1 }).applyMode p

/-! ### Commands (R126) -/

/-- `WFC.STATUS`. -/
def wfcStatusKind : CmdKind := ⟨0x0300, false, upStates⟩

/-- An 8-byte entry of `WFC.STATUS` (R457). -/
def wfcEntry (d : Dev) (p : Nat) : List Byte :=
  match d.wfc[p]? with
  | none => []
  | some w => leBytes 2 p ++ leBytes 1 w.row ++ leBytes 1 w.live.length ++ leBytes 2 (min 65535 w.starved)
      ++ leBytes 1 (b2n (!w.nextSettings.enable) + 2 * b2n w.lowPower) ++ zeros 1

/-- WFC_STATUS. -/
def execWfcStatus (h : CmdHeader) (start : Nat) (s : State) : Host.Outcome State Fault Refusal :=
  .next (hostRun (.wfcStatus h start) wfcStatusKind h (reads fun d => page start 1024 8 (wfcEntry d)) s)

/-- `WFC.SET_MODE`. -/
def wfcSetModeKind : CmdKind := ⟨0x0301, true, [.ready, .running]⟩

/-- Set the mode of a range of pixels. -/
def Dev.setConverterMode (d : Dev) (r : Range) (mode : Nat) : Dev :=
  (List.range 1024).foldl (fun d p =>
    if r.has p then (d.modWfc p fun w => { w with lowAsked := mode == 1 }).applyMode p else d) d

/-- Set the mode at the next boundary (R109). -/
def wfcSetModeEff (i : Instr) (first last : Nat) : Effect := onDev fun _ _ d =>
  if pixelRange first last then atBoundary i d else (d, .done .outOfRange [])

/-- WFC_SET_MODE. -/
def execWfcSetMode (h : CmdHeader) (first last mode : Nat) (s : State) : Host.Outcome State Fault Refusal :=
  .next (hostRun (.wfcSetMode h first last mode) wfcSetModeKind h
    (wfcSetModeEff (.wfcSetMode h first last mode) first last) s)

/-- `WFC.CAL_CONTROL`. -/
def wfcCalControlKind : CmdKind := ⟨0x0302, false, [.ready, .running, .quiesce]⟩

/-- Pause or resume background calibration of one pixel; a dwell in progress at a pause ends without an update. -/
def WfcPixel.setCalibration (w : WfcPixel) (converting : Bool) (now : Nat) (run : Bool) : WfcPixel :=
  if run then w.withNext converting now { w.nextSettings with enable := true }
  else { w with nextSettings := { w.nextSettings with enable := false }, settings := { w.settings with enable := false }
                gainChanged := false }

/-- Pause or resume background calibration of a range of pixels (R126). -/
def wfcCalControlEff (first last run : Nat) : Effect := onDev fun _ _ d =>
  if pixelRange first last then
    ({ d with wfc := modRange d.wfc ⟨first, last⟩ fun _ w => w.setCalibration d.converting d.sys.ticks (run == 1) }, .done .ok [])
  else (d, .done .outOfRange [])

/-- WFC_CAL_CONTROL. -/
def execWfcCalControl (h : CmdHeader) (first last run : Nat) (s : State) : Host.Outcome State Fault Refusal :=
  .next (hostRun (.wfcCalControl h first last run) wfcCalControlKind h (wfcCalControlEff first last run) s)

/-- `WFC.READ_CAL`. -/
def wfcReadCalKind : CmdKind := ⟨0x0303, false, upStates⟩

/-- The role byte of a slice (R457). -/
def SliceRole.code : SliceRole → Nat
  | .position p => p
  | .spare => 8
  | .idle => 9
  | .retired => 255

/-- The 108 bytes of `WFC.READ_CAL` (R457). -/
def wfcCalData (w : WfcPixel) : List Byte :=
  (w.slices.toList.map fun s => leBytes 1 s.role.code ++ zeros 1 ++ leBytes 2 (toTwos 16 s.off)
    ++ leBytes 2 (toTwos 16 s.gc) ++ leBytes 2 (toTwos 16 s.dly) ++ leBytes 4 s.since).flatten

/-- Read one converter; OUT_OF_RANGE beyond pixel 1,023. -/
def wfcReadCalEff (pixel : Nat) : Effect := onDev fun _ _ d =>
  match d.wfc[pixel]? with
  | none => (d, .done .outOfRange [])
  | some w => (d, .done .ok (wfcCalData w))

/-- WFC_READ_CAL. -/
def execWfcReadCal (h : CmdHeader) (pixel : Nat) (s : State) : Host.Outcome State Fault Refusal :=
  .next (hostRun (.wfcReadCal h pixel) wfcReadCalKind h (wfcReadCalEff pixel) s)

end Sys2Proof.Machine
end

