-- ==== Sys2Proof/Machine/FrontEnd.lean ====
section
/-! DEFINITION. The pixel front end: gain changes, thresholds, bias, trim, gating and open-input checks
(R62 to R98). -/

namespace Sys2Proof.Machine

/-! ### Gain (R84 to R88) -/

/-- The pixel is in an open segment: a window that includes it has not had its last sample yet (R87). -/
def Dev.inOpenSegment (d : Dev) (p : Nat) : Bool :=
  match d.pixelFe p with | none => false | some f => f.openSegs.any (d.sys.ticks ≤ ·)

/-- `gain_defer` of a pixel's tile, in ticks (R82). -/
def Dev.gainDefer (d : Dev) (p : Nat) : Nat := usTicks (mapNum d.map.active 0x0013 0 (16 + 32 * tileOf p + 10) 2 10)

/-- The gain steps of the last 32,768 ticks and the one before them. -/
def recentGains (now : Nat) (l : List (Nat × Nat)) : List (Nat × Nat) :=
  let young := l.takeWhile fun x => now < x.1 + 32768
  l.take (young.length + 1)

/-- A gain step takes effect at the present sample boundary: 6 range-transition samples start, the pixel is unlit,
and the dwell in progress loses its offset estimate (R87, R125, R184). -/
def Dev.applyGain (d : Dev) (p g : Nat) : Dev :=
  let d := d.modPixel p fun f => { f with
    gain := g, waiting := none, history := recentGains d.sys.ticks ((d.sys.ticks, g) :: f.history)
    rangeSpans := addSpan d.sys.ticks 6 f.rangeSpans }
  let d := d.modWfc p fun w => { w with gainChanged := true }
  let ends := fun (e : Lit) => { e with cut := some (match e.cut with | none => d.sys.ticks | some c => c) }
  { d with slalom := { d.slalom with lit := modAt d.slalom.lit p (List.map ends) } }

/-- A converter sample boundary of a pixel: every tick, or in low-power mode every fourth (R87, R109). -/
def Dev.sampleBoundary (d : Dev) (p : Nat) : Bool := !(d.wfc[p]?).any (·.lowPower) || d.now.tick % 4 == 0

/-- A gain change falls due (R87, R88). The second part says that it waits for more than the next sample boundary. -/
def Dev.requestGain (d : Dev) (p g : Nat) (immediate : Bool) : Dev × Bool :=
  match d.pixelFe p with
  | none => (d, false)
  | some f =>
    if f.gain = g then (d.modPixel p fun f => { f with waiting := none }, false)
    else if d.inTransition p || !(immediate || !d.inOpenSegment p) then
      (d.modPixel p fun f => { f with waiting := some ⟨g, d.sys.ticks, immediate⟩ }, true)
    else if d.sampleBoundary p then (d.applyGain p g, false)
    else (d.modPixel p fun f => { f with waiting := some ⟨g, d.sys.ticks, immediate⟩ }, false)

/-- A gain change for a range of pixels (R449): it waits where it waits for any. -/
def Dev.requestGains (d : Dev) (r : Range) (g : Nat) (immediate : Bool) : Dev × Bool :=
  (List.range 1024).foldl (fun (d, w) p =>
    if r.has p then let (d, w') := d.requestGain p g immediate; (d, w || w') else (d, w)) (d, false)

/-- A waiting change takes effect when the pixel is in no open segment, or at once where it is immediate, and never
inside the 6 flagged samples of an earlier change (R87, R88). -/
def Dev.gainApplyDue (d : Dev) (p : Nat) : Dev :=
  match (d.pixelFe p).bind (·.waiting) with
  | none => d
  | some w =>
    if !d.inTransition p && (w.immediate || !d.inOpenSegment p) && d.sampleBoundary p then d.applyGain p w.gain else d

/-- A change that still waits `gain_defer` after it fell due acts as an immediate one (R87). -/
def Dev.gainDeferTimeout (d : Dev) (p : Nat) : Dev :=
  match (d.pixelFe p).bind (·.waiting) with
  | none => d
  | some w =>
    if w.due + d.gainDefer p ≤ d.sys.ticks then
      (d.modPixel p fun f => { f with waiting := some { w with immediate := true } }).gainApplyDue p
    else d

/-- Entry k of the gain schedule (R85): its pixels, gain, `immediate` and time. -/
def scheduleEntry (m : Option PisteMap) (k : Nat) : Range × Nat × Bool × TimeWord :=
  let o := 16 + 24 * k
  (⟨mapNum m 0x0011 0 o 2 0, mapNum m 0x0011 0 (o + 2) 2 0⟩, mapNum m 0x0011 0 (o + 4) 1 0, mapBits m 0x0011 0 (o + 5) 1 0 0 0 == 1,
    ⟨mapNum m 0x0011 0 (o + 13) 5 0, mapNum m 0x0011 0 (o + 9) 4 0, mapNum m 0x0011 0 (o + 8) 1 0⟩)

/-- An entry of the gain schedule has fallen due: its `at`, fine bin included, is not after the present sample
boundary (R86, R87). -/
def Dev.entryDue (d : Dev) (m : Option PisteMap) (k : Nat) : Bool := (scheduleEntry m k).2.2.2.le d.now

/-- Entries of the gain schedule that have fallen due, in table order (R86). -/
def Dev.gainScheduleDue (d : Dev) : Dev :=
  let m := d.map.active
  let due := ((List.range (mapCount m 0x0011 0)).drop d.fe.scheduleNext).takeWhile (d.entryDue m)
  due.foldl (fun d k =>
    let (r, g, imm, _) := scheduleEntry m k
    let (d, _) := d.requestGains r g imm
    { d with fe := { d.fe with scheduleNext := k + 1 } }) d

/-- The gain a pixel has under a map at the edge at which it becomes active: the latest schedule entry that is due,
else the pixel table's (R75, R86). -/
def Dev.mapGain (d : Dev) (p due : Nat) : Nat :=
  (List.range due).foldl (fun g k =>
    let (r, g', _, _) := scheduleEntry d.map.active k
    if r.has p then g' else g) (mapNum d.map.active 0x0010 0 (16 + 8 * p + 2) 1 0)

/-! ### Bias (R77, R78, R83, R500) -/

/-- A waiting open-input check may start: the tile is not gated, not ramping and not in a calibration run (R70). -/
def TileFe.freeForCheck (t : TileFe) (now : Nat) : Bool :=
  !(inSpans t.gatedSpans now || t.ramping || t.calibrating)

/-- A tile's discriminators are masked and its burn-out sources turn on (R68, R69). -/
def Dev.startCheck (d : Dev) (n : Nat) : Dev :=
  (d.loseTilePulses n).modTile n fun t => { t with
    check := .charging d.sys.ticks, checkWaiting := false, calSpans := openSpan d.sys.ticks t.calSpans }

/-- An open-input check falls due on a tile: it starts, waits, or is merged into the one under way (R68, R70). -/
def Dev.requestCheck (d : Dev) (n : Nat) : Dev :=
  match d.tileFe n with
  | none => d
  | some t =>
    if t.check != .none then d
    else if t.freeForCheck d.sys.ticks then d.startCheck n
    else d.modTile n fun t => { t with checkWaiting := true }

/-- A check that waited starts once what it waited for has ended (R70). -/
def Dev.resumeCheck (d : Dev) (n : Nat) : Dev :=
  match d.tileFe n with
  | none => d
  | some t => if t.checkWaiting && t.freeForCheck d.sys.ticks then d.startCheck n else d

/-- Every calibration run is aborted, and the checks that waited for one may start (R70, R540). -/
def Dev.endRuns (d : Dev) (cause : Nat) : Dev := (List.range 64).foldl Dev.resumeCheck (d.abortRuns cause)

/-- 10 mV in the unit of a tile's `output`. -/
def biasUnit : Nat := 256000

/-- `ramp` of a tile in the active map, in 0.1 V/ms (R82). -/
def Dev.mapRamp (d : Dev) (n : Nat) : Nat := mapNum d.map.active 0x0013 0 (16 + 32 * n + 4) 2 10

/-- The output of a tile's generator now, in 1/256,000 of 10 mV: a ramp moves it at its rate (R78). Of an active
discharge the spec gives only the bound of 1 V after 2 ms (R496). -/
def Dev.tileOutput (d : Dev) (n : Nat) (t : TileFe) : Nat :=
  if !t.ramping then t.output
  else if t.discharging then
    min (if d.sys.ticks < t.rampAt + usTicks 2000 then t.output else 100 * biasUnit) (Config.dischargeBias n d.sys.ticks).toNat
  else moveTowards t.output (t.target * biasUnit) (t.rampRate * (d.sys.ticks - t.rampAt))

/-- An output lies within 10 mV of a value in 10 mV (R78). -/
def nearBias (out v : Nat) : Bool := out ≤ (v + 1) * biasUnit && v * biasUnit ≤ out + biasUnit

/-- V_tile of a tile ramps from its present value to a new one (R78). A generator that its current limit had switched
off runs again (R500). -/
def Dev.rampTile (d : Dev) (n v : Nat) : Dev :=
  match d.tileFe n with
  | none => d
  | some t =>
    let out := d.tileOutput n t
    if nearBias out v && !t.ramping then
      d.modTile n fun t => { t with target := v, output := v * biasUnit, generatorOff := false }
    else ((d.abortRun n 1).loseTilePulses n).modTile n fun t => { t with
      target := v, output := out, ramping := true, rampAt := d.sys.ticks, rampRate := d.mapRamp n, discharging := false
      generatorOff := false, rampSpans := openSpan d.sys.ticks t.rampSpans }

/-- A ramp ends once the output is within 10 mV of its new value (R78); when a discharge reaches 0 V the output says
itself (R496). -/
def Dev.biasRampDone (d : Dev) (n : Nat) : Dev :=
  match d.tileFe n with
  | none => d
  | some t =>
    if t.ramping && (t.discharging || nearBias (d.tileOutput n t) t.target) then
      (d.modTile n fun t => { t with
        output := t.target * biasUnit, ramping := false, discharging := false
        rampSpans := closeSpan d.sys.ticks t.rampSpans }).resumeCheck n
    else d

/-- `v_set` of a tile in the active map (R82). -/
def Dev.mapBias (d : Dev) (n : Nat) : Nat := mapNum d.map.active 0x0013 0 (16 + 32 * n + 2) 2 0

/-- Each tile ramps from its present value to `v_set` (R83, R570). -/
def Dev.rampToMap (d : Dev) : Dev :=
  (List.range 64).foldl (fun d n => (d.modTile n fun t => { t with heldOff := false }).rampTile n (d.mapBias n)) d

/-- A tile goes to 0 V and stays there until the device state next becomes Ready (R497, R570): by active discharge, or at
its own `ramp` where no discharge is under way. -/
def Dev.tileToZero (d : Dev) (discharge : Bool) (n : Nat) : Dev :=
  if (d.tileFe n).any (·.discharging) then d.modTile n fun t => { t with heldOff := true }
  else (d.rampTile n 0).modTile n fun t => { t with heldOff := true, discharging := discharge && t.ramping }

/-- Every tile goes to 0 V: at its own `ramp` on entry to Fault-hold (R83), by active discharge at the power-fail warning
(R496). -/
def Dev.biasToZero (d : Dev) (discharge : Bool) : Dev := (List.range 64).foldl (·.tileToZero discharge ·) d

/-- A new V_tile for a tile: it ramps there. An output that is held at 0 V stays there, and the next entry to Ready ramps it
to `v_set` (R78, R497). -/
def Dev.setBias (d : Dev) (n v : Nat) : Dev :=
  if (d.tileFe n).any (·.heldOff) then d.modTile n fun t => { t with generatorOff := false } else d.rampTile n v

/-- V_trim of a pixel changes and settles in 1 µs, during which its samples are gated (R78, R81). -/
def Dev.setTrim (d : Dev) (p v : Nat) : Dev :=
  match d.pixelFe p with
  | none => d
  | some f =>
    if f.trim = v then d
    else (d.loseFalling p).modPixel p fun f => { f with trim := v, gatedSpans := addSpan d.sys.ticks 2560 f.gatedSpans }

/-! ### Gating (R79 to R81) -/

/-- The tile is gated off (R80). -/
def TileFe.gatedOff (t : TileFe) : Bool := t.sourceOff || t.commandOff || t.pulseEnds.isSome

/-- How far the gating switch has lowered the output now, in 1/256 of 10 mV (R79). -/
def TileFe.dropNow (t : TileFe) (now : Nat) : Nat :=
  moveTowards t.drop (if t.gatedOff then 2560 * t.gateStep else 0) (t.gateSlew * (now - t.dropAt))

/-- The switch's present drop, from which a change of its direction goes on (R79). -/
def TileFe.settleDrop (t : TileFe) (now : Nat) : TileFe := { t with drop := t.dropNow now, dropAt := now }

/-- The bias on a tile's output land, in 1/256,000 of 10 mV: what its generator gives, lowered by the gating switch
(R77, R79). -/
def Dev.landBias (d : Dev) (n : Nat) : Nat :=
  match d.tileFe n with
  | none => 0
  | some t => d.tileOutput n t - 1000 * t.dropNow d.sys.ticks

/-- Ticks from the start of a restore to the end of the gated flag: t_settle and `gate_guard` (R79, R81). -/
def restoreTicks (m : Option PisteMap) (n : Nat) : Nat :=
  let f := fun off d => mapNum m 0x0013 0 (16 + 32 * n + off) 1 d
  ceilDiv (f 6 0 * 2560) (f 7 50) + 1280 + f 8 2 * 256

/-- A change of what gates a tile: the gated flag starts with the switch to the lower bias, and its end is set when
the switch starts to restore it (R80, R81). -/
def Dev.changeGate (d : Dev) (n restore : Nat) (f : TileFe → TileFe) : Dev :=
  match d.tileFe n with
  | none => d
  | some t =>
    let f := fun (t : TileFe) => f (t.settleDrop d.sys.ticks)
    if !t.gatedOff && (f t).gatedOff then
      ((d.abortRun n 1).loseTilePulses n).modTile n fun t =>
        { f t with flagEnds := none, gatedSpans := openSpan d.sys.ticks t.gatedSpans }
    else if t.gatedOff && !(f t).gatedOff then d.modTile n fun t => { f t with flagEnds := some (d.sys.ticks + restore) }
    else d.modTile n f

/-- The same with the restore time of the active map. -/
def Dev.gateTile (d : Dev) (n : Nat) (f : TileFe → TileFe) : Dev := d.changeGate n (restoreTicks d.map.active n) f

/-- The gated flag of a tile ends (R81), and a check that waited for it may start (R70). -/
def Dev.gatedFlagEnd (d : Dev) (n : Nat) : Dev :=
  match d.tileFe n with
  | none => d
  | some t =>
    match t.flagEnds with
    | some e =>
      if e ≤ d.sys.ticks && !t.gatedOff then
        (d.modTile n fun t => { t with flagEnds := none, gatedSpans := closeSpan e t.gatedSpans }).resumeCheck n
      else d
    | none => d

/-- A periodic source gates its tile off at a tick of a second: in an interval of this second, or in the last
interval of the second before where that reaches over the boundary (R80). -/
def periodicOff (period phase len tick : Nat) (notFirst : Bool) : Bool :=
  (phase ≤ tick && (tick - phase) % period < len)
    || (notFirst && phase < ticksPerSecond
      && tick + ticksPerSecond < phase + (ticksPerSecond - 1 - phase) / period * period + len)

/-- The present level of an external trigger input at its land (R80). -/
def Dev.xtNow (d : Dev) (xt : Nat) : Bool := ((getD d.slalom.xt xt []).head?).any (·.2)

/-- What a tile's gate source asks for now (R80). -/
def Dev.sourceAsks (d : Dev) (n : Nat) : Bool :=
  let o := 16 + 32 * n
  let src := mapNum d.map.active 0x0013 0 (o + 1) 1 0
  if src = 1 then
    periodicOff (mapNum d.map.active 0x0013 0 (o + 12) 4 2560000) (mapNum d.map.active 0x0013 0 (o + 16) 4 0)
      (mapNum d.map.active 0x0013 0 (o + 20) 4 2560) d.time.tick (d.time.seconds != 0)
  else if 2 ≤ src && src ≤ 5 then d.xtNow (src - 2)
  else false

/-- The gate source of a tile is looked at again. -/
def Dev.updateSource (d : Dev) (n : Nat) : Dev := d.gateTile n fun t => { t with sourceOff := d.sourceAsks n }

/-- The pulse of `FE.GATE` on a tile ends (R80). -/
def Dev.gatePulseEnd (d : Dev) (n : Nat) : Dev :=
  match (d.tileFe n).bind (·.pulseEnds) with
  | some e => if e ≤ d.sys.ticks then d.gateTile n fun t => { t with pulseEnds := none } else d
  | none => d

/-! ### Open-input checks (R67 to R70) -/

/-- The pixel is found open now. -/
def PixelFe.isOpen (f : PixelFe) : Bool := match f.openSpans with | ⟨_, none⟩ :: _ => true | _ => false

/-- One covered pixel is compared with +1.0 V; the first finding in each direction raises its event (R69, R96). -/
def Dev.comparePixel (d : Dev) (p : Nat) (above : Bool) : Dev :=
  match d.pixelFe p with
  | none => d
  | some f =>
    if mapBits d.map.active 0x0010 0 (16 + 8 * p + 3) 1 1 1 1 == 0 || f.isOpen == above then d
    else
      let d := d.modPixel p fun f => { f with
        openSpans := if above then openSpan d.sys.ticks f.openSpans else closeSpan d.sys.ticks f.openSpans }
      if above then d.raiseLimited p 1 0 [evNat p, .time d.now] else d.raiseLimited p 2 0 [evNat p, .time d.now]

/-- At 300 µs each covered input is compared and the sources turn off (R68). -/
def Dev.checkCompare (d : Dev) (n above : Nat) : Dev :=
  match (d.tileFe n).map (·.check) with
  | some (OpenCheck.charging since) =>
    if since + usTicks 300 ≤ d.sys.ticks then
      ((List.range 16).foldl (fun d i => d.comparePixel (16 * n + i) (bit above i)) d).modTile n fun t =>
        { t with check := .recovering since }
    else d
  | _ => d

/-- The pixels of a tile found open, in ascending order (R96, R437). -/
def Dev.openPixels (d : Dev) (n : Nat) : List Nat :=
  ((List.range 16).map (16 * n + ·)).filter fun p => match d.pixelFe p with | none => false | some f => f.isOpen

/-- At 302 µs recovery ends and the discriminators are unmasked; the check is done (R68, R96). -/
def Dev.checkEnd (d : Dev) (n : Nat) : Dev :=
  match (d.tileFe n).map (·.check) with
  | some (OpenCheck.recovering since) =>
    if since + usTicks 302 ≤ d.sys.ticks then
      let d := d.modTile n fun t => { t with check := .none, calSpans := closeSpan d.sys.ticks t.calSpans }
      d.raiseLimited (1024 + n) 2 0 (evNat n :: (d.openPixels n).map evNat)
    else d
  | _ => d

/-- A tile's `open_period` falls due (R68). -/
def Dev.checkDue (d : Dev) (n : Nat) : Dev :=
  match d.tileFe n with
  | none => d
  | some t =>
    let period := mapNum d.map.active 0x0013 0 (16 + 32 * n + 24) 2 0
    if period != 0 && t.checkFrom + period * ticksPerSecond ≤ d.sys.ticks then
      (d.modTile n fun t => { t with checkFrom := d.sys.ticks }).requestCheck n
    else d

/-! ### A map becomes active -/

/-- Threshold pairs and hystereses of a pixel in the active map (R76). -/
def Dev.thresholdsFromMap (d : Dev) (p : Nat) : Dev :=
  let m := d.map.active
  let o := 16 + 36 * p
  d.modPixel p fun f => { f with
    thresholds := Vector.ofFn fun g => ⟨mapBits m 0x0012 0 (o + 4 + 4 * g) 2 9 0 0, mapBits m 0x0012 0 (o + 6 + 4 * g) 2 9 0 0⟩
    hystTiming := mapBits m 0x0012 0 (o + 2) 1 3 0 2, hystTrigger := mapBits m 0x0012 0 (o + 2) 1 7 4 2 }

/-- What the front end takes from a map that becomes active (R75, R78, R83, R86, R97), the gate sources following it
while the earlier source's settling runs on under `old`. DESIGN CHOICE (log entry 12): a tile's `open_period` counts from here, and
then from the tick at which each check fell due; the spec does not say from when. -/
def Dev.feFromMap (d : Dev) (old : Option PisteMap) : Dev :=
  let m := d.map.active
  let due := ((List.range (mapCount m 0x0011 0)).takeWhile (d.entryDue m)).length
  let d := { d with fe := { d.fe with scheduleNext := due } }
  let d := (List.range 1024).foldl (fun d p =>
    ((d.thresholdsFromMap p).requestGain p (d.mapGain p due) true).1.setTrim p (mapNum m 0x0010 0 (16 + 8 * p + 4) 1 0)) d
  let d := (List.range 64).foldl (fun d n =>
    (d.changeGate n (restoreTicks old n) fun t => { t with sourceOff := d.sourceAsks n }).modTile n fun t =>
      { t with
        checkFrom := d.sys.ticks, gateStep := mapNum m 0x0013 0 (16 + 32 * n + 6) 1 0
        gateSlew := mapNum m 0x0013 0 (16 + 32 * n + 7) 1 50 }) d
  let d := (List.range 64).foldl (fun d n =>
    d.setBias n (d.mapBias n)) d
  if d.fe.checkedOnce then d
  else (List.range 64).foldl Dev.requestCheck { d with fe := { d.fe with checkedOnce := true } }

end Sys2Proof.Machine
end

