-- ==== Sys2Proof/Machine/Schuss.lean ====
section
/-! DEFINITION. The Schuss lanes: messages, transmit queues, slots, delineation (R197 to R199, R355 to R360). -/

namespace Sys2Proof.Machine

/-! ### The arm and fire table (R208) -/

/-- A bit of byte 0 of the arm and fire table. -/
def armFireBit (m : Option PisteMap) (i dflt : Nat) : Bool := mapBits m 0x0032 0 16 1 i i dflt == 1

/-- Role of a Schuss lane: 0 Idle, 1 Up, 2 Down; Idle while no map is active (R208, R363). -/
def laneRole (m : Option PisteMap) (l : Nat) : Nat := mapBits m 0x0032 0 20 1 (2 * l + 1) (2 * l) 0

/-- Group of a Schuss lane. -/
def laneGroup (m : Option PisteMap) (l : Nat) : Nat := mapBits m 0x0032 0 21 1 (2 * l + 1) (2 * l) l

/-- `fire_id` of the module (R208). -/
def fireId (m : Option PisteMap) : Nat := mapBits m 0x0032 0 28 2 11 0 0

/-- The lane transmits: a map is active, its role is not Idle and the timing loop is locked (R355, R363). -/
def Dev.schussRuns (d : Dev) (l : Nat) : Bool := laneRole d.map.active l != 0 && d.time.locked

/-! ### Messages (R356) -/

/-- A Schuss message as its type gives it. -/
inductive Schuss where
  | fire (fireId course g : Nat)
  | arm (disarm : Bool) (seq mask t128 : Nat)
  | busy (fireId : Nat) (set : Bool) (seq : Nat)
  | time (sub id data : Nat)
  | idle (fireId : Nat) (delineated : Bool) (counter : Nat)
  deriving DecidableEq, Repr

/-- Content bits [63:12] of a message, as a 52-bit number (R356). -/
def Schuss.content : Schuss → Nat
  | .fire i c g => 2 ^ 39 * i + 2 ^ 35 * c + g
  | .arm dis s m t => 2 ^ 51 + 2 ^ 49 * b2n dis + 2 ^ 41 * s + 2 ^ 25 * m + t
  | .busy i set s => 6 * 2 ^ 49 + 2 ^ 37 * i + 2 ^ 36 * b2n set + 2 ^ 32 * s
  | .time sub i x => 14 * 2 ^ 48 + 2 ^ 46 * sub + 2 ^ 42 * i + x
  | .idle i del n => 15 * 2 ^ 48 + 2 ^ 36 * i + 2 ^ 35 * b2n del + 2 ^ 19 * n

/-- The message that content spells (R356). -/
def schussOf (c : Nat) : Schuss :=
  if !bit c 51 then .fire (bits c 50 39) (bits c 38 35) (bits c 34 0)
  else if !bit c 50 then .arm (bit c 49) (bits c 48 41) (bits c 40 25) (bits c 24 0)
  else if !bit c 49 then .busy (bits c 48 37) (bit c 36) (bits c 35 32)
  else if !bit c 48 then .time (bits c 47 46) (bits c 45 42) (bits c 41 0)
  else .idle (bits c 47 36) (bit c 35) (bits c 34 19)

/-- The 64-bit message of a content with its check (R356, R358). -/
def schussWord (content : Nat) : Nat := content * 4096 + crc12 content

/-- The check of a 64-bit message is valid (R358). -/
def schussOk (m : Nat) : Bool := schussWord (m / 4096) == m

/-! ### Transmit queues (R199) -/

/-- Change a Schuss lane. -/
def Dev.modSchuss (d : Dev) (l : Nat) (f : SchussLane → SchussLane) : Dev := { d with schuss := modAt d.schuss l f }

/-- A Schuss lane by number. -/
def Dev.schussLane (d : Dev) (l : Nat) : Option SchussLane := d.schuss[l]?

/-- Messages of other types than FIRE that a lane can take. -/
def othersLimit : Nat := 16

/-- A FIRE message joins a lane's queue: at most 3 wait (R199). -/
def Dev.queueFire (d : Dev) (l : Nat) (m : SchussMsg) (key : Nat) : Dev :=
  match d.schussLane l with
  | none => d
  | some x =>
    if !x.up then d
    else if 3 ≤ x.fires.length then
      (d.modSchuss l fun x => { x with
        slalomDropped := (x.slalomDropped + 1) % 2 ^ 64, fireFull := (x.fireFull + 1) % 2 ^ 32 }).raiseLimited 1251 0 l
        [evNat l, evNat key]
    else d.modSchuss l fun x => { x with fires := x.fires ++ [m] }

/-- A message of another type joins a lane's queue: at most 16 wait (R199). `typ` is its place in R197's list. -/
def Dev.queueOther (d : Dev) (l : Nat) (m : OtherMsg) (typ : Nat) : Dev :=
  match d.schussLane l with
  | none => d
  | some x =>
    if !x.up then d
    else if othersLimit ≤ x.others.length then
      (d.modSchuss l fun x => { x with
        slalomDropped := (x.slalomDropped + 1) % 2 ^ 64, otherFull := (x.otherFull + 1) % 2 ^ 32 }).raiseLimited 1252 0 l
        [evNat l, evNat typ]
    else d.modSchuss l fun x => { x with others := x.others ++ [m] }

/-- The place of a message's type in event 1252: FIRE, ARM, DISARM, BUSY, TIME (R211). -/
def Schuss.typeCode : Schuss → Nat
  | .fire .. => 0
  | .arm dis _ _ _ => if dis then 2 else 1
  | .busy .. => 3
  | _ => 4

/-- Send a message on the enabled lanes that a test picks. -/
def Dev.sendOn (d : Dev) (m : Schuss) (relayed : Bool) (key : Nat) (pick : Nat → Bool) : Dev :=
  (List.range 4).foldl (fun d l =>
    if laneRole d.map.active l != 0 && pick l then
      match m with
      | .fire .. => d.queueFire l ⟨m.content, relayed⟩ key
      | _ => d.queueOther l (.plain ⟨m.content, relayed⟩) m.typeCode
    else d) d

/-- Originate a message on every enabled lane. -/
def Dev.originate (d : Dev) (m : Schuss) (key : Nat) : Dev := d.sendOn m false key fun _ => true

/-- Relay a message on every enabled lane of every other group (R198). -/
def Dev.relay (d : Dev) (m : Schuss) (key from' : Nat) : Dev :=
  d.sendOn m true key fun l => laneGroup d.map.active l != laneGroup d.map.active from'

/-! ### Up and down (R358, R359) -/

/-- A lane goes down: what waits is discarded (R199, R212), event 1256. An exchange whose response A has come stays until it is
complete or its 20 µs are over (R362). -/
def Dev.schussDown (d : Dev) (l cause : Nat) : Dev :=
  match d.schussLane l with
  | none => d
  | some x =>
    if !x.up then d
    else
      (d.modSchuss l fun x => { x with
        up := false, fires := [], others := [], exchange := x.exchange.filter (·.t4.isSome)
        slalomDropped := (x.slalomDropped + x.fires.length + x.others.length) % 2 ^ 64 }).raise 1256 0 [evNat l, evNat cause]

/-- A lane comes up, event 1257. -/
def Dev.schussUp (d : Dev) (l : Nat) : Dev :=
  match d.schussLane l with
  | none => d
  | some x => if x.up then d else (d.modSchuss l fun x => { x with up := true }).raise 1257 0 [evNat l, evNat x.farId]

/-- A lane loses delineation (R358). -/
def Dev.schussLost (d : Dev) (l : Nat) : Dev :=
  (d.modSchuss l fun x => { x with delineated := false, run := 0, runs := Vector.replicate 64 0 }).schussDown l 0

/-- A lane that no longer runs: its transmitter is at electrical idle, its receiver receives nothing (R355, R363). -/
def Dev.schussStop (d : Dev) (l : Nat) : Dev :=
  (d.schussLost l).modSchuss l fun x => { x with
    line := none, slotAt := none, fires := [], others := [], farDelineated := false, fresh := 0 }

/-- Every lane that has ceased to run stops: its role is Idle, or the timing loop is not locked (R355, R363). -/
def Dev.schussCheck (d : Dev) : Dev := (List.range 4).foldl (fun d l => if d.schussRuns l then d else d.schussStop l) d

/-- A delineated receiver's message with an invalid check: discarded; the fourth in a row loses delineation (R358). -/
def Dev.schussBad (d : Dev) (l : Nat) : Dev :=
  match d.schussLane l with
  | none => d
  | some x =>
    let d := d.modSchuss l fun x => { x with discardedCount := (x.discardedCount + 1) % 2 ^ 64, run := x.run + 1 }
    if 4 ≤ x.run + 1 then d.schussLost l else d

/-- A receiver that is not delineated tests the message that ends with the latest bit, at that bit's offset: the eighth in a row with
a valid check delineates it (R358). -/
def SchussLane.testOffset (x : SchussLane) : SchussLane :=
  if schussOk x.window then
    let n := getD x.runs x.clock 0 + 1
    if 8 ≤ n then { x with delineated := true, offset := x.clock, run := 0, runs := Vector.replicate 64 0 }
    else { x with runs := modAt x.runs x.clock fun _ => n }
  else { x with runs := modAt x.runs x.clock fun _ => 0 }

/-- The receiver takes a line bit (R358): it descrambles it and, once 58 bits have synchronised the descrambler and a message can be
whole, tests all 64 offsets; when delineated, the bit may end the message of a slot, which is the second part. -/
def SchussLane.takeBit (x : SchussLane) (b : Bool) : SchussLane × Option Nat :=
  let (o, s) := schussDescramble x.descrambler b
  let x := { x with
    descrambler := s, window := (x.window * 2 + b2n o) % 2 ^ 64, clock := (x.clock + 1) % 64, fresh := min 122 (x.fresh + 1) }
  if x.delineated then (x, if x.clock = x.offset then some x.window else none)
  else if x.fresh < 122 then (x, none)
  else (x.testOffset, none)

/-- The receiver takes the 64 line bits of a slot time, bit 63 first. -/
def SchussLane.takeBits (x : SchussLane) (received : Nat) : SchussLane × Option Nat :=
  (bitsOf 64 received).reverse.foldl (fun (y : SchussLane × Option Nat) b =>
    match y.1.takeBit b with
    | (x, m) => (x, m.or y.2)) (x, none)

/-- Receive 64 line bits on a lane: a receiver that becomes delineated brings the lane up where the latest idle message had the
delineated bit (R359), and the message they complete, where its check is valid and the receiver is delineated, is acted on. -/
def Dev.schussReceive (d : Dev) (l received : Nat) (act : Dev → Schuss → Dev) : Dev :=
  if !d.schussRuns l then d
  else match d.schussLane l with
    | none => d
    | some x =>
      let (x', word) := x.takeBits received
      let d := d.modSchuss l fun _ => x'
      let d := if !x.delineated && x'.delineated && x'.farDelineated then d.schussUp l else d
      match word with
      | none => d
      | some m =>
        if schussOk m then
          act (d.modSchuss l fun x => { x with run := 0, receivedCount := (x.receivedCount + 1) % 2 ^ 64 }) (schussOf (m / 4096))
        else d.schussBad l

/-- SCHUSS_DELINEATION_LOST: four invalid checks in a row on a lane. -/
def execSchussDelineationLost (lane : Nat) (s : State) : Host.Outcome State Fault Refusal :=
  .next (s.onDev fun d => if (d.schussLane lane).any (·.delineated) then d.schussLost lane else d)

/-- An idle message updates what the far end says of its receiver, and with it the lane's up state (R359). -/
def Dev.idleReceived (d : Dev) (l : Nat) (m : Schuss) : Dev :=
  match m with
  | .idle i del _ =>
    let d := d.modSchuss l fun x => { x with farId := i, farDelineated := del }
    if del then d.schussUp l else d.schussDown l 1
  | _ => d

/-- SCHUSS_IDLE_MESSAGE: 64 line bits received on a lane, which end an idle message. -/
def execSchussIdleMessage (lane received : Nat) (s : State) : Host.Outcome State Fault Refusal :=
  .next (s.onDev fun d => d.schussReceive lane received fun d m => d.idleReceived lane m)

/-! ### Slots (R355, R361) -/

/-- The time word's global fine-bin count at an instant of the present tick. -/
def Dev.globalFine (d : Dev) (fine : Nat) : Nat := d.globalNow * 128 + fine

/-- The message that the head of a lane's queue gives in a slot whose first bit leaves at a fine bin, with the lane
after it: a FIRE first, then the others in order, else an idle message. The flags are: counted by Slalom, relayed. -/
def Dev.slotMessage (d : Dev) (x : SchussLane) (fine : Nat) : Nat × SchussLane × Bool × Bool :=
  let here : Int := (d.sys.ticks * 128 + fine : Nat)
  match x.fires, x.others with
  | f :: fs, _ => (f.content, { x with fires := fs }, true, f.relayed)
  | [], .plain m :: os => (m.content, { x with others := os }, true, m.relayed)
  | [], .request id :: os =>
    ((Schuss.time 0 id 0).content, { x with others := os, exchange := some ⟨id, here, none, none, none, none⟩ }, false, false)
  | [], .response id 1 _ :: os =>
    ((Schuss.time 1 id (d.globalFine fine % 2 ^ 42)).content, { x with others := os, answered := some (id, here) }, false, false)
  | [], .response id 2 t2 :: os =>
    let t3 := match x.answered with | some (i, t) => if i = id then t else here | none => here
    ((Schuss.time 2 id ((t3 - t2).toNat % 2 ^ 24)).content, { x with others := os }, false, false)
  | [], .response id sub _ :: os =>
    let t3 := match x.answered with | some (i, t) => if i = id then t else here | none => here
    let f3 := (d.globalFine fine : Int) - (here - t3)
    ((Schuss.time sub id ((f3 / 128).toNat / ticksPerSecond % 2 ^ 40)).content, { x with others := os }, false, false)
  | [], [] =>
    ((Schuss.idle (fireId d.map.active) x.delineated x.idleCounter).content,
      { x with idleCounter := (x.idleCounter + 1) % 2 ^ 16 }, false, false)

/-- Responses that can no longer be sent within 51.2 µs of their request are not sent (R361). -/
def Dev.dropLateAnswers (d : Dev) (x : SchussLane) : SchussLane :=
  { x with others := x.others.filter fun o =>
      match o with
      | .response _ 1 t2 => decide ((d.sys.ticks * 128 : Nat) ≤ t2 + 131072 * 128)
      | .response id _ t2 => decide ((d.sys.ticks * 128 : Nat) ≤ t2 + 131072 * 128) || (x.answered.any (·.1 == id))
      | _ => true }

/-- The 64 scrambled line bits of a message, the first sent as bit 63, and the scrambler after them (R358). -/
def schussLine (s word : Nat) : Nat × Nat :=
  let (bs, s) := schussScramble s (bitsOf 64 word).reverse
  (ofBits bs.reverse, s)

/-- The fine bin at which a slot begins within a tick of the second, where one does: 400,000,000 slots a second from tick 0 on, one
every 6.4 ticks (R355). -/
def slotFine (tick : Nat) : Option Nat :=
  let k := ceilDiv (5 * tick) 32
  if 32 * k < 5 * (tick + 1) then some ((32 * k - 5 * tick) * 128 / 5) else none

/-- A slot of a lane that runs begins at a fine bin of this tick: it carries the head of the queue while the lane is up, else an idle
message. -/
def Dev.schussSlot (d : Dev) (l fine : Nat) : Dev :=
  match d.schussLane l with
  | none => d
  | some x =>
    if !d.schussRuns l || x.slotAt == some d.sys.ticks then d
    else
      let (c, x', counted, relayed) := d.slotMessage (d.dropLateAnswers x) fine
      let d := if relayed then d.measureLatency 3 l else d
      let (line, scrambler) := schussLine x.scrambler (schussWord c)
      d.modSchuss l fun _ => { x' with
        slotAt := some d.sys.ticks, line := some line, scrambler := scrambler, sentCount := (x.sentCount + 1) % 2 ^ 64
        slalomSent := (x.slalomSent + b2n counted) % 2 ^ 64, slalomRelayed := (x.slalomRelayed + b2n relayed) % 2 ^ 64 }

/-- SCHUSS_SLOT: the slot of a lane that begins at this fine bin of the tick, where one does. -/
def execSchussSlot (lane fine : Nat) (s : State) : Host.Outcome State Fault Refusal :=
  .next (s.onDev fun d => if slotFine d.time.tick = some fine then d.schussSlot lane fine else d)

end Sys2Proof.Machine
end

