-- ==== Sys2Proof/Machine/Acq.lean ====
section
/-! DEFINITION. Acquisition: freeze orders, raw segments, missed stubs, the busy condition and the counters
(R214 to R246). -/

namespace Sys2Proof.Machine

/-! ### Lit pixels (R184) -/

/-- The edges light the pixel at a tick, for a least lit time. -/
def Lit.holds (e : Lit) (stretch k : Nat) : Bool :=
  e.rise ≤ k && (match e.cut with | none => true | some c => k < c)
    && (match e.fall with | none => true | some f => k < max f (e.rise + stretch))

/-- `stretch` of the arm and fire table (R208). -/
def stretchOf (m : Option PisteMap) : Nat := mapNum m 0x0032 0 17 1 10

/-- The front end takes a pixel's primitives away at a tick: gating, a ramp, a check or a calibration run
(R69, R81, R517). -/
def Dev.maskedAt (d : Dev) (p k : Nat) : Bool :=
  (match d.tileFe (tileOf p) with
    | none => false
    | some t => inSpans t.gatedSpans k || inSpans t.rampSpans k || inSpans t.calSpans k)
    || (match d.pixelFe p with | none => false | some f => inSpans f.gatedSpans k)

/-- A pixel is lit at a tick since Boot under a map (R184). -/
def Dev.litAt (d : Dev) (m : Option PisteMap) (p k : Nat) : Bool :=
  pixelEnabled m p && (getD d.slalom.lit p []).any (·.holds (stretchOf m) k) && !d.maskedAt p k

/-- Lit pixels of a tile at a tick under a map. -/
def Dev.litCount (d : Dev) (m : Option PisteMap) (n k : Nat) : Nat := ((List.range 16).filter fun i => d.litAt m (16 * n + i) k).length

/-! ### Regions of interest (R217 to R219, R225, R232) -/

/-- `look_back` of a course's instance (R218). -/
def lookBackOf (m : Option PisteMap) (c : Nat) : Nat := mapNum m 0x0039 c 16 2 24

/-- `samples` of a course's instance. -/
def samplesOf (m : Option PisteMap) (c : Nat) : Nat := mapNum m 0x0039 c 18 2 64

/-- `tile_mode` of a course's instance. -/
def tileMode (m : Option PisteMap) (c : Nat) : Bool := mapNum m 0x0039 c 20 1 0 == 1

/-- `tile_min` of a course's instance. -/
def tileMin (m : Option PisteMap) (c : Nat) : Nat := mapNum m 0x0039 c 21 1 1

/-- `pixel_mask` of a course's instance holds a pixel. -/
def inPixelMask (m : Option PisteMap) (c p : Nat) : Bool := bit (mapNum m 0x0039 c (32 + p / 8) 1 255) (p % 8)

/-- An instance can select a pixel (R232). -/
def selectable (m : Option PisteMap) (c p : Nat) : Bool := tileMode m c || inPixelMask m c p

/-- Words of a sample area and their width for an averaging (R225). -/
def areaWords (samples avg : Nat) : Nat × Nat := (samples / 2 ^ avg, 12 + min avg 4)

/-- Bytes of a raw sample area (R231). -/
def areaBytes (samples avg : Nat) : Nat := 4 * ceilDiv ((areaWords samples avg).1 * (areaWords samples avg).2) 32

/-- The largest raw size L of an instance under averagings (R232). -/
def rawSize (m : Option PisteMap) (c : Nat) (avg : Nat → Nat) : Nat :=
  68 + (((List.range 1024).filter (selectable m c)).map fun p =>
    8 + 8 * (maxHits m + 6) + areaBytes (samplesOf m c) (avg p)).sum

/-! ### Resources (R237, R240) -/

/-- Free descriptors. -/
def Dev.freeDesc (d : Dev) : Nat := 65536 - d.acq.segments.length

/-- Free segment memory in bytes. -/
def Dev.freeMem (d : Dev) : Nat := 64 * 2 ^ 20 - (d.acq.segments.map (·.bytes)).sum

/-- The module sends a BUSY set or clear with its next sequence number (R203). -/
def Dev.sendBusy (d : Dev) (set : Bool) : Dev :=
  let seq := (d.slalom.busySeq + 1) % 16
  let d := { d with slalom := { d.slalom with
    busySeq := seq, busySent := if set then some d.sys.ticks else none
    knownBusy := d.slalom.knownBusy ++ [(fireId d.map.active, seq, d.sys.ticks)] } }
  d.originate (.busy (fireId d.map.active) set seq) 0

/-- The busy condition begins or ends as free descriptors and memory cross their water marks (R240, R244). -/
def Dev.checkBusy (d : Dev) : Dev :=
  match d.acq.busySince with
  | none =>
    if d.freeDesc < d.acq.descLow || d.freeMem < d.acq.memLow * 1024 then
      (({ d with acq := { d.acq with busySince := some d.sys.ticks } }).raise 1312 0 [evNat d.freeDesc, evNat d.freeMem]).sendBusy true
    else d
  | some since =>
    if d.acq.descHigh ≤ d.freeDesc && d.acq.memHigh * 1024 ≤ d.freeMem then
      (({ d with acq := { d.acq with busySince := none } }).raise 1313 0 [evNat ((d.sys.ticks - since) / 2560)]).sendBusy false
    else d

/-! ### Freeze orders and missed stubs (R217, R237 to R239) -/

/-- A freeze order becomes a missed stub of a cause; the stub queue holds 1,024 (R238, R239). -/
def Dev.makeStub (d : Dev) (o : FreezeOrder) (cause : Nat) : Dev :=
  let d := d.modAcqCounters fun c => { c with stubs := modAt c.stubs (cause - 1) fun n => (n + 1) % 2 ^ 64 }
  let d := d.raiseLimited 1314 0 cause [evNat cause, evNat o.key, evNat o.course]
  if d.acq.stubs.length < 1024 then { d with acq := { d.acq with stubs := d.acq.stubs ++ [⟨o, cause⟩] } }
  else
    let n := (d.acq.counters.stubLost + 1) % 2 ^ 64
    (d.modAcqCounters fun c => { c with stubLost := n }).raiseLimited 1315 0 0 [evNat n]

/-- Every pixel that a window includes is in an open segment until its last sample (R87). -/
def Dev.openWindow (d : Dev) (m : Option PisteMap) (course : Nat) (last : Int) : Dev :=
  if last < d.sys.ticks then d
  else
    let note := fun (p : Nat) (f : PixelFe) =>
      if selectable m course p then
        { f with openSegs := last.toNat :: f.openSegs.filter (d.sys.ticks ≤ ·) }
      else f
    { d with fe := { d.fe with pixels := d.fe.pixels.mapIdx note } }

/-- The old map serves a candidate: its fire tick, in ticks since Boot, precedes E and the old map is still resident (R54,
R202). -/
def Dev.oldServes (d : Dev) (fire : Int) : Bool := d.map.old.isSome && decide (fire < d.map.activeAt)

/-- The map that serves a candidate of a fire time (R202). -/
def Dev.mapAt (d : Dev) (t : TimeWord) : Option PisteMap :=
  if d.oldServes ((t.globalTick : Int) - d.globalNow + d.sys.ticks) then d.map.old else d.map.active

/-- The freeze order of an accepted candidate (R196, R217). -/
def Dev.makeOrder (d : Dev) (course : Nat) (time : TimeWord) (key : Nat) (followed : Bool) : FreezeOrder :=
  let m := d.mapAt time
  let fire : Int := (time.globalTick : Int) - d.globalNow + d.sys.ticks
  let old := d.oldServes fire
  let avg := if old then d.acq.oldAvg else d.acq.avg
  { course := course, fire := fire, time := time, key := key, seq := d.acq.nextSeq, followed := followed
    deadTotal := d.acq.deadTotal, lookBack := lookBackOf m course, samples := samplesOf m course
    reserve := rawSize m course fun p => getD avg p 0
    temps := (List.range 64).map fun n => d.temperatureUnder old n (fire - lookBackOf m course), oldMap := old, avg := avg.toList
    table := if old then d.cmp.oldTable else (d.cmp.tables.head?.map (·.number)).getD 0
    parity := if d.slalom.hurt then .poisoned else .good, formed := d.sys.ticks }

/-- An accepted candidate gives ACQ a freeze order (R196, R217): it enters crossing 0, or becomes a missed stub where
the crossing is full (R238). -/
def Dev.giveOrder (d : Dev) (course : Nat) (time : TimeWord) (key : Nat) (followed : Bool) : Dev :=
  let o := d.makeOrder course time key followed
  let d := { d with acq := { d.acq with nextSeq := d.acq.nextSeq + 1 } }
  let d := d.modAcqCounters fun c => { c with accepted := (c.accepted + 1) % 2 ^ 64 }
  let d := d.openWindow (d.mapAt time) course (o.fire - o.lookBack + o.samples - 1)
  if d.acq.orders.length < crossingDepth d.map.active 0 0 4096 then
    let (d, bits) := d.writeForm 0 0 o.parity false
    ({ d with acq := { d.acq with orders := d.acq.orders ++ [{ o with parity := bits }] } }).drainTest
  else d.makeStub o 4

/-! ### Building a segment (R216, R221, R222) -/

/-- The word the builder reads for a pixel at a tick: code 0 where the position is not written (R216). -/
def Dev.builderWord (d : Dev) (p : Nat) (k : Int) : Nat :=
  if !writtenAt d.acq.conv k then 0 else d.ringAt p k.toNat

/-- The pair of the tag frame that contains the segment's first sample (R173). -/
def Dev.pairFor (d : Dev) (p : Nat) (o : FreezeOrder) : CalPair :=
  match d.tdcPixel p with
  | none => factoryPair p
  | some t =>
    if (d.globalNow : Int) - sinceEdge d.framePhase d.globalNow ≤ o.firstGlobal then t.applied else t.previous

/-- The gain step of a pixel at a tick. -/
def gainAt (f : PixelFe) (k : Int) : Nat :=
  match f.history.find? fun h => decide ((h.1 : Int) ≤ k) with
  | some h => h.2
  | none => (f.history.getLast?.map (·.2)).getD f.gain

/-- The block of one pixel as the builder copies it: the codes of its window, those of its ring words that fail their parity,
and the hits its tile's history then holds (R221, R223, R396). -/
def Dev.copyBlock (d : Dev) (o : FreezeOrder) (k0 : Int) (p : Nat) : Block :=
  let words := (List.range o.samples).map fun (i : Nat) => d.builderWord p (k0 + (i : Int))
  let gone := (match d.tdcPixel p with | none => [] | some t => t.leftHistory).filter fun e => decide (128 * o.firstGlobal ≤ e)
  let b : Block := {
    pixel := p, gain := (d.pixelFe p).elim 0 (gainAt · k0), avg := o.avg[p]?.getD 0, pair := d.pairFor p o
    openInput := false, hits := [], annotations := [], raw := words.map (· % 4096), words := [], width := 0
    leftOut := 0, firstLeft := match gone.min? with | some e => ((e - 128 * o.firstGlobal) / 128).toNat | none => 0
    lostHits := !gone.isEmpty, badSamples := (List.range o.samples).filter fun i => !ringParity (words[i]?.getD 0) }
  (getD d.acq.history (tileOf p) []).foldl (fun b h => b.offer o (maxHits (d.orderMap o)) h) b

/-- Ring words that can still be read (R215). -/
def liveRuns (now : Nat) (l : List RingRun) : List RingRun := l.filter fun r => now < r.start + r.words.length + 16384

/-- Each ring word of a block that failed its parity is counted and reported (R396, R406). -/
def Dev.noteBadSamples (d : Dev) (o : FreezeOrder) (b : Block) : Dev :=
  b.badSamples.foldl (fun d i => d.ringParityFailure b.pixel (((o.firstGlobal + (i : Nat)) % ticksPerSecond).toNat)) d

/-- What the hand-overs of the copy make of a segment (R28): failed ring words poison it, then hit words that are not good. -/
def Dev.handBlocks (d : Dev) (s : RawSeg) : Dev :=
  let bad := s.blocks.any fun b => !b.badSamples.isEmpty
  let d := s.blocks.foldl (fun d b => d.noteBadSamples s.order b) d
  let d := if bad && !s.poisoned then d.notePoisoned 0 else d
  d.handHits (!s.poisoned && !bad) (s.blocks.flatMap (·.hits))

/-- A range goes into a list by rising first byte. -/
def insertRange (x : Nat × Nat) : List (Nat × Nat) → List (Nat × Nat)
  | [] => [x]
  | y :: r => if x.1 ≤ y.1 then x :: y :: r else y :: insertRange x r

/-- What is free of segment memory from a byte on, between ranges by rising first byte. -/
def freeRanges (at_ : Nat) : List (Nat × Nat) → List (Nat × Nat)
  | [] => [(at_, 2 ^ 26 - at_)]
  | (s, n) :: r => (at_, s - at_) :: freeRanges (s + n) r

/-- The first so many bytes of some ranges. -/
def takeRoom : Nat → List (Nat × Nat) → List (Nat × Nat)
  | _, [] => []
  | n, (s, l) :: r => if min n l = 0 then takeRoom n r else (s, min n l) :: takeRoom (n - min n l) r

/-- Free room of segment memory for so many bytes, from a byte on that is free to the module (R221, log entry 114). -/
def Dev.placeFor (d : Dev) (n : Nat) : List (Nat × Nat) :=
  let start := (Config.segmentStart d.free).toNat
  let room := freeRanges 0 ((d.acq.segments.flatMap (·.place)).foldl (fun l x => insertRange x l) [])
  takeRoom n ((room.map fun x => (max start x.1, x.1 + x.2 - max start x.1))
    ++ room.map fun x => (x.1, min (x.1 + x.2) start - x.1))

/-- Where byte i of some ranges stands. -/
def placeAddress : List (Nat × Nat) → Nat → Nat
  | [], i => i
  | (s, n) :: r, i => if i < n then s + i else placeAddress r (i - n)

/-- The macros of segment memory that some ranges lie in. -/
def placeMacros (l : List (Nat × Nat)) : List Nat :=
  l.flatMap fun x => (List.range (macroAt (x.1 + x.2 - 1) + 1 - macroAt x.1)).map (macroAt x.1 + ·)

/-- The segment that the builder copies for an order (R221). -/
def Dev.copySegment (d : Dev) (o : FreezeOrder) : RawSeg :=
  let k0 := o.fire - o.lookBack
  { order := o, start := k0, blocks := ((List.range 1024).filter (selectable (d.orderMap o) o.course)).map (d.copyBlock o k0)
    written := d.acq.conv, early := (List.range o.samples).any fun (i : Nat) => !writtenAt d.acq.conv (k0 + (i : Int))
    closed := false, bytes := o.reserve, place := d.placeFor o.reserve, poisoned := !o.parity.ok }

/-- The builder takes the oldest freeze order with a descriptor and its reservation and copies its window in turns of its own
(R22, R221); an order that finds no resources, or whose window is overwritten before it is read, becomes a stub (R222, R237).
An order whose parity fails poisons its segment or its stub (R27, R395). -/
def Dev.buildSegment (d : Dev) (runs : List RingRun) (overrun : Bool) (upsets : List Upset) (parity : Bool) : Dev :=
  match d.acq.orders with
  | [] => d
  | first :: rest =>
    let d := { d with acq := { d.acq with orders := rest, ring := liveRuns d.sys.ticks (d.acq.ring ++ runs) } }
    let (d, bad) := d.readUpsets 1 upsets
    let o := if bad then { first with parity := .poisoned } else if parity then first else { first with parity := first.parity.flip }
    let (d, _) := d.verifyWord 0 0 o.parity
    if d.freeDesc = 0 then d.makeStub o 1
    else if d.freeMem < 1048576 then d.makeStub o 2
    else if overrun || decide (o.fire - o.lookBack + 16384 ≤ (d.sys.ticks : Int)) then d.makeStub o 3
    else
      let d := (List.range 64).foldl Dev.pruneHistory d
      let seg := d.copySegment o
      let d := (seg.place.foldl (fun (d : Dev) x => d.freshBytes 0 x.1 x.2) { d with free := d.free + 1 }).takeTurns 0 0 (placeMacros seg.place)
      let d := d.handBlocks seg
      ({ d with acq := { d.acq with segments := d.acq.segments ++ [seg] } }).drainTest.checkBusy

/-- SEGMENT_BUILD_START: the ring words that the converters write for the window, as far as no earlier operand gave
them, whether the copy comes too late for some sample of it, the upsets of the table words that the builder reads (R59), and
whether the parity of the freeze order holds. -/
def execSegmentBuildStart (read : RingRead) (overrun : Bool) (parity : Bool) (s : State) : Host.Outcome State Fault Refusal :=
  .next (s.onDev (·.buildSegment read.runs overrun read.upsets parity))

/-! ### Completing a segment (R89, R219, R223 to R225, R230) -/

/-- First and count of the samples for which a test holds, from the first up to and including the last (R230). -/
def spanOf (l : List Bool) : Option (Nat × Nat) :=
  match l.findIdx? id, l.reverse.findIdx? id with
  | some i, some j => some (i, l.length - j - i)
  | _, _ => none

/-- One word of an averaged sample area (R225). -/
def averageWord (a : Nat) (xs : List (Nat × Bool)) : Nat :=
  let tail := (xs.reverse.takeWhile fun x => !x.2).map (·.1)
  if tail.isEmpty then 0 else rneNat (2 ^ min a 4 * tail.sum) tail.length

/-- The words of a sample area (R225): the raw codes, or one averaged word for each interval. -/
def sampleWords (a : Nat) (codes : List Nat) (range : List Bool) : List Nat :=
  if a = 0 then codes
  else (List.range (codes.length / 2 ^ a)).map fun j =>
    averageWord a (((codes.zip range).drop (j * 2 ^ a)).take (2 ^ a))

/-- The polynomial of R89 for a pixel of a linearisation instance. -/
def chargePolynomial (m : Option PisteMap) (g p s t : Nat) : Nat :=
  let c := fun i j => mapNum m 0x0014 g (16 + 52 * p + 4 + 16 * j + 4 * i) 4 0
  let q := fun j => f32Add (f32Mul (f32Add (f32Mul (f32Add (f32Mul (c 3 j) s) (c 2 j)) s) (c 1 j)) s) (c 0 j)
  f32Add (f32Mul (f32Add (f32Mul (q 2) t) (q 1)) t) (q 0)

/-- The charge word of a pixel's raw codes (R89), 24-bit two's complement; 0x80_0000 where it is invalid. -/
def chargeWord (m : Option PisteMap) (p : Nat) (codes : List Nat) (flags : List SampleFlags) (gains : List Nat) (temp : Nat) :
    Nat :=
  let f := fun off d => mapNum m 0x0010 0 (16 + 8 * p + off) 1 d
  let a := f 5 16
  let n := f 6 32
  let bl := f 7 8
  let g := gains[a]?.getD 8
  let used := fun (i : Nat) => i < bl || (a ≤ i && i < a + n)
  let bad := (List.range codes.length).any fun i => used i &&
    ((match flags[i]? with | some s => s.clamp || s.range || s.gated | none => false) || gains[i]? != some g)
  if codes.length < a + n || codes.length < bl || bad || (m.bind (·.sect? 0x0014 g)).isNone then 0x800000
  else
    let b := rneNat (16 * (codes.take bl).sum) bl
    let s := f32OfFrac (16 * (((codes.drop a).take n).sum : Int) - n * b) 16
    let v := chargePolynomial m g p s (f32Sub temp 0x41C80000)
    if !f32Finite v then 0x800000
    else
      let (num, k) := f32Frac v
      toTwos 24 (clampInt (-8388607) 8388607 (rneInt (64 * num) (2 ^ k)))

/-- A span annotation of a kind, where the window has such samples. -/
def spanAnnotation (kind value : Nat) (l : List Bool) : List Annotation :=
  match spanOf l with
  | some (i, n) => [⟨kind, i, n, value⟩]
  | none => []

/-- A block of a complete segment: its sample area, charge word and spans (R225, R229, R230). -/
def Dev.finishBlock (d : Dev) (s : RawSeg) (b : Block) : Block :=
  let m := d.orderMap s.order
  let ks := (List.range s.order.samples).map fun (i : Nat) => s.start + (i : Int)
  let flags := ks.map (d.sampleFlags s.written b.pixel)
  let gains := ks.map fun k => (d.pixelFe b.pixel).elim 0 (gainAt · k)
  let opened := (d.pixelFe b.pixel).any fun f => ks.any (inSpansAt f.openSpans)
  let lastGain := match (flags.zip gains).reverse.find? (·.1.range) with | some x => x.2 | none => 0
  let charge := if mapBits m 0x0038 0 (64 + b.pixel) 1 5 5 0 == 1 then
      [⟨6, mapNum m 0x0010 0 (16 + 8 * b.pixel + 5) 1 16, mapNum m 0x0010 0 (16 + 8 * b.pixel + 6) 1 32,
        chargeWord m b.pixel b.raw flags gains (s.order.temps[tileOf b.pixel]?.getD 0)⟩]
    else []
  let cut := if b.leftOut != 0 || b.lostHits then
      [⟨5, b.firstLeft, 0, if b.lostHits then 0xFFFFFF else min b.leftOut 0xFFFFFF⟩] else []
  { b with
    openInput := opened, words := sampleWords b.avg b.raw (flags.map (·.range)), width := (areaWords 0 b.avg).2
    annotations := charge ++ spanAnnotation 1 0 (flags.map (·.clamp)) ++ spanAnnotation 2 lastGain (flags.map (·.range))
      ++ spanAnnotation 3 0 (flags.map (·.gated)) ++ spanAnnotation 4 0 (flags.map (·.cal)) ++ cut }

/-- A tile is added by its lit count at some tick of the window (R219). -/
def Dev.tileAdded (d : Dev) (s : RawSeg) (n : Nat) : Bool :=
  (List.range s.order.samples).any fun (i : Nat) =>
    let k := s.start + (i : Int)
    decide (0 ≤ k) && tileMin (d.orderMap s.order) s.order.course ≤ d.litCount (d.orderMap s.order) n k.toNat

/-- Bytes of a block as the builder lays it out (R229). -/
def Block.size (b : Block) : Nat := 8 + 8 * b.hits.length + 8 * b.annotations.length + 4 * ceilDiv (b.words.length * b.width) 32

/-- The tick at which a segment's hit list closes: 8,256 after the tick that follows the window's last sample (R223). -/
def RawSeg.closesAt (s : RawSeg) : Int := s.start + s.order.samples + 8256

/-- A segment becomes complete (R223, R224): tiles are chosen, blocks finished, the reservation shrinks (R237). -/
def Dev.finishSegment (d : Dev) (s : RawSeg) : RawSeg :=
  let m := d.orderMap s.order
  let tiles := (List.range 64).filter (d.tileAdded s)
  let chosen := s.blocks.filter fun b => inPixelMask m s.order.course b.pixel
    || (tileMode m s.order.course && tiles.contains (tileOf b.pixel))
  let blocks := chosen.map (d.finishBlock s)
  let bytes := 64 + (blocks.map (·.size)).sum
  { s with blocks := blocks, closed := true, bytes := bytes, place := takeRoom bytes s.place
           poisoned := s.poisoned || blocks.any (·.hurt) }

/-- Bytes of a block before its sample area (R229). -/
def Block.headLength (b : Block) : Nat := 8 + 8 * b.hits.length + 8 * b.annotations.length

/-- The bytes of a block that were made from ring words that failed their parity, and from hit words that were not good: the words
of the sample area, the charge word and the hit words (R27, R28). -/
def Block.poisonedBytes (b : Block) : List Nat :=
  let words := (b.badSamples.map (· / 2 ^ b.avg)).eraseDups
  let area := words.flatMap fun j =>
    let first := j * b.width / 8
    (List.range ((j * b.width + b.width - 1) / 8 + 1 - first)).map (b.headLength + first + ·)
  let word := fun (i : Nat) => (List.range 8).map (8 + 8 * i + ·)
  let hits := (b.hits.zipIdx.filter fun x => !x.1.parity.ok).flatMap fun x => word x.2
  let charge := if words.isEmpty then [] else
    (b.annotations.zipIdx.filter (·.1.kind == 6)).flatMap fun x => word (b.hits.length + x.2)
  area ++ hits ++ charge

/-- Where byte i of a segment stands in segment memory. -/
def RawSeg.address (s : RawSeg) (i : Nat) : Nat := placeAddress s.place i

/-- The first byte of a pixel's block in its segment (R228). -/
def RawSeg.offsetOf (s : RawSeg) (p : Nat) : Nat := 64 + ((s.blocks.takeWhile (·.pixel != p)).map (·.size)).sum

/-- The bytes of a complete segment that stand in the poison form from the start (R27, R28). -/
def Dev.poisonSegment (d : Dev) (s : RawSeg) : Dev :=
  s.blocks.foldl (fun d b =>
    let o := s.offsetOf b.pixel
    b.poisonedBytes.foldl (fun d i => d.poisonAt 0 (s.address (o + i))) d) d

/-- The events and the count of hit words left out (R241, R244). -/
def Dev.noteTruncated (d : Dev) (s : RawSeg) : Dev :=
  s.blocks.foldl (fun d b =>
    if b.leftOut = 0 then d
    else (d.modAcqCounters fun c => { c with hitsTruncated := (c.hitsTruncated + b.leftOut) % 2 ^ 64 }).raiseLimited 1317 0
      b.pixel [evNat b.pixel, evNat b.leftOut]) d

/-- The hit list of the oldest segment that has reached its close closes; by then every hit word of its window has passed its
crossing (R223, R224). -/
def Dev.hitListClose (d : Dev) : Dev :=
  let d := d.passAllHits
  match d.acq.segments.findIdx? fun s => !s.closed && decide (s.closesAt ≤ (d.sys.ticks : Int)) with
  | none => d
  | some i =>
    match d.acq.segments[i]? with
    | none => d
    | some s =>
      let s' := d.finishSegment s
      let d := { d with acq := { d.acq with segments := d.acq.segments.set i s' } }
      let d := (d.poisonSegment s').noteTruncated s'
      (d.measure 5 0 (ticksNs (d.sys.ticks - s.order.formed))).checkBusy

/-- HIT_LIST_CLOSE. -/
def execHitListClose (s : State) : Host.Outcome State Fault Refusal := .next (s.onDev (·.hitListClose))

/-! ### Tag frames (R233, R234) -/

/-- Bit i of a tile's `tag_mask`: an interpolator in use with `tag` set (R234, R235). -/
def Dev.tagMask (d : Dev) (n : Nat) : Nat :=
  ((List.range 16).map fun i =>
    b2n (pixelEnabled d.map.active (16 * n + i) && getD d.acq.tag (16 * n + i) false) * 2 ^ i).sum

/-- A frame opens on every tile that frames tags, with the pairs applied in it (R234, R235). -/
def Dev.openFrames (d : Dev) (hurt : Bool) : Dev :=
  (List.range 64).foldl (fun d n =>
    let mask := d.tagMask n
    if mask = 0 then d
    else
      let pairs := (List.range 16).map fun i => match d.tdcPixel (16 * n + i) with | some t => t.applied | none => factoryPair 0
      { d with acq := { d.acq with frames := modAt d.acq.frames n (· ++ [⟨d.globalNow, 0, [], 0, mask, pairs, hurt⟩]) } }) d

/-- The last part of a tile's frame closes and its record joins VC2 (R234, R235). -/
def Dev.closeFrame (d : Dev) (n : Nat) (f : TagFrame) : Dev :=
  ({ d with acq := { d.acq with frames := modAt d.acq.frames n fun l => l.filter fun x => x.start != f.start } }).sendTags n f true

/-- The oldest frame of a tile whose end edge lies 1,280 ticks back. -/
def Dev.frameDue (d : Dev) (n : Nat) : Option TagFrame :=
  (getD d.acq.frames n []).find? fun f => f.start + tagFrameTicks + 1280 ≤ d.globalNow

/-- So many due frames of a tile close, while no record of the tag framer waits for buffers (R297). -/
def Dev.closeDue (d : Dev) (n : Nat) : Nat → Dev
  | 0 => d
  | k + 1 =>
    match d.frameDue n with
    | none => d
    | some f => if d.framerWaits then d else (d.closeFrame n f).closeDue n k

/-- Frames whose end edge lies 1,280 ticks back close, tile by tile; by then every word of them has entered (R234). -/
def Dev.closeFrames (d : Dev) : Dev :=
  (List.range 64).foldl (fun d n =>
    (d.takeTags n (getD d.acq.tagFifo n []).length).closeDue n (getD d.acq.frames n []).length) d

/-- TAG_FRAME_CLOSE: the frames that are due close (R234). -/
def execTagFrameClose (s : State) : Host.Outcome State Fault Refusal := .next (s.onDev (·.closeFrames))

/-! ### Commands (R246) -/

/-- `ACQ.STATUS`. -/
def acqStatusKind : CmdKind := ⟨0x0600, false, upStates⟩

/-- The 40 bytes of `ACQ.STATUS` (R458); the latest `seq` is free before the first candidate. -/
def acqStatusData (d : Dev) : List Byte :=
  let latest := if d.acq.nextSeq = 1 then Config.unstated 7 d.free else d.acq.nextSeq - 1
  leBytes 4 d.freeDesc ++ leBytes 4 d.freeMem ++ leBytes 1 (b2n d.acq.busySince.isSome) ++ zeros 1
    ++ leBytes 2 d.acq.stubs.length ++ leBytes 4 latest ++ leBytes 4 d.framePhase
    ++ twBytes (TimeWord.ofGlobalTick d.nextEdge) ++ zeros 8

/-- ACQ_STATUS. -/
def execAcqStatus (h : CmdHeader) (s : State) : Host.Outcome State Fault Refusal :=
  .next (hostRun (.acqStatus h) acqStatusKind h (readsFree acqStatusData) s)

/-- `ACQ.COUNTERS`. -/
def acqCountersKind : CmdKind := ⟨0x0601, false, upStates⟩

/-- The counters of R241 at 0. -/
def AcqCounters.zero : AcqCounters :=
  { armedTicks := 0, deadTicks := 0, busyTicks := 0, accepted := 0, segments := 0, stubs := fill 5 0, stubLost := 0
    refusedRearm := 0, refusedCap := 0, refusedBusy := 0, hitOverflow := 0, hitsTruncated := 0, tagsFramed := 0
    tagsDropped := 0 }

/-- The 144 bytes of `ACQ.COUNTERS` (R458). -/
def acqCountersData (d : Dev) : List Byte :=
  let c := d.acq.counters
  (([c.armedTicks, c.deadTicks, c.busyTicks, c.accepted, c.segments] ++ c.stubs.toList
    ++ [c.stubLost, c.refusedRearm, c.refusedCap, c.refusedBusy, c.hitOverflow, c.hitsTruncated, c.tagsFramed, c.tagsDropped]).map
      (leBytes 8)).flatten

/-- Read the counters and clear them where asked (R241, R451). -/
def acqCountersEff (clear : Bool) : Effect := onDev fun _ _ d =>
  (if clear then { d with acq := { d.acq with counters := AcqCounters.zero } } else d, .done .ok (acqCountersData d))

/-- ACQ_COUNTERS. -/
def execAcqCounters (h : CmdHeader) (clear : Bool) (s : State) : Host.Outcome State Fault Refusal :=
  .next (hostRun (.acqCounters h clear) acqCountersKind h (acqCountersEff clear) s)

/-- `ACQ.TAG_CONTROL`. -/
def acqTagControlKind : CmdKind := ⟨0x0602, true, [.ready, .running]⟩

/-- Set `tag_enable`, or the `tag` bits of a range (R246). -/
def Dev.tagControl (d : Dev) (r : Range) (what value : Nat) : Dev :=
  if what = 0 then { d with acq := { d.acq with tagEnable := value == 1 } }
  else { d with acq := { d.acq with tag := modRange d.acq.tag r fun _ _ => value == 1 } }

/-- Tag control from the next tag-frame edge: at once in Ready, where no tag is framed (R246). -/
def acqTagControlEff (i : Instr) (first last what : Nat) : Effect := onDev fun _ _ d =>
  if what = 0 || (what = 1 && pixelRange first last) then atBoundary i d
  else (d, .done .outOfRange [])

/-- ACQ_TAG_CONTROL. -/
def execAcqTagControl (h : CmdHeader) (first last what value : Nat) (s : State) : Host.Outcome State Fault Refusal :=
  .next (hostRun (.acqTagControl h first last what value) acqTagControlKind h
    (acqTagControlEff (.acqTagControl h first last what value) first last what) s)

/-- `ACQ.SET_AVERAGE`. -/
def acqSetAverageKind : CmdKind := ⟨0x0603, true, [.ready, .running]⟩

/-- Every instance that can select a pixel of the range has `samples` a multiple of 2^avg (R245, check 0x0153). -/
def averageFits (m : Option PisteMap) (r : Range) (avg : Nat) : Bool :=
  (List.range 16).all fun c =>
    (m.bind (·.sect? 0x0039 c)).isNone || samplesOf m c % 2 ^ avg == 0
      || ((List.range 1024).all fun p => !(r.has p && selectable m c p))

/-- Set `avg` of a range. -/
def Dev.setAverage (d : Dev) (r : Range) (avg : Nat) : Dev :=
  { d with acq := { d.acq with avg := modRange d.acq.avg r fun _ _ => avg } }

/-- Set `avg` at the next boundary (R246). -/
def acqSetAverageEff (i : Instr) (first last avg : Nat) : Effect := onDev fun _ _ d =>
  if pixelRange first last && avg ≤ 8 && averageFits d.map.active ⟨first, last⟩ avg then
    atBoundary i d
  else (d, .done .outOfRange [])

/-- ACQ_SET_AVERAGE. -/
def execAcqSetAverage (h : CmdHeader) (first last avg : Nat) (s : State) : Host.Outcome State Fault Refusal :=
  .next (hostRun (.acqSetAverage h first last avg) acqSetAverageKind h
    (acqSetAverageEff (.acqSetAverage h first last avg) first last avg) s)

/-- `ACQ.SET_WATER`. -/
def acqSetWaterKind : CmdKind := ⟨0x0604, false, [.ready, .running, .quiesce]⟩

/-- The ranges of R242 and the order of check 0x0155. -/
def waterLegal (dl dh ml mh : Nat) : Bool :=
  16 ≤ dl && dl ≤ 32768 && 32 ≤ dh && dh ≤ 65535 && 1024 ≤ ml && ml ≤ 32768 && 1088 ≤ mh && mh ≤ 49152 && dl < dh && ml < mh

/-- Set the four water marks at once (R246). -/
def acqSetWaterEff (dl dh ml mh : Nat) : Effect := onDev fun _ _ d =>
  if waterLegal dl dh ml mh then
    (({ d with acq := { d.acq with descLow := dl, descHigh := dh, memLow := ml, memHigh := mh } }).checkBusy, .done .ok [])
  else (d, .done .outOfRange [])

/-- ACQ_SET_WATER. -/
def execAcqSetWater (h : CmdHeader) (descLow descHigh memLow memHigh : Nat) (s : State) : Host.Outcome State Fault Refusal :=
  .next (hostRun (.acqSetWater h descLow descHigh memLow memHigh) acqSetWaterKind h
    (acqSetWaterEff descLow descHigh memLow memHigh) s)

/-- What acquisition takes from a map that becomes active (R242, R246). -/
def Dev.acqFromMap (d : Dev) : Dev :=
  let m := d.map.active
  ({ d with acq := { d.acq with
    oldAvg := d.acq.avg
    tagEnable := mapBits m 0x0038 0 16 1 0 0 0 == 1
    avg := Vector.ofFn fun p => mapBits m 0x0038 0 (64 + p) 1 3 0 0
    tag := Vector.ofFn fun p => mapBits m 0x0038 0 (64 + p) 1 4 4 1 == 1
    descLow := mapNum m 0x0038 0 18 2 256, descHigh := mapNum m 0x0038 0 20 2 512
    memLow := mapNum m 0x0038 0 22 2 1024, memHigh := mapNum m 0x0038 0 24 2 2048 } }).checkBusy

end Sys2Proof.Machine
end

