-- ==== Sys2Proof/Machine/Sha.lean ====
section
/-! DEFINITION. SHA-256 and SHA-512, by which images are digested and keys named (R34, R552). The functions are those
of the published standard: the spec names them and gives no text of its own. -/

namespace Sys2Proof.Machine

/-- The largest number below `2 ^ bits` whose k-th power is at most n. -/
def iroot (k n : Nat) : Nat → Nat
  | 0 => 0
  | b + 1 =>
    let hi := iroot k (n / 2 ^ k) b
    if (2 * hi + 1) ^ k ≤ n then 2 * hi + 1 else 2 * hi

/-- A number has no divisor from 2 up to itself. -/
def isPrime (n : Nat) : Bool := 2 ≤ n && (List.range n).all fun d => d < 2 || n % d != 0

/-- The first 80 primes. -/
def shaPrimes : List Nat := (List.range 410).filter isPrime

/-- A member of the SHA-2 family: word width, rounds, and the six rotation triples' numbers. -/
structure ShaKind where
  /-- word width in bits -/
  w : Nat
  rounds : Nat
  /-- rotations of the two functions of the compression -/
  bigA : Nat × Nat × Nat
  bigE : Nat × Nat × Nat
  /-- two rotations and a shift of the two functions of the schedule -/
  small0 : Nat × Nat × Nat
  small1 : Nat × Nat × Nat
  deriving DecidableEq, Repr

/-- SHA-256. -/
def shaKind256 : ShaKind := ⟨32, 64, (2, 13, 22), (6, 11, 25), (7, 18, 3), (17, 19, 10)⟩

/-- SHA-512. -/
def shaKind512 : ShaKind := ⟨64, 80, (28, 34, 39), (14, 18, 41), (1, 8, 7), (19, 61, 6)⟩

/-- A right rotation of a word. -/
def ShaKind.rotr (k : ShaKind) (x n : Nat) : Nat := (x / 2 ^ n + x * 2 ^ (k.w - n)) % 2 ^ k.w

/-- The three rotations of a word, exclusive-ORed. -/
def ShaKind.big (k : ShaKind) (r : Nat × Nat × Nat) (x : Nat) : Nat := k.rotr x r.1 ^^^ k.rotr x r.2.1 ^^^ k.rotr x r.2.2

/-- Two rotations and a shift of a word, exclusive-ORed. -/
def ShaKind.small (k : ShaKind) (r : Nat × Nat × Nat) (x : Nat) : Nat := k.rotr x r.1 ^^^ k.rotr x r.2.1 ^^^ (x / 2 ^ r.2.2)

/-- The round constants: the first bits of the fractions of the cube roots of the primes. -/
def ShaKind.constants (k : ShaKind) : List Nat :=
  (shaPrimes.take k.rounds).map fun p => iroot 3 (p * 2 ^ (3 * k.w)) (k.w + 4) % 2 ^ k.w

/-- The first state: the fractions of the square roots of the first eight primes. -/
def ShaKind.start (k : ShaKind) : List Nat :=
  (shaPrimes.take 8).map fun p => iroot 2 (p * 2 ^ (2 * k.w)) (k.w + 4) % 2 ^ k.w

/-- The number whose bytes, most significant first, are given. -/
def ofBe (bs : List Byte) : Nat := ofLe bs.reverse

/-- The low `n` bytes of a number, most significant first. -/
def beBytes (n v : Nat) : List Byte := (leBytes n v).reverse

/-- The padded message. -/
def ShaKind.pad (k : ShaKind) (m : List Byte) : List Byte :=
  let block := 2 * k.w
  let lenBytes := k.w / 4
  let used := (m.length + 1 + lenBytes) % block
  m ++ [0x80] ++ zeros (if used = 0 then 0 else block - used) ++ beBytes lenBytes (8 * m.length)

/-- The schedule of a block, latest word first. -/
def ShaKind.schedule (k : ShaKind) (words : List Nat) : List Nat :=
  (List.range (k.rounds - 16)).foldl (fun ws _ =>
    let at_ := fun (i : Nat) => ws[i]?.getD 0
    (k.small k.small1 (at_ 1) + at_ 6 + k.small k.small0 (at_ 14) + at_ 15) % 2 ^ k.w :: ws) words.reverse

/-- One round on the eight working words. -/
def ShaKind.round (k : ShaKind) (s : List Nat) (c wt : Nat) : List Nat :=
  match s with
  | [a, b, cc, d, e, f, g, h] =>
    let ch := (e &&& f) ^^^ ((2 ^ k.w - 1 - e) &&& g)
    let t1 := h + k.big k.bigE e + ch + c + wt
    let t2 := k.big k.bigA a + ((a &&& b) ^^^ (a &&& cc) ^^^ (b &&& cc))
    [(t1 + t2) % 2 ^ k.w, a, b, cc, (d + t1) % 2 ^ k.w, e, f, g]
  | _ => s

/-- One block taken into the state. -/
def ShaKind.block (k : ShaKind) (consts s : List Nat) (words : List Nat) : List Nat :=
  let ws := (k.schedule words).reverse
  let out := (consts.zip ws).foldl (fun s x => k.round s x.1 x.2) s
  (s.zip out).map fun x => (x.1 + x.2) % 2 ^ k.w

/-- Cut a list into pieces of `n`, at most `fuel` of them. -/
def chunks {α : Type} (n : Nat) : Nat → List α → List (List α)
  | 0, _ => []
  | _, [] => []
  | fuel + 1, l => l.take n :: chunks n fuel (l.drop n)

/-- The digest of a byte string. -/
def ShaKind.digest (k : ShaKind) (m : List Byte) : List Byte :=
  let bs := k.pad m
  let blocks := chunks (2 * k.w) (bs.length / (2 * k.w)) bs
  let consts := k.constants
  let s := blocks.foldl (fun s b => k.block consts s ((chunks (k.w / 8) 16 b).map ofBe)) k.start
  (s.map (beBytes (k.w / 8))).flatten

/-- SHA-256. -/
def sha256 (m : List Byte) : List Byte := shaKind256.digest m

/-- SHA-512. -/
def sha512 (m : List Byte) : List Byte := shaKind512.digest m

/-- The identifier of a public key (R34): the first 8 bytes of its digest, read least significant byte first. -/
def keyIdOf (key : List Byte) : Nat := ofLe ((sha256 key).take 8)

end Sys2Proof.Machine
end

