-- ==== Sys2Proof/Machine/Ed25519.lean ====
section
/-! DEFINITION. Verification of pure Ed25519 signatures (R34, R552), by the published standard (RFC 8032) that the spec
names and gives no text of: the group equation is checked with the cofactor 8. -/

namespace Sys2Proof.Machine

/-- The prime of the field. -/
def edP : Nat := 2 ^ 255 - 19

/-- The order of the base point. -/
def edL : Nat := 2 ^ 252 + 27742317777372353535851937790883648493

/-- A power in the field; the exponent is below `2 ^ fuel`. -/
def edPow (b e : Nat) : Nat → Nat
  | 0 => 1
  | fuel + 1 =>
    let h := edPow (b * b % edP) (e / 2) fuel
    if e % 2 = 1 then b * h % edP else h

/-- An inverse in the field. -/
def edInv (x : Nat) : Nat := edPow x (edP - 2) 255

/-- A difference in the field. -/
def edSub (a b : Nat) : Nat := (a + edP - b % edP) % edP

/-- The constant of the curve: −121665/121666. -/
def edD : Nat := edSub 0 (121665 * edInv 121666 % edP)

/-- A point in extended coordinates. -/
structure EdPoint where
  x : Nat
  y : Nat
  z : Nat
  t : Nat
  deriving DecidableEq, Repr

/-- The neutral point. -/
def edZero : EdPoint := ⟨0, 1, 1, 0⟩

/-- The sum of two points, with the curve's constant given. -/
def EdPoint.add (d : Nat) (p q : EdPoint) : EdPoint :=
  let a := edSub p.y p.x * edSub q.y q.x % edP
  let b := (p.y + p.x) * (q.y + q.x) % edP
  let c := 2 * p.t * q.t % edP * d % edP
  let e := 2 * p.z * q.z % edP
  let f := edSub b a
  let g := edSub e c
  let h := (e + c) % edP
  let i := (b + a) % edP
  ⟨f * g % edP, h * i % edP, g * h % edP, f * i % edP⟩

/-- A multiple of a point; the factor is below `2 ^ fuel`. -/
def EdPoint.mul (d : Nat) (p : EdPoint) (n : Nat) : Nat → EdPoint
  | 0 => edZero
  | fuel + 1 =>
    let h := EdPoint.mul d (p.add d p) (n / 2) fuel
    if n % 2 = 1 then p.add d h else h

/-- Two points are the same. -/
def EdPoint.same (p q : EdPoint) : Bool := p.x * q.z % edP == q.x * p.z % edP && p.y * q.z % edP == q.y * p.z % edP

/-- The x of a y and a sign, if there is one. -/
def edRecover (d y sign : Nat) : Option Nat :=
  let u := edSub (y * y) 1
  let v := (d * (y * y % edP) + 1) % edP
  let u3 := u * (v * v % edP * v % edP) % edP
  let v7 := v * v % edP * v % edP
  let x := u3 * edPow (u * (v7 * v7 % edP * v % edP) % edP) ((edP - 5) / 8) 255 % edP
  let root :=
    if v * (x * x % edP) % edP = u then some x
    else if v * (x * x % edP) % edP = edSub 0 u then some (x * edPow 2 ((edP - 1) / 4) 255 % edP)
    else none
  root.bind fun x => if x = 0 && sign = 1 then none else if x % 2 = sign then some x else some (edSub 0 x)

/-- The point 32 bytes spell, if they spell one. -/
def edDecode (d : Nat) (bs : List Byte) : Option EdPoint :=
  let n := ofLe bs
  let y := n % 2 ^ 255
  if edP ≤ y then none
  else
    match edRecover d y (n / 2 ^ 255 % 2) with
    | none => none
    | some x => some ⟨x, y, 1, x * y % edP⟩

/-- The base point: y = 4/5, x even. -/
def edBase (d : Nat) : EdPoint :=
  let y := 4 * edInv 5 % edP
  let x := (edRecover d y 0).getD 0
  ⟨x, y, 1, x * y % edP⟩

/-- A 64-byte signature over a message verifies under a 32-byte public key. -/
def edVerify (key msg sig : List Byte) : Bool :=
  let d := edD
  let s := ofLe (sig.drop 32)
  match edDecode d key, edDecode d (sig.take 32) with
  | some a, some r =>
    let k := ofLe (sha512 (sig.take 32 ++ key ++ msg)) % edL
    let lhs := EdPoint.mul d (edBase d) s 256
    let rhs := r.add d (EdPoint.mul d a k 256)
    s < edL && sig.length == 64 && (EdPoint.mul d lhs 8 4).same (EdPoint.mul d rhs 8 4)
  | _, _ => false

end Sys2Proof.Machine
end

