-- ==== Sys2Proof/Machine/Flash.lean ====
section
/-! DEFINITION. The configuration flash: its regions, record and image pairs, the queue of erases and programs, and the
commands of the owner area (R542 to R550, R565). -/

namespace Sys2Proof.Machine

/-! ### Reading records and images (R548 to R550) -/

/-- Record at a 64-byte position of a sector (R548). -/
def recordAt (f : List Host.Cell) (sector pos : Nat) : List Byte := flashBytes f (sector * sectorBytes + 64 * pos) 64

/-- A record is valid: its `magic` and its `crc` (R548). -/
def recordValid (magic bs : List Byte) : Bool := bs.take 8 == magic && fieldAt bs 60 4 == crc32c (bs.take 60)

/-- The record in force of a pair of sectors: sector, position and bytes (R548). -/
def recordInForce (f : List Host.Cell) (first : Nat) (magic : List Byte) : Option (Nat × Nat × List Byte) :=
  [first, first + 1].foldl (fun best s =>
    (List.range 1024).foldl (fun (best : Option (Nat × Nat × List Byte)) p =>
      let bs := recordAt f s p
      if !recordValid magic bs then best
      else match best with
        | none => some (s, p, bs)
        | some b => if fieldAt b.2.2 8 4 < fieldAt bs 8 4 then some (s, p, bs) else best) best) none

/-- Cut a program at page boundaries, in ascending order (R545, R546); at most `fuel` pages. -/
def pageSteps (off : Nat) (bs : List Byte) : Nat → List FlashStep
  | 0 => []
  | fuel + 1 =>
    match bs with
    | [] => []
    | _ =>
      let n := 256 - off % 256
      .program off (bs.take n) :: pageSteps (off + n) (bs.drop n) fuel

/-- The steps of a program of bytes at an offset. -/
def programSteps (off : Nat) (bs : List Byte) : List FlashStep := pageSteps off bs (bs.length / 256 + 2)

/-- The steps that write a record into a sector whose last position that is not blank is given: behind it, or at the
start of the sector, which is erased first where it is full (R548). -/
def stepsBehind (s : Nat) (bs : List Byte) : Option Nat → List FlashStep
  | none => programSteps (s * sectorBytes) bs
  | some p =>
    if p < 1023 then programSteps (s * sectorBytes + 64 * (p + 1)) bs
    else .erase s :: programSteps (s * sectorBytes) bs

/-- The steps that write a new record of a pair, into the sector that does not hold the record in force (R548). -/
def recordSteps (f : List Host.Cell) (first : Nat) (magic bs : List Byte) : List FlashStep :=
  let s := if (recordInForce f first magic).any (·.1 = first) then first + 1 else first
  stepsBehind s bs ((List.range 1024).filter fun p => (recordAt f s p).any (· != flashBlank)).getLast?

/-- An image of a sector with its content, where it is valid: its generation and its content (R549). -/
def imageAt (f : List Host.Cell) (sector : Nat) (magic : List Byte) : Option (Nat × List Byte) :=
  let hd := flashBytes f (sector * sectorBytes) 64
  let n := fieldAt hd 12 4
  if hd.take 8 == magic && n ≤ 65472 then
    let body := flashBytes f (sector * sectorBytes + 64) n
    if fieldAt hd 60 4 == crc32c (hd.take 60 ++ body) then some (fieldAt hd 8 4, body) else none
  else none

/-- The image in force of a pair of sectors: sector, generation and content (R549). -/
def imageInForce (f : List Host.Cell) (first : Nat) (magic : List Byte) : Option (Nat × Nat × List Byte) :=
  match imageAt f first magic, imageAt f (first + 1) magic with
  | some (g, b), some (g', b') => if g < g' then some (first + 1, g', b') else some (first, g, b)
  | some (g, b), none => some (first, g, b)
  | none, some (g, b) => some (first + 1, g, b)
  | none, none => none

/-- The steps that write a new image: erase the other sector, program the content, and the header last (R549). -/
def imageSteps (f : List Host.Cell) (first : Nat) (magic content : List Byte) : List FlashStep :=
  let (s, g) := match imageInForce f first magic with
    | some (s, g, _) => (if s = first then first + 1 else first, g + 1)
    | none => (first, 1)
  let hd := magic ++ leBytes 4 g ++ leBytes 4 content.length ++ zeros 44
  .erase s :: programSteps (s * sectorBytes + 64) content
    ++ programSteps (s * sectorBytes) (hd ++ leBytes 4 (crc32c (hd ++ content)))

/-! ### The boot selector (R550) -/

/-- `magic` of a boot-selector record. -/
def bootMagic : List Byte := textBytes "PXBOOTSL"

/-- The record that 64 bytes spell (R550). -/
def bootRecordOf (bs : List Byte) : BootRecord :=
  { gen := fieldAt bs 8 4, ctrlSlot := fieldAt bs 12 1, laneSlot := fieldAt bs 13 1, prevCtrl := fieldAt bs 14 1
    prevLane := fieldAt bs 15 1, trial := bit (fieldAt bs 16 1) 0, trialBoots := fieldAt bs 17 1, bootMap := fieldAt bs 18 1
    ctrlVersion := fieldAt bs 20 4, laneVersion := fieldAt bs 24 4, written := timeWordAt bs 28 }

/-- The boot-selector record in force (R548). -/
def bootRecord (f : List Host.Cell) : Option BootRecord := (recordInForce f 0 bootMagic).map fun x => bootRecordOf x.2.2

/-- `boot_map` of the record in force; 255 without a record. -/
def bootMapOf (f : List Host.Cell) : Nat := (bootRecord f).elim 255 (·.bootMap)

/-! ### Regions (R543, R544) -/

/-- Offset of a firmware slot: image 0 control, 1 lane; slot 0 A, 1 B. -/
def fwBase (image slot : Nat) : Nat := if image = 0 then 0x220000 + slot * 0x800000 else 0x1220000 + slot * 0x100000

/-- Bytes of a firmware slot. -/
def fwSize (image : Nat) : Nat := if image = 0 then 0x800000 else 0x100000

/-- Offset of a piste-map slot. -/
def mapBase (slot : Nat) : Nat := 0x1420000 + slot * 0x800000

/-- Bytes of a piste-map slot. -/
def mapSize : Nat := 0x800000

/-- First sector of the owner area. -/
def ownerFirst : Nat := 840

/-- A firmware slot's version: 0 unless its header passes checks 0x0301 and 0x0302 (R565). -/
def slotVersion (f : List Host.Cell) (image slot : Nat) : Nat :=
  let hd := flashBytes f (fwBase image slot) 512
  if hd.take 8 == textBytes "PELSORFW" && fieldAt hd 508 4 == crc32c (hd.take 508) then fieldAt hd 12 4 else 0

/-- A record after a change, generation and versions aside (R556 to R558). -/
def BootChange.apply (c : BootChange) (r : BootRecord) : BootRecord :=
  match c with
  | .activate ctrl lane =>
    { r with ctrlSlot := if ctrl = 255 then r.ctrlSlot else ctrl, laneSlot := if lane = 255 then r.laneSlot else lane
             prevCtrl := r.ctrlSlot, prevLane := r.laneSlot, trial := true, trialBoots := 0 }
  | .confirm => { r with prevCtrl := r.ctrlSlot, prevLane := r.laneSlot, trial := false, trialBoots := 0 }
  | .rollBack => { r with ctrlSlot := r.prevCtrl, laneSlot := r.prevLane, trial := false, trialBoots := 0 }
  | .setBoot slot => { r with bootMap := slot }

/-- The record that a change starts from: the record in force; where there is none, one of slots A without a boot map. -/
def baseRecord (f : List Host.Cell) : BootRecord :=
  (bootRecord f).getD ⟨0, 0, 0, 0, 0, false, 0, 255, 0, 0, TimeWord.zero⟩

/-- The record that follows a record in force: its generation plus one, the versions of its slots, and the time (R550). -/
def BootRecord.next (f : List Host.Cell) (r : BootRecord) (t : TimeWord) : BootRecord :=
  { r with gen := r.gen + 1, ctrlVersion := slotVersion f 0 r.ctrlSlot, laneVersion := slotVersion f 1 r.laneSlot, written := t }

/-! ### The key ring (R47, R48, R549) -/

/-- The key ring: its lock and its keys. -/
structure KeyRing where
  locked : Bool
  keys : List (List Byte)
  deriving DecidableEq, Repr

/-- The key ring in flash; empty and unlocked where there is no image. -/
def keyRing (f : List Host.Cell) : KeyRing :=
  match imageInForce f 834 (textBytes "PXKEYRNG") with
  | none => ⟨false, []⟩
  | some (_, _, b) => ⟨bit (fieldAt b 0 1) 0, (List.range (min 8 (fieldAt b 1 1))).map fun i => sliceBytes b (8 + 32 * i) 32⟩

/-- A ring after a change. -/
def KeyChange.apply (c : KeyChange) (r : KeyRing) : KeyRing :=
  match c with
  | .add k => if r.keys.contains k then r else { r with keys := r.keys ++ [k] }
  | .remove id => { r with keys := r.keys.filter fun k => keyIdOf k != id }
  | .lock => { r with locked := true }
  | .clear => ⟨false, []⟩

/-- The content of the key-ring image (R549). -/
def KeyRing.bytes (r : KeyRing) : List Byte :=
  leBytes 1 (b2n r.locked) ++ leBytes 1 r.keys.length ++ zeros 6 ++ r.keys.flatten

/-- The ring once the changes that wait have been written. -/
def State.ringAhead (s : State) : KeyRing :=
  s.dev.fw.own.foldl (fun r w => match w with | .keys c _ => c.apply r | _ => r) (keyRing s.flash)

/-- The boot-selector record once the changes that wait have been written. -/
def State.recordAhead (s : State) : BootRecord :=
  s.dev.fw.own.foldl (fun r w => match w with | .boot c _ => c.apply r | _ => r) (baseRecord s.flash)

/-! ### The lasting-fault list (R533, R549) -/

/-- An entry of the lasting-fault list. -/
structure FaultEntry where
  cls : Nat
  soft : Bool
  fused : Bool
  unrepairable : Bool
  line : Nat
  found : TimeWord
  deriving DecidableEq, Repr

/-- The bytes of an entry (R533). -/
def FaultEntry.bytes (e : FaultEntry) : List Byte :=
  leBytes 1 e.cls ++ leBytes 1 (b2n e.soft + 2 * b2n e.fused + 4 * b2n e.unrepairable) ++ zeros 2 ++ leBytes 4 e.line
    ++ twBytes e.found ++ zeros 4

/-- The list in flash. -/
def faultList (f : List Host.Cell) : List FaultEntry :=
  match imageInForce f 838 (textBytes "PXLFLIST") with
  | none => []
  | some (_, _, b) => (List.range (b.length / 24)).map fun i =>
      let e := sliceBytes b (24 * i) 24
      ⟨fieldAt e 0 1, bit (fieldAt e 1 1) 0, bit (fieldAt e 1 1) 1, bit (fieldAt e 1 1) 2, fieldAt e 4 4, timeWordAt e 8⟩

/-- The list after a change, or none where the list is full and no entry is fused (R533). -/
def ListChange.apply (c : ListChange) (l : List FaultEntry) : Option (List FaultEntry) :=
  match c with
  | .found cls line t =>
    let e : FaultEntry := ⟨cls, false, false, false, line, t⟩
    if l.any fun x => x.cls == cls && x.line == line then some l
    else if l.length < 2048 then some (l ++ [e])
    else match l.findIdx? (·.fused) with
      | some i => some (l.eraseIdx i ++ [e])
      | none => none
  | .flags cls line soft fused unrep =>
    some (l.map fun x => if x.cls == cls && x.line == line then
      { x with soft := soft, fused := fused, unrepairable := unrep } else x)

/-! ### The learned INT correction (R141, R548) -/

/-- The correction saved in flash; the factory value where none is saved. -/
def savedCorrection (f : List Host.Cell) : Int :=
  (recordInForce f 836 (leBytes 8 Config.correctionMagic.toNat)).elim Config.factoryCorrection fun x =>
    ofTwos 32 (fieldAt x.2.2 12 4)

/-- The record of a correction, in the model's own layout: `magic`, `gen`, the value, zeros and `crc`. -/
def correctionBytes (f : List Host.Cell) (v : Int) : List Byte :=
  let magic := leBytes 8 Config.correctionMagic.toNat
  let gen := (recordInForce f 836 magic).elim 1 fun x => fieldAt x.2.2 8 4 + 1
  withCrc (magic ++ leBytes 4 gen ++ leBytes 4 (toTwos 32 v) ++ zeros 44)

/-! ### Steps (R542, R546) -/

/-- A step carried out in full. -/
def FlashStep.apply (x : FlashStep) (f : List Host.Cell) : List Host.Cell :=
  match x with
  | .erase s => flashErase f s
  | .program a bs => flashWrite f a bs

/-- The offsets a step acts on: the first and their number. -/
def FlashStep.target : FlashStep → Nat × Nat
  | .erase s => (s * sectorBytes, sectorBytes)
  | .program a bs => (a, bs.length)

/-- Bytes of a step's target that the device has left otherwise. -/
def spoil (x : FlashStep) (wrong : List FlashFault) (f : List Host.Cell) : List Host.Cell :=
  let (a, n) := x.target
  wrong.foldl (fun f w => if a ≤ w.offset && w.offset < a + n then flashPut f w.offset (BitVec.ofNat 8 w.value) else f) f

/-- The first byte that differs at the read-back of a step (R546). -/
def firstDifference (x : FlashStep) (f : List Host.Cell) : Option Nat :=
  let (a, n) := x.target
  let want := match x with
    | .erase _ => List.replicate n flashBlank
    | .program _ bs => bs
  (((flashBytes f a n).zip want).findIdx? fun p => p.1 != p.2).map (a + ·)

/-- A step cut short by a reset or a power loss (R546): each target bit of a page holds its old value or its new one;
the bytes of a sector may hold any value. Which is a free value. -/
def FlashStep.tear (x : FlashStep) (use : Nat) (f : List Host.Cell) : List Host.Cell :=
  match x with
  | .program a bs => (bs.zipIdx).foldl (fun f p =>
      let mask := Config.tornByte (a + p.2) use
      flashPut f (a + p.2) ((flashByte f (a + p.2) &&& mask) ||| (p.1 &&& ~~~mask))) f
  | .erase s => (List.range sectorBytes).foldl (fun f k =>
      flashPut f (s * sectorBytes + k) (Config.tornByte (s * sectorBytes + k) use)) f

/-- The step the flash is making. -/
def FlashState.present (x : FlashState) : Option FlashStep :=
  match x.busy with
  | .idle => none
  | .host => x.jobs.head?.bind fun j => j.steps.head?
  | .own => x.ownSteps.head?

/-- The flash after the step under way has been cut short (R546, R562). -/
def State.tornFlash (s : State) : List Host.Cell :=
  match s.dev.fw.present with
  | some x => x.tear s.dev.free s.flash
  | none => s.flash

/-! ### The queue of operations (R547) -/

/-- Change the flash state. -/
def Dev.modFw (d : Dev) (f : FlashState → FlashState) : Dev := { d with fw := f d.fw }

/-- The steps of a write of the module's own, against the flash as it stands (R548, R549); none where there is nothing to
write. -/
def OwnWrite.steps (w : OwnWrite) (f : List Host.Cell) (t : TimeWord) : List FlashStep :=
  match w with
  | .boot c _ => recordSteps f 0 bootMagic ((c.apply (baseRecord f)).next f t).bytes
  | .correction v => recordSteps f 836 (leBytes 8 Config.correctionMagic.toNat) (correctionBytes f v)
  | .keys c _ => imageSteps f 834 (textBytes "PXKEYRNG") (c.apply (keyRing f)).bytes
  | .faults c =>
    match c.apply (faultList f) with
    | some l => imageSteps f 838 (textBytes "PXLFLIST") (l.map FaultEntry.bytes).flatten
    | none => []

/-- The command that waits for a write of the module's own. -/
def OwnWrite.ctx : OwnWrite → Option Ctx
  | .boot _ c => c
  | .keys _ c => c
  | _ => none

/-- Answer a command that waits, if one does. -/
def Dev.finishOpt (d : Dev) (c : Option Ctx) (st : Status) (data : List Byte) : Dev :=
  match c with
  | some c => d.finish c st data
  | none => d

/-- The lasting-fault list is full: event 1906 (R533, R539). -/
def Dev.listFull (d : Dev) (f : List Host.Cell) (c : ListChange) : Dev :=
  match c, c.apply (faultList f) with
  | .found cls line _, none => d.raise 1906 0 [evNat cls, evNat line]
  | _, _ => d

/-- Reply data of the command that waits for a write of the module's own: the identifier of an added key (R456). -/
def OwnWrite.data : OwnWrite → List Byte
  | .keys (.add k) _ => leBytes 8 (keyIdOf k)
  | _ => []

/-- A write that has nothing to write ends at once: its command is answered OK; a full list raises event 1906. -/
def OwnWrite.settle (w : OwnWrite) (f : List Host.Cell) (d : Dev) : Dev :=
  let d := match w with
    | .faults c => d.listFull f c
    | _ => d
  d.finishOpt w.ctx .ok w.data

/-- Every byte of a range is blank (R545). -/
def isBlank (f : List Host.Cell) (a n : Nat) : Bool := (flashBytes f a n).all (· == flashBlank)

/-- A step programs only bytes that read 0xFF (R545). -/
def FlashStep.blank (x : FlashStep) (f : List Host.Cell) : Bool :=
  match x with
  | .erase _ => true
  | .program a bs => isBlank f a bs.length

/-- Start the next operation where none is under way: the module's own writes go ahead of the host's (R547). A program of
the host that finds its target not blank, an erase before it having failed, is answered NOT_ERASED (R545). At most `fuel`
operations that have nothing to do are passed over. -/
def State.kickN : Nat → State → State
  | 0, s => s
  | fuel + 1, s =>
    if s.dev.fw.busy != .idle then s
    else
      match s.dev.fw.own with
      | w :: rest =>
        let steps := if s.dev.fw.ownSteps.isEmpty then w.steps s.flash s.dev.now else s.dev.fw.ownSteps
        if steps.isEmpty then
          State.kickN fuel (s.onDev fun d => w.settle s.flash (d.modFw fun x => { x with own := rest }))
        else s.onDev (·.modFw fun x => { x with ownSteps := steps, busy := .own })
      | [] =>
        match s.dev.fw.jobs with
        | [] => s
        | j :: js =>
          if j.steps.head?.all (·.blank s.flash) then s.onDev (·.modFw fun x => { x with busy := .host })
          else State.kickN fuel (s.onDev fun d => (d.modFw fun x => { x with jobs := js }).finish j.ctx .notErased [])

/-- Start the next operation where none is under way. -/
def State.kick (s : State) : State := s.kickN (s.dev.fw.own.length + s.dev.fw.jobs.length + 1)

/-- Queue a write of the module's own. -/
def State.ownWrite (s : State) (w : OwnWrite) : State := (s.onDev (·.modFw fun x => { x with own := x.own ++ [w] })).kick

/-- Queue a host command that erases or programs. -/
def State.hostJob (s : State) (j : FlashJob) : State := (s.onDev (·.modFw fun x => { x with jobs := x.jobs ++ [j] })).kick

/-- The flash once the host operations that wait have been carried out. -/
def State.flashAhead (s : State) : List Host.Cell :=
  s.dev.fw.jobs.foldl (fun f j => j.steps.foldl (fun f x => x.apply f) f) s.flash

/-- A host operation that waits acts on a range of offsets (R421). -/
def Dev.flashHeld (d : Dev) (a n : Nat) : Bool :=
  d.fw.jobs.any fun j => j.steps.any fun x => let (b, k) := x.target; a < b + k && b < a + n

/-! ### Commands of the owner area (R544, R565) -/

/-- `FLASH.READ`. -/
def flashReadKind : CmdKind := ⟨0x0E06, false, [.lodge, .standby, .ready, .running, .quiesce, .faultHold]⟩

/-- Bytes of the flash as they stand (R462, R565). -/
def flashReadEff (offset length : Nat) : Effect := fun _ s =>
  if 1 ≤ length && length ≤ 4096 && offset + length ≤ flashSize then (s, .done .ok (flashBytes s.flash offset length))
  else (s, .done .outOfRange [])

/-- FLASH_READ. -/
def execFlashRead (h : CmdHeader) (offset length : Nat) (s : State) : Host.Outcome State Fault Refusal :=
  .next (hostRun (.flashRead h offset length) flashReadKind h (flashReadEff offset length) s)

/-- Lodge and the working states: where a command may erase or program. -/
def flashStates : List DevState := [.lodge, .standby, .ready, .running, .quiesce]

/-- `FLASH.ERASE`. -/
def flashEraseKind : CmdKind := ⟨0x0E07, false, flashStates⟩

/-- Erase a sector of the owner area; answered on completion (R544, R547). -/
def flashEraseEff (sector : Nat) : Effect := fun c s =>
  if 1023 < sector then (s, .done .outOfRange [])
  else if sector < ownerFirst then (s, .done .locked [])
  else (s.hostJob ⟨c, [.erase sector], .answer⟩, .wait)

/-- FLASH_ERASE. -/
def execFlashErase (h : CmdHeader) (sector : Nat) (s : State) : Host.Outcome State Fault Refusal :=
  .next (hostRun (.flashErase h sector) flashEraseKind h (flashEraseEff sector) s)

/-- `FLASH.WRITE`. -/
def flashWriteKind : CmdKind := ⟨0x0E08, false, flashStates⟩

/-- Program bytes into the owner area: the checks of R545 in their order; answered on completion. -/
def flashWriteEff (offset : Nat) (data : List Byte) : Effect := fun c s =>
  if data.length < 1 || 1016 < data.length || flashSize < offset + data.length then (s, .done .outOfRange [])
  else if offset < ownerFirst * sectorBytes then (s, .done .locked [])
  else if !isBlank s.flashAhead offset data.length then (s, .done .notErased [])
  else (s.hostJob ⟨c, programSteps offset data, .answer⟩, .wait)

/-- FLASH_WRITE. -/
def execFlashWrite (h : CmdHeader) (offset : Nat) (data : List Byte) (s : State) : Host.Outcome State Fault Refusal :=
  .next (hostRun (.flashWrite h offset data) flashWriteKind h (flashWriteEff offset data) s)

end Sys2Proof.Machine
end

