-- ==== Sys2Proof/Machine/Merge.lean ====
section
/-! DEFINITION. The merge engine: lift wheels, passes, reassembly, the event builder and the release of items
(R266 to R302). -/

namespace Sys2Proof.Machine

/-! ### Ports and wheels (R270, R276, R480) -/

/-- Change the merge engine. -/
def Dev.modMrg (d : Dev) (f : MrgState → MrgState) : Dev := { d with mrg := f d.mrg }

/-- Change the counters of R302. -/
def Dev.countMrg (d : Dev) (f : MrgCounters → MrgCounters) : Dev := d.modMrg fun m => { m with counters := f m.counters }

/-- Change the link layer of a port. -/
def Dev.modLink (d : Dev) (p : Nat) (f : LinkPort → LinkPort) : Dev := { d with link := modAt d.link p f }

/-- Change the transmit direction of a port's link layer. -/
def Dev.modTx (d : Dev) (p : Nat) (f : LinkTx → LinkTx) : Dev := d.modLink p fun l => { l with tx := f l.tx }

/-- Change the receive direction of a port's link layer. -/
def Dev.modRx (d : Dev) (p : Nat) (f : LinkRx → LinkRx) : Dev := d.modLink p fun l => { l with rx := f l.rx }

/-- The port is up in the chairlift (R319). -/
def Dev.portUp (d : Dev) (p : Nat) : Bool := (d.lift[p]?).any (·.step == .up)

/-- The member is left behind (R478). -/
def Dev.leftBehind (d : Dev) (p : Nat) : Bool := (d.link[p]?).any (·.tx.leftBehind)

/-- A half chair of a lift wheel (R270). -/
structure HalfChair where
  used : Bool
  address : Nat
  vc : Nat
  deriving DecidableEq, Repr

/-- Chair i of a port's wheel in a map, transmit half at offset 0 and receive half at offset 2 (R270). -/
def halfChair (m : Option PisteMap) (p i off : Nat) : HalfChair :=
  let w := mapNum m 0x0048 p (16 + 4 * (i % 4096) + off) 2 0
  ⟨bit w 15, bits w 11 0, bits w 13 12⟩

/-- The map whose transmit half is in force on a port (R276). -/
def Dev.txMap (d : Dev) (p : Nat) : Option PisteMap := if (d.link[p]?).any (·.tx.oldWheel) then d.map.old else d.map.active

/-- The map whose receive half is in force on a port (R276). -/
def Dev.rxMap (d : Dev) (p : Nat) : Option PisteMap := if (d.link[p]?).any (·.rx.oldWheel) then d.map.old else d.map.active

/-- The ports that send the upward streams: Up-A and Up-B (R271). -/
def upPorts (m : Option PisteMap) : List Nat :=
  match portOfRole m 2, portOfRole m 3 with
  | some a, some b => [a, b]
  | some a, none => [a]
  | none, some b => [b]
  | none, none => []

/-- The ports that send the downward stream of a first port: it and its twin (R481). -/
def downPorts (m : Option PisteMap) (p : Nat) : List Nat :=
  match twinPort m p with
  | some t => [p, t]
  | none => [p]

/-- The members of the pair a port belongs to, the port alone where it has none (R477, R481). -/
def pairOf (m : Option PisteMap) (p : Nat) : List Nat :=
  if portRole m p == 2 || portRole m p == 3 then upPorts m else downPorts m (firstPort m p)

/-- The port is a member of a pair (R477, R480). -/
def inPair (m : Option PisteMap) (p : Nat) : Bool := (pairOf m p).length == 2

/-! ### Local buffers for markers (R297) -/

/-- A marker formed in MRG: its buffer comes from the local pool, now or as soon as one is free. -/
def Dev.newMarker (d : Dev) (r : Rec) : Dev × QRec :=
  if d.mayTake 2 then d.newRec 2 r.bytes r.eventKey .loc else d.placeRec r.bytes r.eventKey .loc []

/-- Take the buffers that the markers of an event still wait for; the second part says that all have theirs. -/
def Dev.claimMarkers (d : Dev) (l : List QRec) : Dev × List QRec × Bool :=
  l.foldl (fun (x : Dev × List QRec × Bool) q =>
    let (d, done, ok) := x
    if q.bufs = 0 then
      if d.mayTake 2 then
        let (d, chain) := (d.countBufs .loc (· + 1)).takeBuffers 2 1
        (d, done ++ [{ q with chain := chain }], ok)
      else (d, done ++ [q], false)
    else (d, done ++ [q], ok)) (d, [], true)

/-! ### The event builder (R289 to R292) -/

/-- `close_time` and `late_mode` in force at MRG (R290, R301). -/
def Dev.closing (d : Dev) : Nat × Nat := if d.markerInCmp then d.mrg.oldClose else (d.mrg.closeTime, d.mrg.lateMode)

/-- `max_open` of the event-building table. -/
def maxOpen (m : Option PisteMap) : Nat := mapNum m 0x004B 0 24 2 1024

/-- The expected set of a map, ascending (R293). -/
def expectedSet (m : Option PisteMap) : List Nat :=
  match m.bind (·.sect? 0x004B 0) with
  | none => []
  | some bs =>
    let bytes := (bs.drop 64).take 512
    (bytes.zipIdx.map fun x => ((List.range 8).filter fun i => x.1.getLsbD i).map fun i => 8 * x.2 + i).flatten

/-- The end of a key's coalescing window as a global tick count, its second chosen nearest to now (R11, R289). -/
def Dev.keyWindowEnd (d : Dev) (key : Nat) : Int :=
  let w := coalesce d.mrgMap
  let tick := key % 2 ^ 32
  let fin := min (tick / w * w + w) ticksPerSecond
  let sec : Int := d.time.seconds
  let low : Int := sec - (sec - (key / 2 ^ 32 : Nat)) % 65536
  let at_ := fun (s : Int) => s * ticksPerSecond + tick
  let now : Int := d.globalNow
  let s := if (at_ low - now).natAbs ≤ (at_ (low + 65536) - now).natAbs then low else low + 65536
  s * ticksPerSecond + fin

/-- The deadline of a key: the one its open event opened under, else by the `close_time` in force (R289, R301). -/
def Dev.deadlineOf (d : Dev) (key : Nat) : Int :=
  match d.mrg.events.find? fun e => e.key == key && !e.closed with
  | some e => e.deadline
  | none => d.keyWindowEnd key + d.closing.1

/-- Type of a record in merge memory. -/
def QRec.typ (q : QRec) : Nat := fieldAt q.bytes 0 1

/-- `origin` of a record in merge memory. -/
def QRec.origin (q : QRec) : Nat := fieldAt q.bytes 6 2 % 4096

/-- The record is a gap marker without a key (R283). -/
def QRec.unkeyed (q : QRec) : Bool := q.typ == 0x40 && !bit (fieldAt q.bytes 36 1) 7

/-- The origin an item accounts for, if one (R284, R291). -/
def QRec.accounts (q : QRec) : Option Nat :=
  if q.typ == 0x10 || q.typ == 0x12 then some q.origin
  else if q.typ == 0x40 then
    let cause := fieldAt q.bytes 36 1 % 128
    if cause == 2 || (4 ≤ cause && cause ≤ 7) then some (fieldAt q.bytes 38 2 % 4096) else none
  else none

/-- Every expected origin is accounted (R292). -/
def OpenEvent.complete (e : OpenEvent) : Bool := !e.expected.isEmpty && e.expected.all e.accounted.contains

/-- Expected origins not accounted, ascending. -/
def OpenEvent.absent (e : OpenEvent) : List Nat := e.expected.filter fun o => !e.accounted.contains o

/-- Hand closed events to the VC1 output queue in opening order, as far as their markers have buffers (R292, R297). -/
def Dev.handOn (d : Dev) : Nat → Dev
  | 0 => d
  | n + 1 =>
    match d.mrg.events with
    | [] => d
    | e :: rest =>
      if e.closed then
        let (d, recs, ok) := d.claimMarkers e.recs
        let d' := match e.opened with
          | some t => d.measure 7 0 (ticksNs (d.sys.ticks - t))
          | none => d
        if ok then ((d'.modMrg fun m => { m with events := rest }).sendItem 1 recs).handOn n
        else d.modMrg fun m => { m with events := { e with recs := recs } :: rest }
      else d

/-- Hand on every event that may go. -/
def Dev.handEvents (d : Dev) : Dev := d.handOn d.mrg.events.length

/-- Replace an event of the builder, the first that is open under its key. -/
def Dev.setEvent (d : Dev) (e : OpenEvent) : Dev :=
  match d.mrg.events.findIdx? fun x => x.key == e.key && !x.closed with
  | some i => d.modMrg fun m => { m with events := m.events.set i e }
  | none => d

/-- Close an open event, with a marker of a cause for each absent origin where a cause is given (R291, R292). -/
def Dev.closeEvent (d : Dev) (e : OpenEvent) (cause : Nat) : Dev :=
  let (d, marks) := e.absent.foldl (fun (x : Dev × List QRec) o =>
    let (d, q) := x.1.newMarker (gapMarker x.1 cause true 1 o 1 e.key e.key)
    (d, x.2 ++ [q])) (d, [])
  d.setEvent { e with closed := true, recs := e.recs ++ marks }

/-- Close an open event at its deadline, or by `MRG.CLOSE_ALL` (R292). -/
def Dev.closeAtDeadline (d : Dev) (e : OpenEvent) : Dev :=
  let d := (d.closeEvent e 2).countMrg fun c => { c with closedDeadline := (c.closedDeadline + 1) % 2 ^ 64 }
  if e.absent.isEmpty then d else d.raiseLimited 1408 0 0 [evNat e.key, evNat e.absent.length]

/-- The oldest open event closes early (R291). -/
def Dev.closeOldest (d : Dev) : Dev :=
  match d.mrg.events.find? fun e => !e.closed with
  | none => d
  | some e =>
    let d := (d.closeEvent e 5).countMrg fun c => { c with closedEarly := (c.closedEarly + 1) % 2 ^ 64 }
    d.raiseLimited 1415 0 0 [evNat e.key]

/-- An item is late (R290). -/
def Dev.lateItem (d : Dev) (q : QRec) : Dev :=
  let one := fun (d : Dev) (r : QRec) => d.modMrg fun m =>
    { m with events := m.events ++ [⟨r.key, 0, [r], [], [], true, none⟩] }
  if d.closing.2 = 0 then
    let d := (one d q).countMrg fun c => { c with lateForwarded := (c.lateForwarded + 1) % 2 ^ 64 }
    d.raiseLimited 1409 0 0 [evNat q.key, evNat q.origin, evNat 0]
  else
    let (d, mark) := d.newMarker (gapMarker d 3 true 1 q.origin 1 q.key q.key)
    let d := (one (d.releaseRec q) mark).countMrg fun c => { c with lateDropped := (c.lateDropped + 1) % 2 ^ 64 }
    d.raiseLimited 1409 0 0 [evNat q.key, evNat q.origin, evNat 1]

/-- The open event of a key, a new one where none is open: the oldest closes early where `max_open` are (R291). -/
def Dev.openEvent (d : Dev) (key : Nat) : Dev × OpenEvent :=
  match d.mrg.events.find? fun e => e.key == key && !e.closed with
  | some e => (d, e)
  | none =>
    let deadline := d.deadlineOf key
    let d := if maxOpen d.mrgMap ≤ (d.mrg.events.filter fun e => !e.closed).length then d.closeOldest else d
    let e : OpenEvent := ⟨key, deadline.toNat, [], [], expectedSet d.mrgMap, false, some d.sys.ticks⟩
    (d.modMrg fun m => { m with events := m.events ++ [e] }, e)

/-- An item of VC1 reaches the builder (R290 to R292). -/
def Dev.toBuilder (d : Dev) (q : QRec) : Dev :=
  if d.deadlineOf q.key ≤ (d.globalNow : Int) then (d.lateItem q).handEvents
  else
    let (d, e) := d.openEvent q.key
    let acc := match q.accounts with
      | some o => if e.expected.contains o && !e.accounted.contains o then e.accounted ++ [o] else e.accounted
      | none => e.accounted
    let e := { e with recs := e.recs ++ [q], accounted := acc }
    let d :=
      if e.complete then
        (d.setEvent { e with closed := true }).countMrg fun c => { c with closedComplete := (c.closedComplete + 1) % 2 ^ 64 }
      else d.setEvent e
    d.handEvents

/-- A complete record of a VC goes on: VC1 items to the builder, but for unkeyed markers, and the others to the output
queue of their VC (R287, R294). -/
def Dev.forwardRec (d : Dev) (vc : Nat) (q : QRec) : Dev :=
  if vc = 1 && !q.unkeyed then d.toBuilder q else d.sendItem vc [q]

/-- A gap marker that MRG forms for a stream (R284): to the builder where it is keyed and of VC1, else to the VC's
output queue. -/
def Dev.streamMarker (d : Dev) (cause : Nat) (keyed : Bool) (vc subject key : Nat) : Dev :=
  let r := gapMarker d cause keyed vc subject 1 key key
  if vc = 1 && keyed then
    let (d, q) := d.newMarker r
    d.toBuilder q
  else d.sendUp vc r

/-- Every open event whose deadline has come closes, in opening order (R292). -/
def Dev.deadlines (d : Dev) : Dev :=
  let due := d.mrg.events.filter fun e => !e.closed && e.deadline ≤ d.globalNow
  (due.foldl Dev.closeAtDeadline d).handEvents

/-- EVENT_DEADLINE. -/
def execEventDeadline (s : State) : Host.Outcome State Fault Refusal := .next (s.onDev (·.deadlines))

/-! ### Passes (R279, R280) -/

/-- Every return whose delay has passed is sent (R279). -/
def Dev.returnDelays (d : Dev) : Dev :=
  let due := d.mrg.grants.filter fun g => g.returnable != 0 && g.since + 256 * g.delay ≤ d.sys.ticks
  due.foldl (fun d g => d.sendReturn g.address g.port g.vc) d

/-- PASS_RETURN_DELAY. -/
def execPassReturnDelay (s : State) : Host.Outcome State Fault Refusal := .next (s.onDev (·.returnDelays))

/-- Passes held for a stream of the module's own on a port (R277, R282). -/
def Dev.holdCount (d : Dev) (p vc : Nat) : Int :=
  ((d.mrg.holds.find? fun h => h.port == p && h.vc == vc).map (·.count)).getD 0

/-- Change a hold count. -/
def Dev.modHold (d : Dev) (p vc : Nat) (f : Hold → Hold) : Dev :=
  let change := fun (h : Hold) => if h.port == p && h.vc == vc then f h else h
  d.modMrg fun m => { m with holds := m.holds.map change }

/-- A return item arrives on a port (R280): for a stream of the module's own it raises its hold count, up to its
passes; for a pass-mode partner it goes on to the partner's port; any other is discarded. -/
def Dev.returnItem (d : Dev) (p address vc count : Nat) : Dev :=
  let m := d.map.active
  let own := if portRole m p == 1 then address == 0 else address == 0 || address == selfAddress m
  if own then d.modHold p vc fun h => { h with count := min (h.count + count) h.passes }
  else if portRole m p == 1 then d
  else match route m address with
    | some (q, true) => d.modTx q fun t => { t with returns := t.returns ++ [⟨address, vc, count, true⟩] }
    | _ => d

/-- The return items of a lift-pass payload (R280): unused items have a count of 0. -/
def Dev.returnItems (d : Dev) (p : Nat) (payload : List Byte) : Dev :=
  (List.range 13).foldl (fun d i =>
    let a := fieldAt payload (4 * i) 2
    let n := fieldAt payload (4 * i + 2) 2
    if n = 0 then d else d.returnItem p (bits a 11 0) (bits a 13 12) n) d

/-! ### Reassembly (R273, R279, R286, R287) -/

/-- The stream of a VC that an address sends on a port, as the receiver holds it. -/
def Dev.rxStream (d : Dev) (p a v : Nat) : RxStream :=
  (d.mrg.streams.find? fun s => s.port == p && s.address == a && s.vc == v).getD ⟨p, a, v, .start, [], 0, 0, false, []⟩

/-- Put a stream back. -/
def Dev.setStream (d : Dev) (s : RxStream) : Dev :=
  d.modMrg fun m => { m with streams :=
    (m.streams.filter fun x => !(x.port == s.port && x.address == s.address && x.vc == s.vc)) ++ [s] }

/-- A stream without a record or packet under way. -/
def RxStream.cleared (s : RxStream) (mode : RxMode) : RxStream :=
  { s with mode := mode, bytes := [], parcels := 0, need := 0, poisoned := false, chain := [] }

/-- Buffers of a reservation are free again. -/
def Dev.freeChain (d : Dev) (a p v : Nat) (chain : List Nat) : Dev :=
  (d.countBufs (.grant a p v) (· - chain.length)).dropBuffers chain

/-- What a stream had gathered is given up, and its buffers with it. -/
def Dev.resetStream (d : Dev) (s : RxStream) (mode : RxMode) : Dev :=
  (d.freeChain s.address s.port s.vc s.chain).setStream (s.cleared mode)

/-- A record is poisoned in place: its flag set and its trailer written as the complement of the CRC (R27, R390). -/
def poisonBytes (bs : List Byte) : List Byte :=
  let hd := (bs.take (bs.length - 4)).set 7 ((bs[7]?.getD 0) ||| 0x10)
  hd ++ leBytes 4 (crc32c hd ^^^ 0xFFFFFFFF)

/-- The trailer of a record or packet matches the bytes before it (R226, R414). -/
def crcMatches (bs : List Byte) : Bool := fieldAt bs (bs.length - 4) 4 == crc32c (bs.take (bs.length - 4))

/-- The `poisoned` flag of a record's bytes. -/
def bytesPoisoned (bs : List Byte) : Bool := bit (fieldAt bs 7 1) 4

/-- The record a stream was gathering is given up with a gap marker; its parcels' passes return (R273, R279, R288). -/
def Dev.dropGathered (d : Dev) (s : RxStream) (cause : Nat) : Dev :=
  (d.streamMarker cause true s.vc s.address (fieldAt s.bytes 10 6)).returnPasses s.address s.port s.vc s.parcels

/-- A parcel of a stream is refused (R273, R279): a record it belongs to is discarded with a marker of cause 4, and
the record's later parcels are still to be discarded. -/
def Dev.refuseParcel (d : Dev) (p a v : Nat) : Dev :=
  let s := d.rxStream p a v
  match s.mode with
  | .gather =>
    let left := s.need - s.parcels - 1
    let d := if a == 0 then d.returnPasses a p v s.parcels else d.dropGathered s 4
    d.resetStream s (if left = 0 then .start else .discard left)
  | .discard n => d.setStream { s with mode := if n ≤ 1 then .start else .discard (n - 1) }
  | _ => d

/-- A stream halts on a malformed record header (R286). -/
def Dev.haltStream (d : Dev) (s : RxStream) (length typ : Nat) : Dev :=
  let d := d.resetStream s .halted
  let d := d.countMrg fun c => { c with haltedStreams := (c.haltedStreams + 1) % 2 ^ 64 }
  (d.streamMarker 7 false s.vc s.address 0).raiseLimited 1413 0 s.port
    [evNat s.port, evNat s.address, evNat s.vc, evNat length, evNat typ]

/-- Record types a VC accepts (R286). -/
def vcAccepts (vc typ : Nat) : Bool :=
  match vc with
  | 0 => typ == 0x30 || typ == 0x31 || typ == 0x40
  | 1 => typ == 0x10 || typ == 0x12 || typ == 0x40
  | 2 => typ == 0x11 || typ == 0x40
  | _ => true

/-- What a record's last parcel makes of it at receipt: poisoned where a parcel carried the flag, or where its CRC does
not match with its own flag clear (R28, R30, R287). -/
def Dev.receiveRecord (d : Dev) (p : Nat) (bytes : List Byte) (flagged : Bool) : Dev × List Byte :=
  if flagged && !bytesPoisoned bytes then
    (d.modInteg fun g => { g with poisonedFlag := (g.poisonedFlag + 1) % 2 ^ 64 }, poisonBytes bytes)
  else if !bytesPoisoned bytes && !crcMatches bytes then
    ((d.modInteg fun g => { g with poisonedCrc := (g.poisonedCrc + 1) % 2 ^ 64 }).raise 1672 0
      [evNat (fieldAt bytes 0 1), evNat (fieldAt bytes 6 2 % 4096), evNat (fieldAt bytes 10 6), evNat p], poisonBytes bytes)
  else (d, bytes)

/-- A copy of a partner's record goes on in its reservation (R281, R287, R486). -/
def Dev.forwardCopy (d : Dev) (c : Copy) : Dev :=
  let (d, q) := d.placeRec c.bytes (fieldAt c.bytes 10 6) (.grant c.address c.port c.vc) c.chain
  (d.noteSent (Rec.ofBytes c.bytes)).forwardRec c.vc q

/-- A copy that does not go on: its buffers are free again and its passes return (R486). -/
def Dev.dropCopy (d : Dev) (c : Copy) : Dev :=
  (d.freeChain c.address c.port c.vc c.chain).returnPasses c.address c.port c.vc (parcelsOf c.bytes.length)

/-! ### Downward packets (R268, R415, R416) -/

/-- A packet joins the downward queue of a Down port, or is dropped where the queue is at its limit (R294, R295). One
that held a poisoned parcel goes on in poisoned parcels (R28). -/
def Dev.joinDown (d : Dev) (p : Nat) (bytes : List Byte) (poisoned : Bool) : Dev :=
  let t := getD d.mrg.down p ⟨[], none, none⟩
  if t.items.length < downItems d.map.active then
    let (d, q) := d.placeRec bytes 0 .loc []
    d.modMrg fun m => { m with down := modAt m.down p fun t => { t with items := t.items ++ [⟨[{ q with damaged := poisoned }]⟩] } }
  else
    (d.countMrg fun c => { c with droppedCommands := (c.droppedCommands + 1) % 2 ^ 64 }).raiseLimited 1418 0 p
      [evNat p, evNat (fieldAt bytes 4 2 % 4096)]

/-- First Down ports of a map: those that carry a downward stream of their own (R266, R481). -/
def firstDownPorts (m : Option PisteMap) : List Nat :=
  (List.range 8).filter fun p => portRole m p == 1 && firstPort m p == p

/-- A packet of the uplink is handed on: to CTRL, to the downward streams, or to both; its passes return (R268, R279,
R416). -/
def Dev.handPacket (d : Dev) (c : Copy) : Dev :=
  let m := d.map.active
  let partner := fieldAt c.bytes 4 2 % 4096
  let d := d.dropCopy c
  let ctrl := fun (d : Dev) => { d with cmd := { d.cmd with packets := d.cmd.packets ++ [(c.port, c.bytes, c.poisoned)] } }
  if partner == 0xFFF then (firstDownPorts m).foldl (fun d p => d.joinDown p c.bytes c.poisoned) (ctrl d)
  else if partner == 0 || partner == selfAddress m then ctrl d
  else match route m partner with
    | some (p, _) => d.joinDown (firstPort m p) c.bytes c.poisoned
    | none => d

/-! ### Release of items (R288, R296) -/

/-- A record may be released as far as the ports that carry it are concerned: acknowledged on every one that is up and
not left behind. -/
def Dev.recAcked (d : Dev) (q : QRec) : Bool :=
  !q.acked.isEmpty && q.carriers.all fun p => q.acked.contains p || !d.portUp p || d.leftBehind p

/-- The log is open and every drive its layout needs is up, or one of a mirror (R380). -/
def Dev.storeOnline (d : Dev) : Bool := hasStore d.map.active && d.store.opened && d.store.mode != 2

/-- STORE forwards the records of a VC, whose queue then sends none of its own on the Up ports (R384, R388). -/
def Dev.storeForwards (d : Dev) (vc : Nat) : Bool := d.storeOnline && d.store.mode == 1 && bit d.store.vcMask vc

/-- An item of an upward queue may be released (R296): no port sends the items that STORE forwards (R384). -/
def Dev.upReleasable (d : Dev) (vc : Nat) (i : Item) : Bool :=
  let m := d.map.active
  i.recs.all fun q =>
    (if (upPorts m).isEmpty then hasStore m
     else d.recAcked q || (q.carriers.isEmpty && !q.fromStore && d.storeForwards vc)) && (!hasStore m || q.taken)

/-- An item of a downward queue may be released. -/
def Dev.downReleasable (d : Dev) (i : Item) : Bool := i.recs.all d.recAcked

/-- The front item of an upward queue goes: its buffers and passes return, and a waiting marker of cause 1 is formed
where the earlier one has gone (R295, R296). -/
def Dev.releaseFront (d : Dev) (vc : Nat) (i : Item) : Dev :=
  let d := (i.recs.foldl Dev.releaseRec d).modUp vc fun t => { t with items := t.items.drop 1 }
  if i.recs.any (·.ownMarker) then
    match (d.upStream vc).drops with
    | some c => d.formMarker vc c.count c.firstKey c.lastKey
    | none => d
  else d

/-- Release from the front of an upward queue. -/
def Dev.releaseUp (d : Dev) (vc : Nat) : Nat → Dev
  | 0 => d
  | n + 1 =>
    match (d.upStream vc).items with
    | [] => d
    | i :: _ => if d.upReleasable vc i then (d.releaseFront vc i).releaseUp vc n else d

/-- Release from the front of a downward queue. -/
def Dev.releaseDown (d : Dev) (p : Nat) : Nat → Dev
  | 0 => d
  | n + 1 =>
    match (getD d.mrg.down p ⟨[], none, none⟩).items with
    | [] => d
    | i :: _ =>
      if d.downReleasable i then
        (d.modMrg fun m => { m with down := modAt m.down p fun t => { t with items := t.items.drop 1 } }).releaseDown p n
      else d

/-- A pass-queue parcel may be released: acknowledged on every port that sends it and is up and not left behind (R296). -/
def Dev.passAcked (d : Dev) (x : PassParcel) : Bool :=
  !x.acked.isEmpty && x.carriers.all fun p => x.acked.contains p || !d.portUp p || d.leftBehind p

/-- Release from the front of a pass queue; a buffer is free again once its last parcel has gone. -/
def Dev.releasePassOf (d : Dev) (vc : Nat) : Dev :=
  let q := getD d.mrg.pass vc []
  let left := q.dropWhile d.passAcked
  let gone := ((q.map (·.buf)).eraseDups).filter fun b => !left.any (·.buf == b)
  (d.modMrg fun m => { m with pass := modAt m.pass vc fun _ => left }).dropBuffers gone

/-- Release from the front of every pass queue. -/
def Dev.releasePass (d : Dev) : Dev := (List.range 4).foldl Dev.releasePassOf d

/-- Release every item that may go. -/
def Dev.releaseItems (d : Dev) : Dev :=
  let d := d.releasePass
  let d := (List.range 4).foldl (fun d vc => d.releaseUp vc ((d.upStream vc).items.length + 1)) d
  (List.range 8).foldl (fun d p => d.releaseDown p ((getD d.mrg.down p ⟨[], none, none⟩).items.length)) d

/-! ### What waits for buffers (R259, R297) -/

/-- It is written and joins its queue (R295, R297). -/
def Dev.joinOne (d : Dev) (w : Option Writer) : Dev :=
  match d.firstWaiting w with
  | none => d
  | some x =>
    if d.mayJoin w then
      let y := (d.modMrg fun m => { m with waiting := m.waiting.erase x }).writeLocal x.vc x.record x.old
      y.1.raiseDropped x.vc y.2
    else d

/-- The writer whose turn it is of the three that share client 6 writes its oldest waiting record (R44). -/
def Dev.joinWriters (d : Dev) : Dev :=
  match nextWriter d.turns.writer fun w => d.mayJoin (some w) with
  | some w => d.joinOne (some w)
  | none => d

/-! ### A map becomes active (R279, R282, R293) -/

/-- The entries of the credit table: address, port, vc, kind, batch, passes and delay (R278). -/
def creditEntry (m : Option PisteMap) (k : Nat) : Grant × Bool :=
  let o := 16 + 8 * k
  let w := mapNum m 0x0049 0 (o + 2) 1 0
  (⟨mapBits m 0x0049 0 o 2 11 0 0, bits w 2 0, bits w 4 3, mapNum m 0x0049 0 (o + 4) 2 0, mapNum m 0x0049 0 (o + 3) 1 0,
    mapNum m 0x0049 0 (o + 6) 1 0, 0, 0, 0, 0⟩, bit w 5)

/-- The ports an entry stands for: both members of the uplink pair, or a first port and its twin (R281, R282, R481). -/
def creditPorts (m : Option PisteMap) (p : Nat) : List Nat := if portRole m p == 2 then upPorts m else downPorts m p

/-- The grants of a map that becomes active: kept counts, new passes (R282). -/
def newGrants (m : Option PisteMap) (old : List Grant) : List Grant :=
  (((List.range (mapCount m 0x0049 0)).map (creditEntry m)).filter fun e => !e.2).flatMap fun e =>
    (creditPorts m e.1.port).map fun p =>
      let g := { e.1 with port := p }
      match old.find? fun x => x.address == g.address && x.port == p && x.vc == g.vc with
      | some x => { g with outstanding := x.outstanding, returnable := x.returnable, since := x.since, used := x.used }
      | none => g

/-- The hold counts of a map that becomes active: a kept count changes by the difference of the passes (R282). -/
def newHolds (m : Option PisteMap) (old : List Hold) : List Hold :=
  (((List.range (mapCount m 0x0049 0)).map (creditEntry m)).filter fun e => e.2).flatMap fun e =>
    (creditPorts m e.1.port).map fun p =>
      match old.find? fun x => x.port == p && x.vc == e.1.vc with
      | some x => ⟨p, e.1.vc, e.1.passes, x.count + (e.1.passes - x.passes)⟩
      | none => ⟨p, e.1.vc, e.1.passes, e.1.passes⟩

/-- What the merge engine takes from a map that becomes active. -/
def Dev.mrgFromMap (d : Dev) : Dev :=
  let m := d.map.active
  let pool := 8192 - ((d.mrg.grants.map fun g => grantReserve g.passes).sum + passBuffers d.map.old + 4)
  d.modMrg fun x => { x with
    grants := newGrants m x.grants, holds := newHolds m x.holds
    oldClose := (x.closeTime, x.lateMode), oldPool := pool
    closeTime := mapNum m 0x004B 0 20 4 51200, lateMode := mapNum m 0x004B 0 18 1 0 }

/-! ### Commands (R302) -/

/-- `MRG.STATUS`. -/
def mrgStatusKind : CmdKind := ⟨0x0800, false, upStates⟩

/-- The time word of the oldest deadline; free where no event is open. -/
def Dev.oldestDeadline (d : Dev) : TimeWord :=
  match ((d.mrg.events.filter fun e => !e.closed).map (·.deadline)).min? with
  | some t => TimeWord.ofGlobalTick t
  | none => TimeWord.ofGlobalTick (Config.unstated 8 d.free)

/-- The low 16 bits of a count as `MRG.STATUS` carries it. -/
def countBytes (n : Int) : List Byte := leBytes 2 (toTwos 16 n)

/-- An entry of the credit table in `MRG.STATUS` (R460). -/
def creditStatus (d : Dev) (k : Nat) : List Byte :=
  let m := d.map.active
  let (e, hold) := creditEntry m k
  let onB := fun (f : Nat → Int) => if portRole m e.port == 2 then ((portOfRole m 3).map f).getD 0 else 0
  leBytes 2 e.address ++ leBytes 1 e.port ++ leBytes 1 (e.vc + 4 * b2n hold)
    ++ (if hold then countBytes (d.holdCount e.port e.vc) ++ countBytes (onB fun p => d.holdCount p e.vc)
        else leBytes 2 (((d.grant? e.address e.port e.vc).map (·.outstanding)).getD 0) ++ zeros 2)

/-- The fixed 56 bytes of `MRG.STATUS` and the page behind them (R460). -/
def mrgStatusData (start : Nat) (d : Dev) : List Byte :=
  leBytes 2 (d.mrg.events.filter fun e => !e.closed).length ++ zeros 2 ++ twBytes d.oldestDeadline
    ++ (d.mrg.up.toList.map fun t => leBytes 2 t.items.length).flatten
    ++ (d.mrg.pass.toList.map fun q => leBytes 2 q.length).flatten
    ++ (d.mrg.down.toList.map fun t => leBytes 2 t.items.length).flatten
    ++ leBytes 2 d.localFree ++ leBytes 2 (d.mrg.streams.filter (·.mode == .halted)).length
    ++ leBytes 1 ((List.range 8).map fun p => b2n ((d.link[p]?).any (·.tx.wheelGen)) * 2 ^ p).sum
    ++ leBytes 1 ((List.range 8).map fun p => b2n ((d.link[p]?).any (·.rx.wheelGen)) * 2 ^ p).sum ++ zeros 2
    ++ page start (mapCount d.map.active 0x0049 0) 8 (creditStatus d)

/-- MRG_STATUS. -/
def execMrgStatus (h : CmdHeader) (start : Nat) (s : State) : Host.Outcome State Fault Refusal :=
  .next (hostRun (.mrgStatus h start) mrgStatusKind h (readsFree (mrgStatusData start)) s)

/-- `MRG.COUNTERS`. -/
def mrgCountersKind : CmdKind := ⟨0x0801, false, upStates⟩

/-- The 176 bytes of `MRG.COUNTERS` (R460). -/
def mrgCountersData (d : Dev) : List Byte :=
  let c := d.mrg.counters
  (([c.closedComplete, c.closedDeadline, c.closedEarly, c.lateForwarded, c.lateDropped] ++ c.itemsDropped.toList
    ++ [c.chairMismatches, c.passViolations, c.haltedStreams, c.unroutable, c.droppedCommands]
    ++ c.reassembled.toList).map (leBytes 8)).flatten

/-- The counters cleared. -/
def MrgCounters.zero : MrgCounters :=
  { closedComplete := 0, closedDeadline := 0, closedEarly := 0, lateForwarded := 0, lateDropped := 0
    itemsDropped := fill 4 0, chairMismatches := 0, passViolations := 0, haltedStreams := 0, unroutable := 0
    droppedCommands := 0, reassembled := fill 8 0 }

/-- Read the counters and clear them where asked (R451). -/
def mrgCountersEff (clear : Bool) : Effect := onDev fun _ _ d =>
  (if clear then d.countMrg fun _ => MrgCounters.zero else d, .done .ok (mrgCountersData d))

/-- MRG_COUNTERS. -/
def execMrgCounters (h : CmdHeader) (clear : Bool) (s : State) : Host.Outcome State Fault Refusal :=
  .next (hostRun (.mrgCounters h clear) mrgCountersKind h (mrgCountersEff clear) s)

/-- `MRG.SET_CLOSE`. -/
def mrgSetCloseKind : CmdKind := ⟨0x0802, true, [.ready, .running]⟩

/-- Set `close_time` and `late_mode` (R302). -/
def Dev.setClose (d : Dev) (closeTime lateMode : Nat) : Dev :=
  d.modMrg fun m => { m with closeTime := closeTime, lateMode := lateMode }

/-- Set them at the next boundary, within the ranges of R293. -/
def mrgSetCloseEff (i : Instr) (closeTime lateMode : Nat) : Effect := onDev fun _ _ d =>
  if 2560 ≤ closeTime && closeTime ≤ 25600000 && lateMode ≤ 1 then atBoundary i d
  else (d, .done .outOfRange [])

/-- MRG_SET_CLOSE. -/
def execMrgSetClose (h : CmdHeader) (closeTime lateMode : Nat) (s : State) : Host.Outcome State Fault Refusal :=
  .next (hostRun (.mrgSetClose h closeTime lateMode) mrgSetCloseKind h
    (mrgSetCloseEff (.mrgSetClose h closeTime lateMode) closeTime lateMode) s)

/-- `MRG.RESUME_STREAM`. -/
def mrgResumeStreamKind : CmdKind := ⟨0x0803, false, [.ready, .running, .quiesce]⟩

/-- The map knows a stream of a port (R302). -/
def knownStream (m : Option PisteMap) (p vc address : Nat) : Bool :=
  if portRole m p == 2 || portRole m p == 3 then vc == 0 && address == 0
  else portRole m p == 1 && vc ≤ 3 && (match route m address with | some (q, pass) => q == firstPort m p && !pass | none => false)

/-- A halted stream resumes: the next parcel is the start of a record (R286, R300). -/
def Dev.resumeStream (d : Dev) (s : RxStream) (cause : Nat) : Dev :=
  let d := d.resetStream s .start
  d.raiseLimited 1414 0 (8 * s.port + cause) [evNat s.port, evNat s.address, evNat s.vc, evNat cause]

/-- Resume a halted stream: OUT_OF_RANGE for one the map does not know, WRONG_STATE for one that is not halted. -/
def mrgResumeStreamEff (port vc address : Nat) : Effect := onDev fun _ _ d =>
  if port ≤ 7 && knownStream d.map.active port vc address then
    let s := d.rxStream port address vc
    if s.mode == .halted then (d.resumeStream s 0, .done .ok []) else (d, .done .wrongState [])
  else (d, .done .outOfRange [])

/-- MRG_RESUME_STREAM. -/
def execMrgResumeStream (h : CmdHeader) (port vc address : Nat) (s : State) : Host.Outcome State Fault Refusal :=
  .next (hostRun (.mrgResumeStream h port vc address) mrgResumeStreamKind h (mrgResumeStreamEff port vc address) s)

/-- `MRG.CLOSE_ALL`. -/
def mrgCloseAllKind : CmdKind := ⟨0x0804, false, [.running, .quiesce]⟩

/-- Close every open event as at its deadline, and answer how many (R302). -/
def mrgCloseAllEff : Effect := onDev fun _ _ d =>
  let opened := d.mrg.events.filter fun e => !e.closed
  ((opened.foldl Dev.closeAtDeadline d).handEvents, .done .ok (leBytes 4 opened.length))

/-- MRG_CLOSE_ALL. -/
def execMrgCloseAll (h : CmdHeader) (s : State) : Host.Outcome State Fault Refusal :=
  .next (hostRun (.mrgCloseAll h) mrgCloseAllKind h mrgCloseAllEff s)

end Sys2Proof.Machine
end

