-- ==== Sys2Proof/Machine/Time.lean ====
section
/-! DEFINITION. Reference sources, mutual counting, switching, alignment and the time word (R127 to R162, R361, R362). -/

namespace Sys2Proof.Machine

/-! ### The time table (R156) -/

/-- A field of the time table: `n` bytes at an offset of its entry; its default until a map is active. -/
def timeField (m : Option PisteMap) (off n dflt : Nat) : Nat := mapNum m 0x0028 0 (16 + off) n dflt

/-- A flag of byte 1 of the time table. -/
def timeFlag (m : Option PisteMap) (i dflt : Nat) : Bool := mapBits m 0x0028 0 17 1 i i dflt == 1

/-- `preferred`; INT until a map is active (R156). -/
def preferred (m : Option PisteMap) : Nat := timeField m 0 1 2

/-- The limits of the time table (R156). -/
def limitsOf (m : Option PisteMap) : TimeLimits :=
  ⟨timeField m 2 2 200, timeField m 4 2 2000, timeField m 6 1 1, timeField m 7 1 2⟩

/-- The spread-spectrum fields of the time table (R156). -/
def spreadOf (m : Option PisteMap) : Spread :=
  ⟨timeField m 26 1 0, timeField m 27 1 8, timeField m 28 1 20, timeField m 29 1 40⟩

/-- `pps_offset` in fine bins, signed. -/
def ppsOffset (m : Option PisteMap) : Int := ofTwos 32 (timeField m 12 4 0)

/-- `delay_asym` in fine bins, signed. -/
def delayAsym (m : Option PisteMap) : Int := ofTwos 32 (timeField m 16 4 0)

/-- `slew` in 0.01 ppm/s. -/
def slewRate (m : Option PisteMap) : Nat := timeField m 10 2 10

/-- `steer_rate` in ps/s. -/
def steerRate (m : Option PisteMap) : Nat := timeField m 20 2 100

/-- `step_limit` in ps. -/
def stepLimit (m : Option PisteMap) : Nat := timeField m 22 2 1000 * 1000

/-- `pps_window` in units of 1/1,024 ps. -/
def ppsWindow (m : Option PisteMap) : Nat := timeField m 24 2 100 * 1000 * 1024

/-- Fine bins in one second (R8). -/
def fineSecond : Nat := ticksPerSecond * 128

/-! ### Sources and pairs -/

/-- Change the time base. -/
def Dev.modTime (d : Dev) (f : TimeState → TimeState) : Dev := { d with time := f d.time }

/-- A source by its code of R127. -/
def TimeState.source (t : TimeState) (x : Nat) : Source :=
  if x = 0 then t.refA else if x = 1 then t.refB else t.int

/-- Change a source. -/
def Dev.modSource (d : Dev) (x : Nat) (f : Source → Source) : Dev :=
  d.modTime fun t =>
    if x = 0 then { t with refA := f t.refA } else if x = 1 then { t with refB := f t.refB }
    else if x = 2 then { t with int := f t.int } else t

/-- The three pairs, each by its lower source and its higher one. -/
def timePairs : List (Nat × Nat) := [(0, 1), (0, 2), (1, 2)]

/-- A pair's record. -/
def TimeState.pair (t : TimeState) (p : Nat × Nat) : Pair :=
  if p = (0, 1) then t.pairAB else if p = (0, 2) then t.pairAI else t.pairBI

/-- Change a pair's record. -/
def Dev.modPair (d : Dev) (p : Nat × Nat) (f : Pair → Pair) : Dev :=
  d.modTime fun t =>
    if p = (0, 1) then { t with pairAB := f t.pairAB } else if p = (0, 2) then { t with pairAI := f t.pairAI }
    else { t with pairBI := f t.pairBI }

/-- A source is enabled (R135, R156); INT always is. -/
def Dev.sourceEnabled (d : Dev) (x : Nat) : Bool :=
  if x = 0 then timeFlag d.map.active 3 1 else if x = 1 then timeFlag d.map.active 4 1 else true

/-- A source takes part in counting: enabled and present (R130, R156). -/
def Dev.sourceCounts (d : Dev) (x : Nat) : Bool := (d.time.source x).present && d.sourceEnabled x

/-- A source is eligible: it counts and is not failed (R132). -/
def Dev.eligible (d : Dev) (x : Nat) : Bool := d.sourceCounts x && !(d.time.source x).failed

/-- The conditions of R135. -/
def Dev.readyNow (d : Dev) (x : Nat) : Bool :=
  let s := d.time.source x
  let agrees := x == 2 || d.time.limits.readyWindows ≤ s.agree
  let pps := x != 0 || d.time.pps || !timeFlag d.map.active 1 1
  d.sourceEnabled x && s.present && !s.failed && agrees && pps

/-- A difference as an event item, in ppm. -/
def ppmItem (diff : Int) : EvItem := .real (f32OfFrac diff 100)

/-- The three last differences as event items. -/
def Dev.diffItems (d : Dev) : List EvItem := timePairs.map fun p => ppmItem (d.time.pair p).diff

/-- A phase error as an event item, in ns. -/
def phaseItem (ps : Int) : EvItem := .real (f32OfFrac ps 1000)

/-- Bring one ready flag up to date: event 1541 where it changes (R135, R159). -/
def Dev.refreshOne (d : Dev) (x : Nat) : Dev :=
  let r := d.readyNow x
  if (d.time.source x).ready == r then d
  else (d.modSource x fun s => { s with ready := r }).raise 1541 0 [evNat x, evNat (b2n r)]

/-- Since when `preferred` has been ready while another source is in use (R139). -/
def Dev.refreshReturn (d : Dev) : Dev :=
  let p := preferred d.map.active
  let waiting := (d.time.source p).ready && d.time.inUse != p
  d.modTime fun t => { t with readySince := if waiting then some (t.readySince.getD d.sys.ticks) else none }

/-- Bring the ready flags and the wait of R139 up to date. -/
def Dev.refreshReady (d : Dev) : Dev := ([0, 1, 2].foldl Dev.refreshOne d).refreshReturn

/-! ### Time state (R145) -/

/-- The code of the time state as it is reported (R145). -/
def TimeState.code (t : TimeState) : Nat :=
  match t.alignment with
  | .ambiguous => 4
  | .free => if t.secondsSet then 1 else 0
  | .locked => if t.secondsSet then 2 else 0
  | .holdover => if t.secondsSet then 3 else 0

/-- Event 1544 where the reported time state is no longer what it was. -/
def Dev.reportState (d : Dev) (old : Nat) : Dev :=
  if d.time.code = old then d else d.raise 1544 0 [evNat old, evNat d.time.code, phaseItem d.time.phaseError]

/-- Set the alignment state. -/
def Dev.setAlignment (d : Dev) (a : Alignment) : Dev :=
  (d.modTime fun t => { t with alignment := a }).reportState d.time.code

/-! ### Switching (R136 to R140) -/

/-- The move of frequency that a slew in progress still has before it at the least, signed, in the units of `slew` times a
tick: it has moved as fast as `slew` allows (R137). -/
def Dev.slewLeft (d : Dev) : Int :=
  if d.time.slewFrom.isNone then 0
  else
    let left : Int := ((d.time.slewEnds - d.sys.ticks) * slewRate d.map.active : Nat)
    if d.time.slewUp then left else -left

/-- The move of frequency to make for a commanded switch: what a slew in progress has left, and the last difference of the two
sources (R130, R137). -/
def Dev.slewMove (d : Dev) (old new : Nat) : Int :=
  let diff := (d.time.pair (min old new, max old new)).diff * ticksPerSecond
  d.slewLeft + (if old = new then 0 else if old < new then -diff else diff)

/-- How long a move of frequency takes at least, in ticks, at no more than `slew` (R137). -/
def Dev.slewTicks (d : Dev) (move : Int) : Nat := ceilDiv move.natAbs (max 1 (slewRate d.map.active))

/-- Switch to a source: event 1540; the window under way is discarded (R131), and steering begins anew with the next phase
error (R137). `cause` is 0 command, 1 forced, 2 automatic return, 3 uplink change; every cause but a forced one slews
(R137). -/
def Dev.switchTo (d : Dev) (x cause : Nat) : Dev :=
  let old := d.time.inUse
  let move := d.slewMove old x
  let d := d.modTime fun t => { t with
    inUse := x, discard := true, slewFrom := if cause = 1 then none else some old
    slewEnds := d.sys.ticks + d.slewTicks move, slewUp := decide (0 < move), steerLeft := 0 }
  (d.raise 1540 0 [evNat old, evNat x, evNat cause]).refreshReturn

/-- The alignment state a commanded-style switch leaves (R145): HOLDOVER on INT after an alignment, FREE on another source
until the next phase error. AMBIGUOUS ends only as R143 says. -/
def alignAfterSwitch (t : TimeState) (x : Nat) : Alignment :=
  match t.alignment with
  | .ambiguous => .ambiguous
  | .free => if x = 2 && t.aligned then .holdover else .free
  | .locked | .holdover => if x = 2 then .holdover else .free

/-- A commanded-style switch (R137). -/
def Dev.commandedSwitch (d : Dev) (x cause : Nat) : Dev :=
  let a := alignAfterSwitch d.time x
  (d.switchTo x cause).setAlignment a

/-- The source a forced switch goes to (R138): INT, or the ready external source where INT has failed or is absent (R129). With
`preferred` naming INT both external sources are "the other": REF A goes first (DESIGN CHOICE, log entry 105). -/
def Dev.forcedTarget (d : Dev) (failed : Nat) : Nat :=
  if failed ≠ 2 && d.time.int.present then 2
  else
    let p := preferred d.map.active
    let other := if p = 0 then 1 else 0
    if p ≠ 2 && (d.time.source p).ready then p
    else if (d.time.source other).ready then other
    else if p = 2 && (d.time.source 1).ready then 1
    else failed

/-- The failed source in use is replaced: HOLDOVER on INT, FREE until the next phase error on another (R138, R142). -/
def Dev.forcedSwitch (d : Dev) (failed : Nat) : Dev :=
  let x := d.forcedTarget failed
  let d := if x = d.time.inUse then d else d.switchTo x 1
  if d.time.alignment == .ambiguous && x != 2 then d else d.setAlignment (if x = 2 then .holdover else .free)

/-- Mark a source failed with a cause of R458 (1 comparison, 2 absent), raise event 1536 and leave it where it is in
use (R133, R134, R138). -/
def Dev.failSource (d : Dev) (x cause : Nat) : Dev :=
  let d := d.modSource x fun s => { s with failed := true, cause := cause }
  let used := d.time.inUse == x
  let d := d.refreshReady
  let next := if used then d.forcedTarget x else d.time.inUse
  let d := d.raise 1536 0 ([evNat x, evNat (cause - 1)] ++ d.diffItems ++ [evNat next])
  if used then d.forcedSwitch x else d

/-- A source becomes absent (R129, R131, R134). -/
def Dev.sourceAbsent (d : Dev) (x : Nat) : Dev :=
  if 2 < x || !(d.time.source x).present then d
  else
    let d := d.modSource x fun s => { s with present := false, agree := 0 }
    let d := (d.modTime fun t => { t with discard := true }).raise 1542 0 [evNat x, evNat 0]
    (if d.time.inUse = x then d.failSource x 2 else d).refreshReady

/-- SOURCE_ABSENT: a source meets the condition of R129 for becoming absent. -/
def execSourceAbsent (source : Nat) (s : State) : Host.Outcome State Fault Refusal :=
  .next (s.onDev (·.sourceAbsent source))

/-- A source becomes present (R129, R131). -/
def Dev.sourcePresent (d : Dev) (x : Nat) : Dev :=
  if 2 < x || (d.time.source x).present then d
  else
    let d := d.modSource x fun s => { s with present := true }
    let d := (d.modTime fun t => { t with discard := true }).raise 1542 0 [evNat x, evNat 1]
    d.refreshReady

/-- The loop locks to INT, which is present (R129, R571). -/
def Dev.lockLoop (d : Dev) : Dev := (d.modTime fun t => { t with locked := true }).sourcePresent 2

/-- The active uplink port changes: the window is discarded, and REF B in use slews between the two ports' clocks
(R131, R140). No difference of the two is known, so the change sets no least length of its own, but a slew in progress keeps
what it has before it (DESIGN CHOICE, log entry 105). -/
def Dev.uplinkChanged (d : Dev) : Dev :=
  let d := d.modTime fun t => { t with discard := true }
  if d.time.inUse = 1 then
    (d.modTime fun t => { t with 
      slewFrom := some 1, slewEnds := if t.slewFrom.isSome then t.slewEnds else d.sys.ticks, steerLeft := 0 }).raise 1540 0 [evNat 1, evNat 1, evNat 3]
  else d

/-- SLEW_DONE: the frequency slew of a commanded switch has ended, which it cannot before its rate allows (R137). -/
def execSlewDone (s : State) : Host.Outcome State Fault Refusal :=
  .next (s.onDev fun d => if d.time.slewEnds ≤ d.sys.ticks then d.modTime fun t => { t with slewFrom := none } else d)

/-- Return to `preferred` once it has been ready for `return_delay` (R139). -/
def Dev.autoReturn (d : Dev) : Dev :=
  match d.time.readySince with
  | some since =>
    if timeFlag d.map.active 0 0 && since + timeField d.map.active 8 2 60 * ticksPerSecond ≤ d.sys.ticks then
      d.commandedSwitch (preferred d.map.active) 2
    else d
  | none => d

/-- AUTO_RETURN: `return_delay` has passed since `preferred` became ready. -/
def execAutoReturn (s : State) : Host.Outcome State Fault Refusal := .next (s.onDev (·.autoReturn))

/-! ### Mutual counting (R130 to R133, R141, R143) -/

/-- What a set of disagreeing pairs says (R132). -/
inductive Finding where
  | none
  | blamed (x : Nat)
  | ambiguous
  deriving DecidableEq, Repr

/-- The magnitude of the last difference of two sources. -/
def TimeState.gap (t : TimeState) (x y : Nat) : Nat := (t.pair (min x y, max x y)).diff.natAbs

/-- Resolve the disagreeing pairs of a level by the table of R132. -/
def resolvePairs (t : TimeState) (eligible : List Nat) (bad : List (Nat × Nat)) : Finding :=
  match bad with
  | [] => .none
  | [(x, y)] =>
    if eligible.length = 3 then
      let z := 3 - x - y
      if t.gap x z = t.gap y z then .ambiguous else if t.gap y z < t.gap x z then .blamed x else .blamed y
    else .ambiguous
  | [(a, b), (c, e)] => if a = c || a = e then .blamed a else if b = c || b = e then .blamed b else .ambiguous
  | _ => .ambiguous

/-- The pair's members both lie in a list of sources. -/
def pairIn (xs : List Nat) (p : Nat × Nat) : Bool := xs.contains p.1 && xs.contains p.2

/-- Take the counts of a window, in 1/128 of a cycle, into the pairs' records, to the nearest 0.01 ppm (R130, R132, R133). A pair that is not of eligible sources
runs towards no failure. -/
def Dev.takeCounts (d : Dev) (counts : Nat → Nat) (eligible : List Nat) : Dev :=
  timePairs.foldl (fun d p =>
    if d.sourceCounts p.1 && d.sourceCounts p.2 then
      let diff : Int := rneInt ((counts p.1 : Int) - (counts p.2 : Int)) 128
      let beyond := d.time.limits.fail < diff.natAbs && pairIn eligible p
      let warn := d.time.limits.warn < diff.natAbs
      d.modPair p fun r => { r with
        diff := diff, failRun := if beyond then min 255 (r.failRun + 1) else 0
        clearRun := if warn then 0 else min 255 (r.clearRun + 1) }
    else d.modPair p fun r => { r with failRun := 0 }) d

/-- Event 1538: once for each warning that begins (R133). -/
def Dev.warnPairs (d : Dev) (finding : Finding) (bad : List (Nat × Nat)) : Dev :=
  let fresh := bad.filter fun p => !(d.time.pair p).warned
  let d := fresh.foldl (fun d p => d.modPair p fun r => { r with warned := true }) d
  match finding, fresh with
  | .blamed x, p :: _ => d.raise 1538 0 [evNat x, ppmItem (d.time.pair p).diff]
  | .ambiguous, _ => fresh.foldl (fun d p =>
      d.raise 1538 0 [evNat p.1, evNat p.2, ppmItem (d.time.pair p).diff]) d
  | _, _ => d

/-- Event 1539: a warning clears after `ready_windows` windows in which the pair no longer disagrees (R133). -/
def Dev.clearWarnings (d : Dev) : Dev :=
  timePairs.foldl (fun d p =>
    let r := d.time.pair p
    if r.warned && d.time.limits.readyWindows ≤ r.clearRun then
      (d.modPair p fun r => { r with warned := false }).raise 1539 0 [evNat p.1, evNat p.2, ppmItem r.diff]
    else d) d

/-- Ambiguous at the failure level: INT with its correction frozen, AMBIGUOUS, event 1537 (R143). -/
def Dev.ambiguousReference (d : Dev) : Dev :=
  if d.time.alignment == .ambiguous then d
  else
    let d := if d.time.inUse ≠ 2 && !d.time.int.failed && d.time.int.present then d.switchTo 2 1 else d
    let d := d.modTime fun t => { t with calmRun := 0 }
    (d.setAlignment .ambiguous).raise 1537 0 (d.diffItems ++ [evNat d.time.inUse])

/-- The end of AMBIGUOUS once the disagreement has stayed within `warn_ppm` (R143). -/
def Dev.calmAmbiguity (d : Dev) (calm : Bool) : Dev :=
  if d.time.alignment == .ambiguous then
    let run := if calm then d.time.calmRun + 1 else 0
    let d := d.modTime fun t => { t with calmRun := run }
    if d.time.limits.readyWindows ≤ run then d.setAlignment .holdover else d
  else d

/-- A pair of counted sources that contains the source in use disagrees at the warning level, whether or not its other
member is failed (R141). -/
def Dev.inUseDisagrees (d : Dev) : Bool :=
  timePairs.any fun p => (p.1 == d.time.inUse || p.2 == d.time.inUse) && d.sourceCounts p.1 && d.sourceCounts p.2
    && decide (d.time.limits.warn < (d.time.pair p).diff.natAbs)

/-- INT is learned (R141): an external source is in use and LOCKED, no pair with it disagrees, and `int_learn` is not 0. -/
def Dev.learns (d : Dev) : Bool :=
  d.time.inUse != 2 && d.time.alignment == .locked && !d.inUseDisagrees && d.sourceCounts d.time.inUse && d.sourceCounts 2
    && timeField d.map.active 30 1 1 != 0

/-- Learning of the INT correction in a counted window (R141): one step of 0.001 ppm towards agreement whenever
`int_learn` per hour allows one. What it would have allowed while frozen is not kept. -/
def Dev.learnInt (d : Dev) : Dev :=
  if !d.learns then d.modTime fun t => { t with learnCredit := 0 }
  else
    let diff := (d.time.pair (d.time.inUse, 2)).diff
    let credit := min 3600 (d.time.learnCredit + timeField d.map.active 30 1 1 * 10)
    if credit < 3600 || diff = 0 then d.modTime fun t => { t with learnCredit := credit }
    else
      let step : Int := if 0 < diff then 1 else -1
      d.modTime fun t => { t with
        learnCredit := credit - 3600, correction := clampInt (-10000) 10000 (t.correction + step) }

/-- Event 1546, once while no comparison is possible (R132). -/
def Dev.noteAlone (d : Dev) (alone : Bool) : Dev :=
  let first := alone && !d.time.alone
  let d := d.modTime fun t => { t with alone := alone }
  if first then d.raise 1546 0 [evNat d.time.inUse] else d

/-- How long each source has been in no disagreeing pair: a window counts for a source that was eligible in it (R135; an
absent source has no agreeing window, DEDUCED from the start-up example of chapter 21). -/
def Dev.countAgreement (d : Dev) (eligible : List Nat) (bad : List (Nat × Nat)) : Dev :=
  eligible.foldl (fun d x =>
    d.modSource x fun s => { s with
      agree := if bad.any (fun p => p.1 == x || p.2 == x) then 0 else min 255 (s.agree + 1) }) d

/-- The outcome at the failure level (R133, R138, R143). -/
def Dev.failureLevel (d : Dev) (eligible : List Nat) : Dev :=
  let lost := timePairs.filter fun p => pairIn eligible p && d.time.limits.confirm ≤ (d.time.pair p).failRun
  match resolvePairs d.time eligible lost with
  | .none => d
  | .blamed x => d.failSource x 1
  | .ambiguous => d.ambiguousReference

/-- A window that is not discarded (R131 to R135, R141, R143). -/
def Dev.countedWindow (d : Dev) (counts : Nat → Nat) : Dev :=
  let eligible := [0, 1, 2].filter d.eligible
  let d := d.takeCounts counts eligible
  let bad := timePairs.filter fun p => pairIn eligible p && decide (d.time.limits.warn < (d.time.pair p).diff.natAbs)
  let d := d.noteAlone (eligible.length == 1)
  let d := d.warnPairs (resolvePairs d.time eligible bad) bad
  let d := d.clearWarnings
  let d := d.countAgreement eligible bad
  let d := if eligible.length ≤ 1 then d else d.calmAmbiguity bad.isEmpty
  let d := d.learnInt
  (d.failureLevel eligible).refreshReady

/-- New limits of a map apply from the first window that starts after E; runs in progress restart, a source's run towards
`ready_windows` among them (R158). -/
def Dev.takeLimits (d : Dev) : Dev :=
  if d.time.limitsDue then
    let d := timePairs.foldl (fun d p => d.modPair p fun r => { r with failRun := 0, clearRun := 0 }) d
    let d := [0, 1, 2].foldl (fun d x => d.modSource x fun s =>
      { s with agree := if s.agree < d.time.limits.readyWindows then 0 else s.agree }) d
    (d.modTime fun t => { t with limits := limitsOf d.map.active, limitsDue := false, calmRun := 0 }).refreshReady
  else d

/-- A counting window ends (R130, R131). -/
def Dev.windowEnd (d : Dev) (counts : Nat → Nat) : Dev :=
  let skip := d.time.discard || d.time.slewFrom.isSome
  let d := d.modTime fun t => { t with discard := t.slewFrom.isSome }
  (if skip then d else d.countedWindow counts).takeLimits

/-- COUNTING_WINDOW_END: the counts of REF A, REF B and INT in the window, in 1/128 of a cycle. -/
def execCountingWindowEnd (na nb ni : Nat) (s : State) : Host.Outcome State Fault Refusal :=
  .next (s.onDev (·.windowEnd fun x => if x = 0 then na else if x = 1 then nb else ni))

/-! ### Phase errors and alignment (R144 to R149) -/

/-- Mark the queued commands that a jump of the time word has gone past (R430). -/
def Dev.markPassed (d : Dev) : Dev :=
  let now := d.now
  { d with cmd := { d.cmd with timed := d.cmd.timed.map fun e => { e with passed := e.passed || e.header.executeAt.le now } } }

/-- Move the time word by a number of fine bins, where the present instant is a fine bin of the present tick (R148). -/
def Dev.stepTime (d : Dev) (fine : Nat) (step : Int) : Dev :=
  let g : Int := ((d.globalFine fine : Nat) : Int) + step
  let w := (g % ((2 ^ 40 * fineSecond : Nat) : Int)).toNat / 128
  (d.modTime fun t => { t with seconds := w / ticksPerSecond, tick := w % ticksPerSecond }).markPassed

/-- Steering for one second: the phase of the tick shifts by at most `steer_rate` towards zero error (R144). -/
def Dev.steer (d : Dev) : Dev :=
  let r : Int := steerRate d.map.active
  let by_ := clampInt (-r) r d.time.steerLeft
  d.modTime fun t => { t with steerLeft := t.steerLeft - by_, steered := t.steered - by_ }

/-- Judge the time state by a new phase error in ps, which steering is to remove where it may use it (R144 to R146). -/
def Dev.judgePhase (d : Dev) (ps : Int) (used : Bool) : Dev :=
  let d := d.modTime fun t => { t with phaseError := ps, steerLeft := if used then ps else t.steerLeft }
  let inside := ps.natAbs ≤ stepLimit d.map.active
  match d.time.alignment with
  | .locked => if inside then d else d.setAlignment .free
  | .ambiguous => d
  | _ => if inside && d.time.aligned && d.time.inUse ≠ 2 then d.setAlignment .locked else d

/-- Each `TIME.ALIGN` that waits acts on a measured phase error, given in fine bins at a fine bin of this tick: one
step makes it zero (R148). In a state other than Standby and Ready it is answered WRONG_STATE. -/
def Dev.alignNow (d : Dev) (fine : Nat) (err : Int) (takesSeconds : Bool) : Dev :=
  match d.time.pendingAlign with
  | [] => d
  | c :: cs =>
    let d := d.modTime fun t => { t with pendingAlign := [] }
    if d.sys.state == .standby || d.sys.state == .ready then
      let old := d.time.code
      let d := d.stepTime fine (-err)
      let d := d.modTime fun t => { t with
        alignment := .locked, aligned := true, phaseError := 0, steerLeft := 0, secondsSet := t.secondsSet || takesSeconds }
      let d := d.finish c .ok (leBytes 8 (toTwos 64 (-err)))
      (cs.foldl (fun d c => d.finish c .ok (zeros 8)) d).reportState old
    else (c :: cs).foldl (fun d c => d.finish c .wrongState []) d

/-- A phase error in ps, from half fine bins of 3,125/2,048 ps. -/
def halfFinePs (h : Int) : Int := rneInt (h * 3125) 2048

/-- The phase error of a PPS edge at an instant in fine bins, reduced to ±0.5 s (R146). -/
def ppsError (m : Option PisteMap) (instant : Nat) : Int :=
  let r := ((instant : Int) - ppsOffset m) % ((fineSecond : Nat) : Int)
  if 2 * r < ((fineSecond : Nat) : Int) then r else r - ((fineSecond : Nat) : Int)

/-- A number of fine bins is at most `pps_window`. -/
def inPpsWindow (m : Option PisteMap) (fine : Int) : Bool := fine.natAbs * 3125 ≤ ppsWindow m

/-- Two PPS edges one second apart make PPS present, with event 1543 of cause restored (R129, R146). -/
def Dev.ppsPresence (d : Dev) (here : Nat) (ps : Int) : Dev :=
  let regular := d.time.ppsLast.any fun l => inPpsWindow d.map.active ((here : Int) - (l : Int) - ((fineSecond : Nat) : Int))
  let comes := regular && !d.time.pps
  let d := d.modTime fun t => { t with ppsLast := some here, pps := t.pps || regular }
  if comes then (d.raise 1543 0 [evNat 2, phaseItem ps]).refreshReady else d

/-- A PPS rising edge at a fine bin of this tick (R129, R146, R148). -/
def Dev.ppsEdge (d : Dev) (fine : Nat) : Dev :=
  let err := ppsError d.map.active (d.globalFine fine)
  let ps := halfFinePs (2 * err)
  let d := d.ppsPresence (d.sys.ticks * 128 + fine) ps
  if d.time.inUse = 0 && d.time.pps then
    let inside := inPpsWindow d.map.active err
    let d := if inside then d else d.raise 1543 0 [evNat 0, phaseItem ps]
    if d.time.pendingAlign.isEmpty then d.judgePhase ps inside else d.alignNow fine err false
  else d

/-- PPS_EDGE: a rising edge of PPS. -/
def execPpsEdge (fine : Nat) (s : State) : Host.Outcome State Fault Refusal := .next (s.onDev (·.ppsEdge fine))

/-- No PPS edge within 1 s + `pps_window` of the previous one: PPS is absent, and REF A in use is no longer LOCKED
(R129, R145, R146). -/
def Dev.ppsAbsent (d : Dev) : Dev :=
  let late := d.time.ppsLast.all fun l =>
    ((fineSecond + l : Nat) : Int) < d.sys.ticks * 128
      && !inPpsWindow d.map.active ((d.sys.ticks * 128 : Nat) - (l : Int) - ((fineSecond : Nat) : Int))
  if d.time.pps && late then
    let d := d.modTime fun t => { t with pps := false, steerLeft := if t.inUse = 0 then 0 else t.steerLeft }
    let d := d.raise 1543 0 [evNat 1, phaseItem d.time.phaseError]
    let d := if d.time.inUse = 0 && d.time.alignment == .locked then d.setAlignment .free else d
    d.refreshReady
  else d

/-- PPS_ABSENT: the time for the next PPS edge has passed. -/
def execPpsAbsent (s : State) : Host.Outcome State Fault Refusal := .next (s.onDev (·.ppsAbsent))

/-- `seconds` takes a value that `TIME.SET_SECONDS` gave (R149, R430). The time word never steps in Running (R144), so a
value whose boundary falls there is dropped (DESIGN CHOICE). -/
def Dev.takeSeconds (d : Dev) : Dev :=
  match d.time.pendingSeconds with
  | none => d
  | some v =>
    if d.sys.state == .running then d.modTime fun t => { t with pendingSeconds := none }
    else
    let old := d.time.code
    let was := d.time.seconds
    let d := d.modTime fun t => { t with seconds := v, secondsSet := true, pendingSeconds := none }
    (d.markPassed.raise 1545 0 [evNat was, evNat v]).reportState old

/-- Spread-spectrum fields that wait take effect (R155). -/
def Dev.takeSpread (d : Dev) : Dev :=
  match d.time.pendingSpread with
  | none => d
  | some p => d.modTime fun t => { t with spread := p, pendingSpread := none }

/-- SECOND_BOUNDARY: tick 0 of a second (R144, R149, R155). -/
def execSecondBoundary (s : State) : Host.Outcome State Fault Refusal :=
  .next (s.onDev fun d => if d.time.tick = 0 then d.takeSeconds.takeSpread.steer else d)

/-! ### REFOUT and spread spectrum (R152 to R155) -/

/-- What the REFOUT lands do in a tick. -/
inductive RefOut where
  /-- held low -/
  | low
  /-- a rising edge, at the tick that starts a 50 ns frame -/
  | frameEdge
  /-- 100 MHz, within a frame -/
  | running
  deriving DecidableEq, Repr

/-- REFOUT in the present tick (R152): driven while `refout_enable` is set and the loop is locked. Of its five rising edges
in 50 ns, the one that R152 places is the frame's. -/
def Dev.refout (d : Dev) : RefOut :=
  if !(timeFlag d.map.active 2 1 && d.time.locked) then .low
  else if d.time.tick % 128 = 0 then .frameEdge
  else .running

/-- P x tri(n / P) of R154. -/
def triangle (p n : Nat) : Int := if 2 * n < p then 4 * (n : Int) - p else 3 * (p : Int) - 4 * n

/-- The modulation period P in ticks of a rate in 0.5 kHz (R154, R156). -/
def spreadPeriod (rate : Nat) : Nat := ticksPerSecond / (500 * rate)

/-- By how many fine bins the slice setting moves the sampling instant of the present tick (R154): tri(u) x D/2 x 3.125 ns in
steps of one fine bin, 1,024 of them in 3.125 ns; D is in 0.25 %. The nearest step is taken (DEDUCED). -/
def TimeState.sliceShift (t : TimeState) : Int :=
  let p := spreadPeriod t.spread.sliceRate
  rneInt (triangle p (t.tick % p) * t.spread.sliceDepth * 1024) (800 * p)

/-- The sampling instant of a slice at the present tick, in 1/1,024 of 0.1 ps from tick 0 of the second: the tick, the
slice setting of spread spectrum and the slice's delay trim (R105, R154). -/
def TimeState.samplingInstant (t : TimeState) (s : Slice) : Int := 31250 * (128 * (t.tick : Int) + t.sliceShift) + 1024 * s.dly

/-- The frequency of a switching converter of nominal frequency f0 at the present tick, as a fraction (R153, R154):
f0 x (1 + tri(u) x D/2). -/
def TimeState.switchFrequency (t : TimeState) (f0 : Nat) : Int × Nat :=
  let p := spreadPeriod t.spread.switchRate
  (f0 * (800 * (p : Int) + triangle p (t.tick % p) * t.spread.switchDepth), 800 * p)

/-! ### The time exchange (R361, R362) -/

/-- The lane a TIME request leaves on: the lowest Up lane that is up. -/
def Dev.requestLane (d : Dev) : Option Nat :=
  (List.range 4).find? fun l => laneRole d.map.active l == 1 && d.schussRuns l && (d.schussLane l).any (·.up)

/-- 10 ms have passed since the latest time request (R361). -/
def Dev.requestDue (d : Dev) : Bool := d.time.requestAt.all fun t => t + usTicks 10000 ≤ d.sys.ticks

/-- A time request joins the lane's queue, with the next exchange id (R361). -/
def Dev.sendRequest (d : Dev) (l : Nat) : Dev :=
  let id := ((d.schussLane l).map (·.nextId)).getD 0
  ((d.modTime fun t => { t with requestAt := some d.sys.ticks }).queueOther l (.request id) 4).modSchuss l fun x => { x with
    nextId := (id + 1) % 16 }

/-- TIME_REQUEST_SEND: every 10 ms, on the lowest Up lane that is up (R361). -/
def execTimeRequestSend (s : State) : Host.Outcome State Fault Refusal :=
  .next (s.onDev fun d =>
    match d.requestLane with
    | some l => if d.requestDue then d.sendRequest l else d
    | none => d)

/-- A request received: the three responses join the lane's queue in order (R361). -/
def Dev.answerRequest (d : Dev) (l id : Nat) (t2 : Int) : Dev :=
  [1, 2, 3].foldl (fun d sub => d.queueOther l (.response id sub t2) 4) d

/-- TIME_REQUEST: a request received on a lane; its first bit arrived `since` fine bins ago. -/
def execTimeRequest (lane received since : Nat) (s : State) : Host.Outcome State Fault Refusal :=
  .next (s.onDev fun d => d.schussReceive lane received fun d m =>
    match m with
    | .time 0 id _ => d.answerRequest lane id ((d.sys.ticks * 128 : Nat) - (since : Int))
    | _ => d)

/-- F3 from the `seconds` and the low 42 bits that the responses carry (R362). -/
def rebuildF3 (seconds f3 : Nat) : Nat :=
  let base := seconds * fineSecond
  base + (f3 + 2 ^ 42 - base % 2 ^ 42) % 2 ^ 42

/-- An exchange is complete: the phase error against the parent, in half fine bins (R147, R362). -/
def Dev.exchangeError (d : Dev) (t1 t4 : Int) (f3 tauP seconds : Nat) : Int :=
  let localT4 : Int := (d.globalFine 0 : Int) - ((d.sys.ticks * 128 : Nat) - t4)
  2 * localT4 - 2 * (rebuildF3 seconds f3 : Int) - (t4 - t1 - (tauP : Int)) - 2 * delayAsym d.map.active

/-- The three responses have arrived: the lane keeps the result, and a module on REF B takes it as its phase error or
aligns to it (R147, R148). -/
def Dev.exchangeDone (d : Dev) (l : Nat) (t1 t4 : Int) (f3 tauP seconds : Nat) : Dev :=
  let err := d.exchangeError t1 t4 f3 tauP seconds
  let ps := halfFinePs err
  let d := d.modSchuss l fun x => { x with exchange := none, tRt := (t4 - t1).toNat, tauP := tauP, phase := ps }
  if d.time.inUse = 1 then
    if d.time.pendingAlign.isEmpty then d.judgePhase ps true else d.alignNow 0 (rneInt err 2) true
  else d

/-- An exchange with a response taken into it (R361, R362). -/
def Exchange.take (e : Exchange) (sub data : Nat) (t4 : Int) : Exchange :=
  if sub = 1 then { e with t4 := some t4, f3 := some data }
  else if sub = 2 then { e with tauP := some (data % 2 ^ 24) }
  else { e with seconds := some (data % 2 ^ 40) }

/-- A response received for the exchange under way. -/
def Dev.takeResponse (d : Dev) (l sub id data : Nat) (t4 : Int) : Dev :=
  match (d.schussLane l).bind (·.exchange) with
  | none => d
  | some e =>
    if e.id ≠ id || sub = 0 then d
    else
      let e := e.take sub data t4
      match e.t4, e.f3, e.tauP, e.seconds with
      | some t4, some f3, some tp, some sec => d.exchangeDone l e.t1 t4 f3 tp sec
      | _, _, _, _ => d.modSchuss l fun x => { x with exchange := some e }

/-- TIME_RESPONSE: a response received on a lane; its first bit arrived `since` fine bins ago. -/
def execTimeResponse (lane received since : Nat) (s : State) : Host.Outcome State Fault Refusal :=
  .next (s.onDev fun d => d.schussReceive lane received fun d m =>
    match m with
    | .time sub id x => d.takeResponse lane sub id x ((d.sys.ticks * 128 : Nat) - (since : Int))
    | _ => d)

/-- Responses that an exchange has received. -/
def Exchange.responses (e : Exchange) : Nat := b2n e.f3.isSome + b2n e.tauP.isSome + b2n e.seconds.isSome

/-- An exchange incomplete 20 µs after response A is discarded, with event 1548 (R362, R364). -/
def Dev.exchangeTimeout (d : Dev) (l : Nat) : Dev :=
  match (d.schussLane l).bind (·.exchange) with
  | none => d
  | some e =>
    if e.t4.any fun (t : Int) => decide (t + (usTicks 20 * 128 : Nat) ≤ (d.sys.ticks * 128 : Nat)) then
      (d.modSchuss l fun x => { x with exchange := none }).raiseLimited 1548 0 l
        [evNat l, evNat e.id, evNat e.responses]
    else d

/-- TIME_EXCHANGE_TIMEOUT: 20 µs after response A. -/
def execTimeExchangeTimeout (lane : Nat) (s : State) : Host.Outcome State Fault Refusal :=
  .next (s.onDev (·.exchangeTimeout lane))

/-! ### Commands (R162) -/

/-- `TIME.STATUS`. -/
def timeStatusKind : CmdKind := ⟨0x0400, false, bootStates⟩

/-- The status byte of a source (R458). -/
def Dev.sourceByte (d : Dev) (x : Nat) : Nat :=
  let s := d.time.source x
  b2n s.present + 2 * b2n s.ready + 4 * b2n s.failed + 8 * b2n (d.sourceEnabled x) + 16 * s.cause

/-- A signed number in 32 bits, saturating. -/
def satSigned32 (i : Int) : Nat := toTwos 32 (clampInt (-2147483648) 2147483647 i)

/-- The 64 bytes of `TIME.STATUS` (R458). -/
def timeStatusData (d : Dev) : List Byte :=
  leBytes 1 d.time.inUse ++ leBytes 1 d.time.code ++ ([0, 1, 2].map fun x => BitVec.ofNat 8 (d.sourceByte x))
    ++ leBytes 1 (b2n d.time.pps) ++ zeros 2
    ++ (timePairs.map fun p => leBytes 4 (satSigned32 (d.time.pair p).diff)).flatten
    ++ leBytes 4 (satSigned32 d.time.phaseError) ++ leBytes 4 (toTwos 32 d.time.correction)
    ++ leBytes 1 d.time.spread.sliceDepth ++ leBytes 1 d.time.spread.switchDepth
    ++ leBytes 1 d.time.spread.sliceRate ++ leBytes 1 d.time.spread.switchRate ++ twBytes d.now ++ zeros 20

/-- TIME_STATUS. -/
def execTimeStatus (h : CmdHeader) (s : State) : Host.Outcome State Fault Refusal :=
  .next (hostRun (.timeStatus h) timeStatusKind h (reads timeStatusData) s)

/-- `TIME.SWITCH_SOURCE`. -/
def timeSwitchSourceKind : CmdKind := ⟨0x0401, true, workStates⟩

/-- `TIME.SWITCH_SOURCE` (R136): the switch happens at the next tick; AMBIGUOUS ends when the command is accepted
(R143). -/
def timeSwitchSourceEff (i : Instr) (source : Nat) : Effect := onDev fun _ _ d =>
  if 2 < source then (d, .done .outOfRange [])
  else if !(d.time.source source).ready then (d, .done .notReady [])
  else
    let d := if d.time.alignment == .ambiguous then d.setAlignment .holdover else d
    (if d.time.inUse = source then d else d.atNextTick i, .done .ok [])

/-- The switch that a command asked for in the tick before (R136). A forced switch of that tick has acted first: the flags
that then hold decide again (R161). -/
def Dev.askedSwitch (d : Dev) (x : Nat) : Dev :=
  if (d.time.source x).ready && d.time.inUse != x then d.commandedSwitch x 0 else d

/-- TIME_SWITCH_SOURCE. -/
def execTimeSwitchSource (h : CmdHeader) (source : Nat) (s : State) : Host.Outcome State Fault Refusal :=
  .next (hostRun (.timeSwitchSource h source) timeSwitchSourceKind h (timeSwitchSourceEff (.timeSwitchSource h source) source) s)

/-- `TIME.SET_SECONDS`. -/
def timeSetSecondsKind : CmdKind := ⟨0x0402, true, [.standby, .ready]⟩

/-- `seconds` takes the value at the next second boundary (R149). -/
def timeSetSecondsEff (seconds : Nat) : Effect := onDev fun _ _ d =>
  (d.modTime fun t => { t with pendingSeconds := some seconds }, .done .ok [])

/-- TIME_SET_SECONDS. -/
def execTimeSetSeconds (h : CmdHeader) (seconds : Nat) (s : State) : Host.Outcome State Fault Refusal :=
  .next (hostRun (.timeSetSeconds h seconds) timeSetSecondsKind h (timeSetSecondsEff seconds) s)

/-- `TIME.ALIGN`. -/
def timeAlignKind : CmdKind := ⟨0x0403, false, [.standby, .ready]⟩

/-- The alignment waits for the next PPS edge or time exchange (R148, R161, R162). -/
def timeAlignEff : Effect := onDev fun _ c d =>
  if d.time.slewFrom.isSome then (d, .done .wrongState [])
  else if d.time.inUse = 1 || (d.time.inUse = 0 && d.time.pps) then
    (d.modTime fun t => { t with pendingAlign := t.pendingAlign ++ [c] }, .wait)
  else (d, .done .notReady [])

/-- TIME_ALIGN. -/
def execTimeAlign (h : CmdHeader) (s : State) : Host.Outcome State Fault Refusal :=
  .next (hostRun (.timeAlign h) timeAlignKind h timeAlignEff s)

/-- `TIME.CLEAR_FAIL`. -/
def timeClearFailKind : CmdKind := ⟨0x0404, false, workStates⟩

/-- A failed source is failed no longer (R134). -/
def timeClearFailEff (source : Nat) : Effect := onDev fun _ _ d =>
  if 2 < source then (d, .done .outOfRange [])
  else ((d.modSource source fun s => { s with failed := false, cause := 0 }).refreshReady, .done .ok [])

/-- TIME_CLEAR_FAIL. -/
def execTimeClearFail (h : CmdHeader) (source : Nat) (s : State) : Host.Outcome State Fault Refusal :=
  .next (hostRun (.timeClearFail h source) timeClearFailKind h (timeClearFailEff source) s)

/-- `TIME.SET_SPREAD`. -/
def timeSetSpreadKind : CmdKind := ⟨0x0405, false, [.standby, .ready, .running]⟩

/-- The four fields lie in the ranges of R156. -/
def Spread.legal (p : Spread) : Bool :=
  p.sliceDepth ≤ 24 && p.switchDepth ≤ 24 && 4 ≤ p.sliceRate && p.sliceRate ≤ 100 && 4 ≤ p.switchRate && p.switchRate ≤ 100

/-- The fields take effect at the next second boundary (R155, R162). -/
def timeSetSpreadEff (p : Spread) : Effect := onDev fun _ _ d =>
  if p.legal then (d.modTime fun t => { t with pendingSpread := some p }, .done .ok []) else (d, .done .outOfRange [])

/-- TIME_SET_SPREAD. -/
def execTimeSetSpread (h : CmdHeader) (sliceDepth switchDepth sliceRate switchRate : Nat) (s : State) :
    Host.Outcome State Fault Refusal :=
  .next (hostRun (.timeSetSpread h sliceDepth switchDepth sliceRate switchRate) timeSetSpreadKind h
    (timeSetSpreadEff ⟨sliceDepth, switchDepth, sliceRate, switchRate⟩) s)

/-- Activation of a map: its limits wait for the next counting window, its spread fields for the next second
boundary, the ready flags follow its enables, and the wait of R139 starts again for another `preferred` (R155, R158). -/
def Dev.timeFromMap (d : Dev) : Dev :=
  let same := preferred d.map.active == preferred d.map.old
  (d.modTime fun t => { t with
    limitsDue := true, pendingSpread := some (spreadOf d.map.active)
    readySince := if same then t.readySince else none }).refreshReady

end Sys2Proof.Machine
end

