-- ==== Sys2Proof/Machine/Pair.lean ====
section
/-! DEFINITION. Arbitration by the receiving end of a pair of ports (R480 to R490). -/

namespace Sys2Proof.Machine

/-! ### Members -/

/-- Change the pair state. -/
def Dev.modPairs (d : Dev) (f : PairState → PairState) : Dev := { d with pair := f d.pair }

/-- Change a member. -/
def Dev.modMember (d : Dev) (p : Nat) (f : PairMember → PairMember) : Dev :=
  d.modPairs fun x => { x with members := modAt x.members p f }

/-- The state of a member. -/
def Dev.memberState (d : Dev) (p : Nat) : MemberSt := (getD d.pair.members p ⟨.down, none⟩).state

/-- The code of a member's state (R485). -/
def MemberSt.code : MemberSt → Nat
  | .down => 0 | .active => 1 | .standby => 2 | .suspect => 3

/-- The first port of a port's pair, under which what concerns the pair is kept. -/
def pairHead (m : Option PisteMap) (p : Nat) : Nat := ((pairOf m p).head?).getD p

/-- The other member of a port's pair. -/
def otherMember (m : Option PisteMap) (p : Nat) : Option Nat := (pairOf m p).find? (· != p)

/-- The port belongs to the module's own uplink pair. -/
def ownPair (m : Option PisteMap) (p : Nat) : Bool := portRole m p == 2 || portRole m p == 3

/-- The active uplink port (R127, R490). -/
def Dev.activeUplink (d : Dev) : Option Nat :=
  match upPorts d.map.active with
  | [] => none
  | a :: _ => some ((getD d.pair.lastActive a none).getD a)

/-- Give a member a state: event 1803 with a cause, 0 up, 1 proven, 2 mismatch, 3 lag, 4 down, 5 command (R491). -/
def Dev.setMember (d : Dev) (p : Nat) (st : MemberSt) (proof : Option Nat) (cause : Nat) : Dev :=
  let old := d.memberState p
  let d := d.modMember p fun _ => ⟨st, proof⟩
  if old == st then d else d.raise 1803 0 [evNat p, evNat old.code, evNat st.code, evNat cause]

/-- A member becomes active: event 1801 where another was active before, with a cause, 0 down, 1 suspect, 2 lag,
3 command; a change of the module's own pair changes the active uplink port (R485, R490, R491). -/
def Dev.becomesActive (d : Dev) (p cause memberCause : Nat) : Dev :=
  let m := d.map.active
  let k := pairHead m p
  let old := (getD d.pair.lastActive k none).getD k
  let d := (d.setMember p .active none memberCause).modPairs fun x => { x with lastActive := modAt x.lastActive k fun _ => some p }
  if old = p then d
  else
    let d := d.raise 1801 0 [evNat old, evNat p, evNat cause]
    if ownPair m p then (d.modPairs fun x => { x with switches := (x.switches + 1) % 2 ^ 32 }).uplinkChanged else d

/-! ### Copies (R483, R486) -/

/-- Two copies are of the same stream of the same pair. -/
def sameStream (m : Option PisteMap) (a b : Copy) : Bool :=
  pairHead m a.port == pairHead m b.port && a.address == b.address && a.vc == b.vc

/-- A copy goes on: a record to the next step of reassembly, a packet to be handed on (R486). -/
def Dev.copyOn (d : Dev) (c : Copy) : Dev := if c.address == 0 then d.handPacket c else d.forwardCopy c

/-- A copy may go on alone: its other member is down or suspect (R486). -/
def Dev.aloneNow (d : Dev) (c : Copy) : Bool :=
  match otherMember d.map.active c.port with
  | none => true
  | some o =>
    let st := d.memberState o
    d.memberState c.port != .suspect && (st == .down || st == .suspect)

/-- A copy that goes on alone is kept for its pair, which may still complete while the other member is up (R486). -/
def Dev.keptFor (d : Dev) (c : Copy) : Bool :=
  match otherMember d.map.active c.port with
  | none => false
  | some o => d.memberState o != .down && !c.single

/-- Send on the waiting copies that may go on alone, in order of completion (R486). -/
def Dev.settleCopies (d : Dev) : Dev :=
  let all := d.mrg.copies
  let d := d.modMrg fun m => { m with copies := [] }
  all.foldl (fun d c =>
    let put := fun (d : Dev) (c : Copy) => d.modMrg fun m => { m with copies := m.copies ++ [c] }
    if c.forwarded then (if d.keptFor c then put d c else d)
    else if d.aloneNow c then
      let d := d.copyOn c
      if d.keptFor c then put d { c with forwarded := true } else d
    else put d c) d

/-! ### Members come and go (R485, R489) -/

/-- The copies of a pair's streams are paired anew, as those of a member that has just joined (R479, R483). -/
def Dev.pairAnew (d : Dev) (p : Nat) : Dev :=
  let k := pairHead d.map.active p
  d.modPairs fun x => { x with paired := x.paired.filter (·.1 != k) }

/-- A member comes up: it proves itself while the other is up, and is active at once where none is (R485, R489). -/
def Dev.memberUp (d : Dev) (p : Nat) : Dev :=
  match otherMember d.map.active p with
  | none => d
  | some o =>
    let d := d.pairAnew p
    if d.memberState o == .down then d.becomesActive p 0 0 else d.setMember p .suspect (some 0) 0

/-- The other member takes over from one that is no longer fit: a standby one, or a suspect one where it is the only
one up (R485). -/
def Dev.takeOver (d : Dev) (p cause memberCause : Nat) : Dev :=
  match otherMember d.map.active p with
  | none => d
  | some o =>
    match d.memberState o with
    | .standby => d.becomesActive o cause memberCause
    | .suspect => if d.memberState p == .down then d.becomesActive o cause memberCause else d
    | _ => d

/-- A member goes down (R485). -/
def Dev.memberDown (d : Dev) (p : Nat) : Dev :=
  let was := d.memberState p
  if was == .down then d
  else
    let d := d.setMember p .down none 4
    let d := if was == .active then d.takeOver p 0 4 else d
    d.settleCopies

/-- A map becomes active: a port that is up and now has another member beside it is one that has come up, and one that has none
any more is no member (R485, R492). -/
def Dev.pairsFromMap (d : Dev) : Dev :=
  (List.range 8).foldl (fun d p =>
    if inPair d.map.active p then (if d.portUp p && d.memberState p == .down then d.memberUp p else d)
    else d.modMember p fun _ => ⟨.down, none⟩) d

/-- A member becomes suspect, by a mismatch or by lag: the standby one becomes active (R485). An active member whose
other is not standby stays active. -/
def Dev.makeSuspect (d : Dev) (p cause memberCause : Nat) : Dev :=
  let was := d.memberState p
  match was with
  | .down | .suspect => d.modMember p fun x => { x with proof := none }
  | .standby => d.setMember p .suspect none memberCause
  | .active =>
    if (otherMember d.map.active p).any fun o => d.memberState o == .standby then
      (d.setMember p .suspect none memberCause).takeOver p cause memberCause
    else d

/-! ### Comparison (R484, R488) -/

/-- Two paired copies are equal, as they were received (R484). -/
def copiesEqual (a b : Copy) : Bool :=
  let x := a.received
  let y := b.received
  if a.address == 0 then x == y
  else x.take 32 == y.take 32 && fieldAt x (x.length - 4) 4 == fieldAt y (y.length - 4) 4
    && crc32c (x.take (x.length - 4)) == crc32c (y.take (y.length - 4))

/-- Which copy is poisoned: neither, active, standby, both (R491). -/
def poisonCode (active standby : Bool) : Nat := b2n active + 2 * b2n standby

/-- One more equal comparison: after 1,024 in a row a member that proves itself is standby (R489). -/
def Dev.provenStep (d : Dev) (p : Nat) : Dev :=
  match getD d.pair.members p ⟨.down, none⟩ with
  | ⟨.suspect, some n⟩ => if 1024 ≤ n + 1 then d.setMember p .standby none 1 else d.modMember p fun x => { x with proof := some (n + 1) }
  | _ => d

/-- The comparison differs: event 1802, the count, and the member made suspect (R488). `a` is the active copy. The
second part is the copy that goes on. -/
def Dev.mismatch (d : Dev) (a b : Copy) : Dev × Copy :=
  let m := d.map.active
  let key := if a.address == 0 then evNone else evNat (fieldAt a.bytes 10 6)
  let d := if ownPair m a.port then d.modPairs fun x => { x with mismatches := (x.mismatches + 1) % 2 ^ 32 } else d
  let ports := (pairOf m a.port).map evNat
  let d := d.raiseLimited 1802 0 (pairHead m a.port)
    (ports ++ [evNat a.address, evNat a.vc, key, evNat (poisonCode a.poisoned b.poisoned)])
  if a.poisoned && !b.poisoned && d.memberState b.port == .standby then (d.makeSuspect a.port 1 2, b)
  else (d.makeSuspect b.port 1 2, a)

/-- The passes of a copy that does not go on return; those of one that has gone on return with it. -/
def Dev.releaseCopy (d : Dev) (c : Copy) : Dev := if c.forwarded then d else d.dropCopy c

/-- A pair is complete: its copies are compared, exactly one goes on and the other is released (R486, R488). -/
def Dev.resolvePair (d : Dev) (x y : Copy) : Dev :=
  let (a, b) := if d.memberState y.port == .active then (y, x) else (x, y)
  let (d, on) := if copiesEqual a b then ((d.provenStep a.port).provenStep b.port, a) else d.mismatch a b
  let other := if on.port == a.port then b else a
  if other.forwarded then d.releaseCopy on else ((if on.forwarded then d else d.copyOn on).releaseCopy other)

/-- The copy that a completed one is paired with: the oldest of the other member, by the first 32 bytes until the
stream's first pair since a member joined (R483). -/
def Dev.partnerCopy (d : Dev) (c : Copy) : Option Copy :=
  let m := d.map.active
  let open_ := d.mrg.copies.filter fun x => sameStream m x c && x.port != c.port && !x.single
  if d.pair.paired.contains (pairHead m c.port, c.address, c.vc) then open_.head?
  else open_.find? fun x => x.received.take 32 == c.received.take 32

/-- The copies of a stream, once the waiting one `y` is paired with one that has just completed: it goes, and those that came before
either of the two on its own member stay single (R483). -/
def pairOff (m : Option PisteMap) (y : Copy) : List Copy → List Copy
  | [] => []
  | x :: xs =>
    if x == y then xs.map fun z => if sameStream m z y && z.port != y.port then { z with single := true } else z
    else (if sameStream m x y then { x with single := true } else x) :: pairOff m y xs

/-- A copy is complete at the receiving end of a pair (R483, R486). -/
def Dev.copyComplete (d : Dev) (c : Copy) : Dev :=
  let m := d.map.active
  if !inPair m c.port then d.copyOn c
  else
    match d.partnerCopy c with
    | some y =>
      let key := (pairHead m c.port, c.address, c.vc)
      let d := d.modMrg fun g => { g with copies := pairOff m y g.copies }
      let d := d.modPairs fun x => { x with paired := if x.paired.contains key then x.paired else x.paired ++ [key] }
      (d.resolvePair c y).settleCopies
    | none => (d.modMrg fun g => { g with copies := g.copies ++ [c] }).settleCopies

/-- `relock_time` of a port in ticks (R332). -/
def relockTicks (m : Option PisteMap) (p : Nat) : Nat := usTicks (mapNum m 0x0050 0 (16 + 16 * p + 6) 2 1000)

/-- The first copy that has waited too long for its pair (R486). -/
def Dev.laggingCopy (d : Dev) : Option Copy :=
  d.mrg.copies.find? fun c => c.since + relockTicks d.map.active c.port + usTicks 1000 ≤ d.sys.ticks

/-- A copy without its pair goes on alone and the lagging member becomes suspect; one of a suspect member, or one that has gone on
already, is released (R486). What the lagging member sends next is paired as after a join (DESIGN CHOICE, log entry 117). -/
def Dev.lagOnce (d : Dev) (c : Copy) : Dev :=
  let d := d.modMrg fun m => { m with copies := m.copies.erase c }
  let d := if c.single then d else d.pairAnew c.port
  if c.forwarded || d.memberState c.port == .suspect then (d.releaseCopy c).settleCopies
  else
    let d := match otherMember d.map.active c.port with
      | some o => if c.single || d.memberState o == MemberSt.down then d else d.makeSuspect o 2 3
      | none => d
    (d.copyOn c).settleCopies

/-- Every copy that has waited too long. -/
def Dev.lagAll (d : Dev) : Nat → Dev
  | 0 => d
  | n + 1 =>
    match d.laggingCopy with
    | none => d
    | some c => (d.lagOnce c).lagAll n

/-- COPY_LAG_TIMEOUT: a copy has been complete for `relock_time` and 1 ms without its pair. -/
def execCopyLagTimeout (s : State) : Host.Outcome State Fault Refusal :=
  .next (s.onDev fun d => d.lagAll d.mrg.copies.length)

/-! ### Commands (R493) -/

/-- `SYS.UPLINK_STATUS`. -/
def sysUplinkStatusKind : CmdKind := ⟨0x0006, false, upStates⟩

/-- The 16 bytes of `SYS.UPLINK_STATUS` (R455). -/
def uplinkStatusData (d : Dev) : List Byte :=
  let m := d.map.active
  let up := upPorts m
  let active := (d.activeUplink).getD 255
  let standby := (up.find? fun p => d.memberState p == .standby).getD 255
  let st := fun (r : Nat) => match portOfRole m r with
    | some p => if inPair m p then (d.memberState p).code else if d.portUp p then 1 else 0
    | none => 0
  leBytes 1 active ++ leBytes 1 standby ++ leBytes 1 (st 2) ++ leBytes 1 (st 3)
    ++ leBytes 4 d.pair.mismatches ++ leBytes 4 d.pair.switches ++ zeros 4

/-- SYS_UPLINK_STATUS. -/
def execSysUplinkStatus (h : CmdHeader) (s : State) : Host.Outcome State Fault Refusal :=
  .next (hostRun (.sysUplinkStatus h) sysUplinkStatusKind h (reads uplinkStatusData) s)

/-- `SYS.UPLINK_RETURN`. -/
def sysUplinkReturnKind : CmdKind := ⟨0x0007, false, [.ready, .running, .quiesce]⟩

/-- The roles of a pair swap (R489). -/
def Dev.swapRoles (d : Dev) (p : Nat) : Dev :=
  let d := match otherMember d.map.active p with
    | some o => if d.memberState o == MemberSt.active then d.setMember o .standby none 5 else d
    | none => d
  d.becomesActive p 3 5

/-- A suspect member starts proving; a standby one becomes active (R489); a port that is no member of a pair is out of range
(R493). -/
def sysUplinkReturnEff (port : Nat) : Effect := onDev fun _ _ d =>
  if 7 < port || !inPair d.map.active port then (d, .done .outOfRange [])
  else match d.memberState port with
    | .suspect => (d.modMember port fun x => { x with proof := some 0 }, .done .ok [])
    | .standby => (d.swapRoles port, .done .ok [])
    | _ => (d, .done .wrongState [])

/-- SYS_UPLINK_RETURN. -/
def execSysUplinkReturn (h : CmdHeader) (port : Nat) (s : State) : Host.Outcome State Fault Refusal :=
  .next (hostRun (.sysUplinkReturn h port) sysUplinkReturnKind h (sysUplinkReturnEff port) s)

end Sys2Proof.Machine
end

