-- ==== Sys2Proof/Machine/Receive.lean ====
section
/-! DEFINITION. Received parcels: the chair check, routing, reassembly and the pass queues (R268, R273, R279, R286, R340,
R415). -/

namespace Sys2Proof.Machine

/-- A port's link layer. -/
def Dev.linkPort (d : Dev) (p : Nat) : LinkPort := getD d.link p LinkPort.initial

/-! ### Delivery (R268, R273, R279, R286, R340, R415) -/

/-- The partner field as the module reads it: its own `self_address` as 0x000 (R2, R266). -/
def Dev.readPartner (d : Dev) (a : Nat) : Nat := if a == selfAddress d.map.active then 0 else a

/-- The stream a parcel received on a port belongs to, where it is one that is reassembled here. -/
def Dev.streamOf (d : Dev) (p : Nat) (h : Held) : Option (Nat × Nat) :=
  if ownPair d.map.active p then some (0, h.vc)
  else match route d.map.active h.partner with
    | some (q, pass) => if q == firstPort d.map.active p && !pass then some (h.partner, h.vc) else none
    | none => none

/-- A parcel that is not accepted: what it belonged to is refused (R273). -/
def Dev.refuse (d : Dev) (p : Nat) (h : Held) : Dev :=
  match d.streamOf p h with
  | some (a, v) => d.refuseParcel p a v
  | none => d

/-- A parcel with a valid CRC that is malformed (R340). -/
def malformed (h : Held) (len : Nat) : Bool :=
  if h.typ = 1 then len = 0 || 54 < len
  else if h.typ = 2 then len < 4 || 52 < len || len % 4 != 0 || h.vc != 0
  else if h.typ = 0 then len != 4
  else true

/-- The chair accepts the parcel (R273). -/
def Dev.chairAccepts (d : Dev) (p : Nat) (h : Held) : Bool :=
  let c := halfChair (d.rxMap p) p h.owner 2
  if h.typ = 2 then c.used && c.vc == 0
  else c.used && c.vc == h.vc && (c.address == 0xFFF || c.address == d.readPartner h.partner)

/-- A chair mismatch (R273, R300); a lift-pass parcel belongs to no stream. -/
def Dev.chairMismatch (d : Dev) (p : Nat) (h : Held) : Dev :=
  let d := d.countMrg fun c => { c with chairMismatches := (c.chairMismatches + 1) % 2 ^ 64 }
  let d := d.raiseLimited 1411 0 p [evNat p, evNat h.owner, evNat h.partner, evNat h.vc]
  if h.typ = 1 then d.refuse p h else d

/-- An unroutable parcel (R268, R300). -/
def Dev.unroutable (d : Dev) (p : Nat) (h : Held) : Dev :=
  let d := d.countMrg fun c => { c with unroutable := (c.unroutable + 1) % 2 ^ 64 }
  d.raiseLimited 1416 0 p [evNat p, evNat h.partner, evNat h.vc]

/-- The first parcel of a record breaks the grant: the record that its header describes is discarded with a marker of cause 4,
and so are its later parcels (R273, R279). A packet has no marker. -/
def Dev.refuseFirst (d : Dev) (s : RxStream) (h : Held) : Dev :=
  let total := if s.address == 0 then 36 + fieldAt h.payload 6 2 else fieldAt h.payload 2 4
  let good := if s.address == 0 then total ≤ 1060
    else 36 ≤ total && total ≤ 1048576 && vcAccepts s.vc (fieldAt h.payload 0 1)
  let d := if s.address == 0 then d else d.streamMarker 4 good s.vc s.address (fieldAt h.payload 10 6)
  if good && 1 < parcelsOf total then d.setStream { s with mode := .discard (parcelsOf total - 1) } else d

/-- A parcel that breaks its stream's grant is discarded with the record it belongs to (R279). -/
def Dev.passViolation (d : Dev) (p a : Nat) (h : Held) : Dev :=
  let d := d.countMrg fun c => { c with passViolations := (c.passViolations + 1) % 2 ^ 64 }
  let d := d.raiseLimited 1412 0 p [evNat p, evNat a, evNat h.vc]
  let s := d.rxStream p a h.vc
  if s.mode == .start then d.refuseFirst s h else d.refuseParcel p a h.vc

/-- The downward command stream halts (R415, R443). -/
def Dev.haltDownward (d : Dev) (s : RxStream) (length partner : Nat) : Dev :=
  let d := d.resetStream s .halted
  let d := d.countMrg fun c => { c with haltedStreams := (c.haltedStreams + 1) % 2 ^ 64 }
  let d := { d with evt := { d.evt with ownCounts := modAt d.evt.ownCounts 0 fun n => (n + 1) % 2 ^ 32 } }
  d.raise 1824 0 [evNat s.port, evNat length, evNat partner]

/-- A record or packet is whole (R287, R415, R483). -/
def Dev.wholeReceived (d : Dev) (s : RxStream) : Dev :=
  let d := d.setStream (s.cleared .start)
  if s.address == 0 then
    d.copyComplete ⟨s.port, 0, s.vc, s.bytes, s.bytes, s.poisoned || !crcMatches s.bytes, d.sys.ticks, false, false, s.chain⟩
  else
    let (d, bytes) := d.receiveRecord s.port s.bytes s.poisoned
    let d := d.countMrg fun c => { c with reassembled := modAt c.reassembled s.port fun n => (n + 1) % 2 ^ 64 }
    d.copyComplete ⟨s.port, s.address, s.vc, bytes, s.bytes, bytesPoisoned bytes, d.sys.ticks, false, false, s.chain⟩

/-- The lane receivers write bytes of a record or packet into merge memory: a buffer of its stream's reservation where the last
one is full (R22, R281). -/
def Dev.growStream (d : Dev) (s : RxStream) (length : Nat) : Dev × List Nat :=
  let n := chainBuffers length - s.chain.length
  if n = 0 then (d.takeTurns 1 1 (chainMacros (s.chain.drop (s.chain.length - 1))), s.chain)
  else
    let (d, more) := (d.countBufs (.grant s.address s.port s.vc) (· + n)).takeBuffers 1 n
    (d, s.chain ++ more)

/-- One more parcel of a record or packet: it is whole with the last one. -/
def Dev.gatherParcel (d : Dev) (s : RxStream) (h : Held) (total : Nat) : Dev :=
  let bytes := (s.bytes ++ h.payload).take total
  let (d, chain) := d.growStream s bytes.length
  let s := { s with
    mode := .gather, bytes := bytes, chain := chain, parcels := s.parcels + 1, poisoned := s.poisoned || h.poisoned }
  if s.need ≤ s.parcels then d.wholeReceived s else d.setStream s

/-- The first parcel of a record or packet (R286, R415). -/
def Dev.firstParcel (d : Dev) (s : RxStream) (h : Held) : Dev :=
  if s.address == 0 then
    let len := fieldAt h.payload 6 2
    if len ≤ 1024 && d.readPartner (bits (fieldAt h.payload 4 2) 11 0) == d.readPartner h.partner then
      d.gatherParcel { s with need := parcelsOf (36 + len) } h (36 + len)
    else (d.haltDownward s len h.partner).returnPasses 0 s.port s.vc 1
  else
    let len := fieldAt h.payload 2 4
    let typ := fieldAt h.payload 0 1
    if 36 ≤ len && len ≤ 1048576 && vcAccepts s.vc typ then d.gatherParcel { s with need := parcelsOf len } h len
    else (d.haltStream s len typ).returnPasses s.address s.port s.vc 1

/-- Bytes of the record or packet a stream is gathering. -/
def RxStream.total (s : RxStream) : Nat := if s.address == 0 then 36 + fieldAt s.bytes 6 2 else fieldAt s.bytes 2 4

/-- The outstanding count of a stream has reached its passes (R279). -/
def Dev.grantFull (d : Dev) (a p v : Nat) : Bool := (d.grant? a p v).any fun g => g.passes ≤ g.outstanding

/-- An accepted parcel of a stream that is reassembled here (R279, R285). -/
def Dev.streamParcel (d : Dev) (p a : Nat) (h : Held) : Dev :=
  let v := h.vc
  if d.grantFull a p v then d.passViolation p a h
  else
    let d := d.modGrant a p v fun g => { g with outstanding := g.outstanding + 1 }
    let s := d.rxStream p a v
    match s.mode with
    | .halted => d.returnPasses a p v 1
    | .discard n =>
      (d.setStream { s with mode := if n ≤ 1 then .start else .discard (n - 1) }).returnPasses a p v 1
    | .gather => d.gatherParcel s h s.total
    | .start => d.firstParcel s h

/-- Buffers that the pass queues hold. -/
def Dev.passUsed (d : Dev) : Nat := ((d.mrg.pass.toList.flatten.map (·.buf)).eraseDups).length

/-- The newest buffer of a pass queue has room for one more parcel: parcels are packed 63 to a buffer (R281). -/
def Dev.passOpen (d : Dev) (vc : Nat) : Option (Nat × Nat) :=
  ((getD d.mrg.pass vc []).getLast?).bind fun x => if x.slot < 62 then some (x.buf, x.slot + 1) else none

/-- The pass queues have room for one more parcel of a VC (R294). -/
def Dev.passRoom (d : Dev) (vc : Nat) : Bool := (d.passOpen vc).isSome || d.passUsed < passBuffers d.map.active

/-- The byte of merge memory at which a pass-queue parcel stands: 64 bytes for each of the 63 of its buffer. How they are laid out
is not stated (log entry 112). -/
def passAddress (buf slot : Nat) : Nat := 4096 * buf + 64 * slot

/-- The parcel is one of a pass-mode partner of the port. -/
def Dev.isPass (d : Dev) (p : Nat) (h : Held) : Bool :=
  h.typ == 1 && !ownPair d.map.active p &&
    (match route d.map.active h.partner with | some (q, pass) => q == firstPort d.map.active p && pass | none => false)

/-- A parcel of a pass-mode partner joins the pass queue of its VC (R268, R294). -/
def Dev.passParcel (d : Dev) (h : Held) : Dev :=
  let (d, buf, slot) := match d.passOpen h.vc with
    | some (b, i) => ((d.takeTurn 1 1 (macroAt (4096 * b))).freshBytes 1 (passAddress b i) 64, b, i)
    | none =>
      let y := d.takeBuffers 1 1
      (y.1, y.2.headD 0, 0)
  let x : PassParcel := ⟨d.mrg.nextRid, h.partner, h.fst, h.poisoned, h.payload, [], [], false, buf, slot⟩
  d.modMrg fun m => { m with nextRid := m.nextRid + 1, pass := modAt m.pass h.vc (· ++ [x]) }

/-- A parcel of the downward stream with an address the module does not route: it is accepted and discarded, and its pass
returns (R268, R279). -/
def Dev.unroutableDown (d : Dev) (p : Nat) (h : Held) : Dev :=
  if d.grantFull 0 p h.vc then d.passViolation p 0 h
  else
    ((d.modGrant 0 p h.vc fun g => { g with outstanding := g.outstanding + 1 }).unroutable p h).returnPasses 0 p h.vc 1

/-- A data parcel that its chair has accepted (R268). -/
def Dev.routeParcel (d : Dev) (p : Nat) (h : Held) : Dev :=
  if ownPair d.map.active p then
    let a := d.readPartner h.partner
    if a == 0 || a == 0xFFF || (route d.map.active a).isSome then d.streamParcel p 0 h else d.unroutableDown p h
  else if d.isPass p h then d.passParcel h
  else match d.streamOf p h with
    | some (a, _) => d.streamParcel p a h
    | none => d.unroutable p h

/-- A parcel of the received-parcel crossing is delivered: R340, then the chair check of R273. -/
def Dev.deliverParcel (d : Dev) (p : Nat) (h : Held) (len : Nat) : Dev :=
  if malformed h len then
    let d := d.modLink p fun l => { l with counters := { l.counters with malformed := (l.counters.malformed + 1) % 2 ^ 64 } }
    let d := d.raiseLimited 1779 0 p [evNat p, evNat h.typ, evNat len, evNat h.vc]
    if h.typ = 1 then d.refuse p h else d
  else if !d.chairAccepts p h then d.chairMismatch p h
  else if h.typ = 2 then d.returnItems p h.payload
  else d.routeParcel p h

/-- The crossing of a port drains as far as the pass queues have room (R294). -/
def Dev.drainCrossing (d : Dev) (p : Nat) : Nat → Dev
  | 0 => d
  | n + 1 =>
    match (d.linkPort p).rx.crossing with
    | [] => d
    | h :: rest =>
      if d.isPass p h && d.chairAccepts p h && !d.passRoom h.vc then d
      else ((d.modRx p fun r => { r with crossing := rest }).deliverParcel p h h.payload.length).drainCrossing p n

/-- Every crossing drains. -/
def Dev.drainAll (d : Dev) : Dev :=
  (List.range 8).foldl (fun d p => d.drainCrossing p (d.linkPort p).rx.crossing.length) d

/-- A port leaves the chairlift: what it has acknowledged is delivered, but for parcels of pass-mode partners, which wait for
room in their queues (R288, R294). -/
def Dev.flushCrossing (d : Dev) (p : Nat) : Dev :=
  let all := (d.linkPort p).rx.crossing
  let pass := fun (h : Held) => d.isPass p h && d.chairAccepts p h
  let d := d.modRx p fun r => { r with crossing := all.filter pass }
  (all.filter (!pass ·)).foldl (fun d h => d.deliverParcel p h h.payload.length) d

end Sys2Proof.Machine
end

