-- ==== Sys2Proof/Machine/Lanes.lean ====
section
/-! DEFINITION. Lanes: the forwarded-clock lane, lane-control messages, the chairlift, sleep and wake, PRBS tests
(R303 to R336). -/

namespace Sys2Proof.Machine

/-! ### Ports and the lane table (R332) -/

/-- A port's chairlift. -/
def Dev.port (d : Dev) (p : Nat) : LanePort := getD d.lift p LanePort.initial

/-- Change a port's chairlift. -/
def Dev.modPort (d : Dev) (p : Nat) (f : LanePort → LanePort) : Dev := { d with lift := modAt d.lift p f }

/-- Change a lane. -/
def Dev.modLane (d : Dev) (l : Nat) (f : Lane → Lane) : Dev := { d with lanes := modAt d.lanes l f }

/-- Change the four lanes of a port, each with its number q. -/
def Dev.modLanes (d : Dev) (p : Nat) (f : Nat → Lane → Lane) : Dev :=
  [0, 1, 2, 3].foldl (fun d q => d.modLane (4 * p + q) (f q)) d

/-- A field of a port's entry in the lane table. -/
def laneField (m : Option PisteMap) (p off n dflt : Nat) : Nat := mapNum m 0x0050 0 (16 + 16 * p + off) n dflt

/-- `max_stage`. -/
def maxStage (m : Option PisteMap) (p : Nat) : Nat := bits (laneField m p 1 1 0x14) 2 0

/-- `fec_c3`. -/
def fecC3 (m : Option PisteMap) (p : Nat) : Bool := bit (laneField m p 1 1 0x14) 3

/-- `auto_wake`. -/
def autoWake (m : Option PisteMap) (p : Nat) : Bool := bit (laneField m p 1 1 0x14) 4

/-- `wake_lead` in ticks. -/
def wakeLead (m : Option PisteMap) (p : Nat) : Nat := usTicks (laneField m p 4 2 20)

/-- `guard` in ticks: it counts 0.1 µs (R332). -/
def guardTicks (m : Option PisteMap) (p : Nat) : Nat := 256 * laneField m p 2 2 20

/-- `retry_delay` in ticks. -/
def retryTicks (m : Option PisteMap) (p : Nat) : Nat := usTicks (1000 * laneField m p 11 1 10)

/-- `train_pattern` (R326, R332). -/
def trainPattern (m : Option PisteMap) (p : Nat) : Nat := laneField m p 12 1 0

/-- The transmit settings of a port's entry. -/
def tableSettings (m : Option PisteMap) (p : Nat) : TxSettings :=
  ⟨laneField m p 8 1 32, laneField m p 9 1 5, laneField m p 10 1 10⟩

/-- A port that runs a Wilur link: Down, Up-A or Up-B (R303). -/
def wilurRole (r : Nat) : Bool := r == 1 || r == 2 || r == 3

/-- The lane stage cap of the performance level in force (R315, R501). -/
def levelCap (level : Nat) : Nat := if level = 0 then 2 else if level = 1 then 3 else 4

/-- The cap of an end without what a bring-up has lowered (R315). -/
def Dev.fullCap (d : Dev) (p : Nat) : Nat := min (maxStage d.map.active p) (levelCap d.pwr.level)

/-- The cap of an end (R315). -/
def Dev.cap (d : Dev) (p : Nat) : Nat :=
  match (d.port p).lowered with
  | some c => min c (d.fullCap p)
  | none => d.fullCap p

/-- A port event (R334): kind 0, source 1216 + 4n + k. -/
def Dev.portEvent (d : Dev) (p k : Nat) (items : List EvItem) : Dev := d.raise (1216 + 4 * p + k) 0 items

/-- A lane event, at most once per second per lane and cause (R334). -/
def Dev.laneEvent (d : Dev) (l k key : Nat) (items : List EvItem) : Dev := d.raiseLimited (1088 + 4 * l + k) 0 key items

/-! ### Lane-control messages (R311 to R313) -/

/-- The code of a transmit state. -/
def TxSt.code : TxSt → Nat
  | .off => 0 | .train => 1 | .align => 2 | .up => 3 | .asleep => 4 | .test => 5

/-- The code of a receive state. -/
def RxSt.code : RxSt → Nat
  | .off => 0 | .training => 1 | .passed => 2 | .locked => 3 | .asleep => 4 | .test => 5 | .failed => 6

/-- The 16 bytes of a lane-control message (R313). -/
def LcMsg.bytes (m : LcMsg) : List Byte :=
  let b := leBytes 1 m.ackEpisode ++ leBytes 1 (m.tx + 8 * m.rx + 64 * b2n m.wakeSeen + 128 * b2n m.wakeReq)
    ++ leBytes 1 (m.stage + 8 * m.cap + 64 * b2n m.fec + 128 * b2n m.fec3Wish) ++ leBytes 1 m.episode
    ++ leBytes 6 m.wakeKey ++ leBytes 2 (m.address + 4096 * m.role + 16384 * b2n m.commit)
  b ++ leBytes 4 (crc32c b)

/-- The message that 16 bytes spell (R313). -/
def lcMsgOf (bs : List Byte) : LcMsg :=
  let s := fieldAt bs 1 1
  let c := fieldAt bs 2 1
  let a := fieldAt bs 10 2
  { ackEpisode := fieldAt bs 0 1, tx := bits s 2 0, rx := bits s 5 3, wakeSeen := bit s 6, wakeReq := bit s 7
    stage := bits c 2 0, cap := bits c 5 3, fec := bit c 6, fec3Wish := bit c 7, episode := fieldAt bs 3 1
    wakeKey := fieldAt bs 4 6, address := bits a 11 0, role := bits a 13 12, commit := bit a 14 }

/-- The message that holds a port's present state (R311, R313). -/
def Dev.lcNow (d : Dev) (p : Nat) : LcMsg :=
  let x := d.port p
  let m := d.map.active
  { ackEpisode := x.rxSleep.ackEpisode, tx := x.tx.code, rx := x.rx.code, wakeSeen := x.rxSleep.wakeSeen
    wakeReq := x.rxSleep.wakeReq, stage := x.stage, cap := d.cap p, fec := x.fec, fec3Wish := fecC3 m p
    episode := x.txSleep.episode, wakeKey := x.txSleep.wakeKey, address := selfAddress m, role := portRole m p % 4
    commit := x.commit.isSome }

/-! ### Leaving the chairlift (R288, R321) -/

/-- A stream whose record is partly received when its port leaves: the record goes with a marker of cause 6, a packet
without one, and the passes return (R288). -/
def Dev.dropPartial (d : Dev) (s : RxStream) : Dev :=
  match s.mode with
  | .halted => d
  | .gather =>
    let d := if s.address == 0 then d.returnPasses 0 s.port s.vc s.parcels else d.dropGathered s 6
    d.resetStream s .start
  | _ => d.resetStream s .start

/-- As receiver: every partly received record of the port's streams goes, with event 1417 (R288, R300). -/
def Dev.dropPartials (d : Dev) (p : Nat) : Dev :=
  let mine := d.mrg.streams.filter (·.port == p)
  let n := (mine.filter fun s => s.mode == .gather && s.address != 0).length
  let d := mine.foldl Dev.dropPartial d
  if n = 0 then d else d.raiseLimited 1417 0 p [evNat p, evNat n]

/-- A record no longer waits for a port that has left: what it has not acknowledged there is sent again (R288, R296). -/
def QRec.leavePort (p : Nat) (q : QRec) : QRec :=
  if q.acked.contains p then q else { q with carriers := q.carriers.filter (· != p) }

/-- Likewise a parcel of a pass queue. -/
def PassParcel.leavePort (p : Nat) (x : PassParcel) : PassParcel :=
  if x.acked.contains p then x else { x with carriers := x.carriers.filter (· != p) }

/-- An output stream loses a port: where no other port carries the record under way, its sending starts over. -/
def TxStream.leavePort (p : Nat) (alone : Bool) (t : TxStream) : TxStream :=
  { t with items := t.items.map (fun i => ⟨i.recs.map (QRec.leavePort p)⟩), cursor := if alone then none else t.cursor }

/-- Another port of the pair is up and goes on with a stream (R288, R479). -/
def Dev.othersCarry (d : Dev) (p key : Nat) : Bool :=
  (pairOf d.map.active p).any fun o => o != p && d.portUp o && (d.link[o]?).any fun l => l.tx.joined.contains key

/-- As sender: the port's streams will start again with the first record not acknowledged in full (R288). -/
def Dev.leaveStreams (d : Dev) (p : Nat) : Dev :=
  let m := d.map.active
  if ownPair m p then
    let up := d.mrg.up.mapIdx fun (v : Nat) t => t.leavePort p (!d.othersCarry p v)
    d.modMrg fun g => { g with up := up, pass := g.pass.map fun q => q.map (PassParcel.leavePort p) }
  else
    let f := firstPort m p
    let alone := !d.othersCarry p 0
    d.modMrg fun g => { g with down := modAt g.down f (·.leavePort p alone) }

/-- The return items of lift-pass parcels that were not acknowledged: they are sent again (R280, R288). -/
def heldReturns (held : List Held) : List ReturnItem :=
  (held.filter (·.typ == 2)).flatMap fun h =>
    let items := ((List.range 13).map fun i =>
      let a := fieldAt h.payload (4 * i) 2
      (⟨bits a 11 0, bits a 13 12, fieldAt h.payload (4 * i + 2) 2, false⟩ : ReturnItem)).filter (·.count != 0)
    items.map fun r => { r with alone := items.length == 1 }

/-- The stall of a full window ends: its length joins the count (R366). -/
def Dev.endStall (d : Dev) (p : Nat) : Dev :=
  d.modLink p fun l =>
    if l.tx.stalledSince.isSome then { l with
        tx := { l.tx with stalledSince := none }
        counters := { l.counters with stall := l.counters.stall + (d.sys.ticks - l.tx.stallFrom) } }
    else l

/-- The link layer of a port that has left. -/
def Dev.leaveLink (d : Dev) (p : Nat) : Dev :=
  (d.endStall p).modTx p fun t => { t with
    held := [], replay := none, stillSince := none, returns := heldReturns t.held ++ t.returns, leftBehind := false
    blockedSince := none, joined := [] }

/-- What leaving the up state does to the port's streams, its link layer and its place in a pair (R288, R485). -/
def Dev.departStreams (d : Dev) (p : Nat) : Dev :=
  let active := d.activeUplink
  let d := (d.flushCrossing p).dropPartials p
  let d := (d.leaveStreams p).leaveLink p
  let d := d.memberDown p
  let d := if active == some p && d.activeUplink == some p then d.sourceAbsent 1 else d
  d.releaseItems.drainAll

/-- A `LANE.SLEEP` that is still waiting gets NOT_READY. -/
def Dev.failSleep (d : Dev) (p : Nat) : Dev :=
  match (d.port p).txSleep.waiting with
  | some c => (d.modPort p fun x => { x with txSleep := { x.txSleep with waiting := none } }).finish c .notReady []
  | none => d

/-- The sleep of both directions ends without a wake (R335). -/
def Dev.endSleep (d : Dev) (p : Nat) : Dev :=
  (d.failSleep p).modPort p fun x => { x with
    txSleep := { x.txSleep with wakeKey := noWakeKey, ackWait := false, acked := false, wakeAt := none, bursts := 0, waking := false, seen := none }
    rxSleep := { x.rxSleep with wakeSeen := false, wakeReq := false, windowOpen := false, fullSearch := false } }

/-- A `LANE.CLIMB` that waited is answered once the port has left the up state (R336). -/
def Dev.answerClimb (d : Dev) (p : Nat) : Dev :=
  match (d.port p).waiting with
  | some c => (d.modPort p fun x => { x with waiting := none }).finish c .ok []
  | none => d

/-- The port stops both directions, in whatever step it is; REF B is absent once the active uplink port has left the
chairlift (R129). FEC is active on no direction that is off (R313). -/
def Dev.stopPort (d : Dev) (p : Nat) : Dev :=
  let from' := (d.port p).step
  let up := from' == .up
  let d := (d.endSleep p).modPort p fun x => { x with
    step := .out, tx := .off, rx := .off, fec := false, lowered := none, commit := none, relock := false, upDue := false
    reentry := false, reentryDue := none, test := none }
  if up then (d.departStreams p).answerClimb p
  else if from' != .out && d.activeUplink == some p then d.sourceAbsent 1
  else d

/-- The port leaves the chairlift for a cause of R321. -/
def Dev.leaveOnly (d : Dev) (p cause : Nat) : Dev :=
  if (d.port p).step == .out then d
  else
    let stage := (d.port p).stage
    (d.stopPort p).portEvent p 1 [evNat cause, evNat stage]

/-! ### Training (R314, R316) -/

/-- FEC at a stage (R318), as decided when the ends enter it. -/
def Dev.fecAt (d : Dev) (p s : Nat) : Bool :=
  decide (4 ≤ s) || (s == 3 && (fecC3 d.map.active p || (d.port p).received.fec3Wish))

/-- The receiver sees its partner train at its own stage (R316). -/
def LanePort.seesTrain (x : LanePort) : Bool := x.received.tx == 1 && x.received.stage == x.stage

/-- The train step of a stage starts (R316); the codeword under way at the old stage ends with it (R308). -/
def Dev.startTrain (d : Dev) (p s : Nat) : Dev :=
  let fec := d.fecAt p s
  let m := d.map.active
  let d := d.modPort p fun x =>
    let x := { x with
      step := .train, tx := .train, stage := s, fec := fec, commit := none, relock := false, upDue := false
      pattern := trainPattern m p, since := d.sys.ticks, alignAt := none }
    { x with rx := if x.seesTrain then .training else .off }
  (d.modLanes p fun _ l => { l with align := ⟨0, 0, 0⟩, settings := l.override.getD (tableSettings m p) }).modTx p fun t =>
    { t with fecBits := Vector.replicate 4 [] }

/-- The roles of the two ends match, and a Down port's partner is routed to it (R314). -/
def Dev.endsMatch (d : Dev) (p : Nat) : Bool :=
  let r := (d.port p).received
  let m := d.map.active
  if portRole m p == 1 then (r.role == 2 || r.role == 3) && routedTo m r.address p
  else r.role == 1

/-- The start conditions of R314, but for the match of the ends. -/
def Dev.mayStart (d : Dev) (p : Nat) : Bool :=
  let x := d.port p
  x.step == .out && wilurRole (portRole d.map.active p) && x.knLocked && x.delineated && x.received.tx != 5

/-- A port that is out starts its chairlift at C0 when the conditions hold; where the ends do not match it raises port
event 1 with cause 9, once for the partner's present fields (R314). -/
def Dev.tryStart (d : Dev) (p : Nat) : Dev :=
  if d.mayStart p then
    if d.endsMatch p then (d.modPort p fun x => { x with lowered := none, mismatch := false }).startTrain p 0
    else if (d.port p).mismatch then d
    else (d.modPort p fun x => { x with mismatch := true }).portEvent p 1 [evNat 9, evNat (d.port p).stage]
  else d

/-- The port leaves the chairlift and starts again at C0 as soon as R314 allows (R321). -/
def Dev.leave (d : Dev) (p cause : Nat) : Dev := (d.leaveOnly p cause).tryStart p

/-! ### Re-entry (R324, R325) -/

/-- The port re-enters at a stage: event 2 of the port with its cause, 3 the cap fell, 4 `LANE.CLIMB`, 5 the partner
started a lower stage. -/
def Dev.reenter (d : Dev) (p t cause : Nat) : Dev :=
  let from' := (d.port p).stage
  let d := d.stopPort p
  let d := d.portEvent p 2 [evNat from', evNat t, evNat cause]
  let d := d.modPort p fun x => { x with lowered := some t, reentry := true, reentryAt := d.sys.ticks }
  d.startTrain p t

/-- The other port of the uplink pair: Up-B for Up-A, Up-A for Up-B (R325). -/
def Dev.otherUplink (d : Dev) (p : Nat) : Option Nat :=
  if portRole d.map.active p == 2 then portOfRole d.map.active 3
  else if portRole d.map.active p == 3 then portOfRole d.map.active 2
  else none

/-- The other port of the uplink pair is on its way through a re-entry (R325). -/
def Dev.otherReenters (d : Dev) (p : Nat) : Bool :=
  (d.otherUplink p).any fun b => (d.port b).reentry && (d.port b).step != .up

/-- A re-entry falls due: an uplink port waits while the other makes its own (R325). -/
def Dev.reenterInTurn (d : Dev) (p t cause : Nat) : Dev :=
  if d.otherReenters p then d.modPort p fun x => { x with reentryDue := some (t, cause) }
  else d.reenter p t cause

/-- The cap has fallen below the port's present stage (R315, R324). -/
def Dev.capCheck (d : Dev) (p : Nat) : Dev :=
  let x := d.port p
  if x.step == .out || x.step == .retry || x.step == .failed || x.step == .test || x.stage ≤ d.cap p then d
  else if x.step == .up then d.reenterInTurn p (d.cap p) 3
  else d.reenter p (d.cap p) 3

/-- Every port's cap is looked at, Up-B before Up-A (R325). -/
def Dev.capCheckAll (d : Dev) : Dev :=
  let m := d.map.active
  let ports := (List.range 8).filter fun p => portRole m p != 2
  let d := ports.foldl Dev.capCheck d
  match portOfRole m 2 with
  | some a => d.capCheck a
  | none => d

/-- The re-entry that waits on a port starts (R325). -/
def Dev.startWaitingReentry (d : Dev) (a : Nat) : Dev :=
  match (d.port a).reentryDue with
  | some (t, cause) => (d.modPort a fun x => { x with reentryDue := none }).reenter a t cause
  | none => d

/-- The re-entry that waits for a port's own starts, its 100 ms over or the port up again (R325). -/
def Dev.startWaitingFor (d : Dev) (p : Nat) : Dev :=
  match d.otherUplink p with
  | some a => d.startWaitingReentry a
  | none => d

/-- UP_A_REENTRY_DELAY: 100 ms after Up-B started its re-entry that of Up-A starts (R325); an Up-B that waits for Up-A waits no
longer than that either (DESIGN CHOICE, log entry 109: R325 sets a limit for Up-A alone). -/
def execUpAReentryDelay (s : State) : Host.Outcome State Fault Refusal :=
  .next (s.onDev fun d =>
    ((portOfRole d.map.active 3).toList ++ (portOfRole d.map.active 2).toList).foldl (fun d b =>
      if (d.port b).reentryAt + usTicks 100000 ≤ d.sys.ticks then d.startWaitingFor b else d) d)

/-! ### Coming up (R319) -/

/-- The streams of a port that were halted resume at its chairlift (R286, R415). -/
def Dev.resumeHalted (d : Dev) (p : Nat) : Dev :=
  (d.mrg.streams.filter fun s => s.port == p && s.mode == .halted).foldl (fun d s => d.resumeStream s 1) d

/-- The link layer of a port that comes up: both ends start at sequence 0 (R345); what was acknowledged and waits in the
received-parcel crossing stays there. -/
def LinkPort.restart (l : LinkPort) : LinkPort :=
  { l with
    tx := { l.tx with next := 0, held := [], lastNak := 0, replay := none, stillSince := none, joined := [] }
    rx := { l.rx with expected := 0, ack := AckItem.initial, ackChanged := none } }

/-- The port is up: port event 0; its lanes' replay histories are cleared, its sequences restart, halted streams resume
and it takes its place in a pair (R319, R345, R407). -/
def Dev.portComesUp (d : Dev) (p : Nat) : Dev :=
  let x := d.port p
  let d := d.modPort p fun x => { x with step := .up, lowered := none, reentry := false, commit := none }
  let d := [0, 1, 2, 3].foldl (fun d q => d.clearHistory 1 (4 * p + q)) d
  let d := d.modLink p LinkPort.restart
  let d := d.portEvent p 0 [evNat x.stage, evNat (b2n x.fec), evNat x.received.address]
  let d := (d.resumeHalted p).memberUp p
  d.startWaitingFor p

/-- The port is up when both directions are (R319). A mismatch of `fec` is a failure at the stage (R335). -/
def Dev.bothUp (d : Dev) (p : Nat) : Bool :=
  let x := d.port p
  x.step == .decide && x.tx == .up && x.rx == .locked && x.received.tx == 3

/-! ### Failures (R320) -/

/-- The place of a step in the causes of port event 2. -/
def LiftStep.failCause : LiftStep → Nat
  | .align => 1
  | .decide => 2
  | _ => 0

/-- After a failure at its stage the end lowers its cap and trains the stage below, or, at C0, holds `tx_state` 0 for
`retry_delay` (R320). -/
def Dev.fallBack (d : Dev) (p : Nat) : Dev :=
  let s := (d.port p).stage
  if 1 ≤ s then
    let d := d.modPort p fun x => { x with lowered := some (s - 1) }
    d.startTrain p (d.cap p)
  else d.modPort p fun x => { x with step := .retry, tx := .off, commit := none, upDue := false, since := d.sys.ticks }

/-- Port event 2 of a failure at the present stage (R320, R334). -/
def Dev.failEvent (d : Dev) (p : Nat) : Dev :=
  let x := d.port p
  d.portEvent p 2 [evNat x.stage, evNat (x.stage - 1), evNat x.step.failCause]

/-- A failure at this end: it announces `rx_state` 6 at the stage, and falls back once a message with it has been sent (R311,
R320). -/
def Dev.failStage (d : Dev) (p : Nat) : Dev :=
  (d.failEvent p).modPort p fun x => { x with step := .failed, rx := .failed, commit := none, upDue := false }

/-- The partner has announced a failure at the stage: this end falls back at once (R320). -/
def Dev.partnerFailed (d : Dev) (p : Nat) : Dev := (d.failEvent p).fallBack p

/-- RETRY_DELAY_END: `retry_delay` after a failure at C0 is over (R320). -/
def execRetryDelayEnd (port : Nat) (s : State) : Host.Outcome State Fault Refusal :=
  .next (s.onDev fun d =>
    let x := d.port port
    if x.step == .retry && x.since + retryTicks d.map.active port ≤ d.sys.ticks then
      (d.modPort port fun x => { x with step := .out, rx := .off }).tryStart port
    else d)

/-! ### Check, align and decide (R316, R317, R319) -/

/-- The transmitter goes on to align: its own check has passed and so has the partner's (R316). -/
def Dev.tryAlign (d : Dev) (p : Nat) : Dev :=
  let x := d.port p
  let passed := x.received.stage == x.stage && (x.received.rx == 2 || x.received.rx == 3)
  if x.step == .check && x.rx == .passed && passed then
    (d.modPort p fun x => { x with step := .align, tx := .align }).modTx p fun t => { t with counter := 0 }
  else d

/-- t_train of a stage in ticks (R317). -/
def trainTicks (stage : Nat) : Nat := usTicks (if stage ≤ 2 then 1000 else if stage = 3 then 4000 else 8000)

/-- Bits a check compares (R317). -/
def stageCheckBits : Nat := 2 ^ 28

/-- TRAIN_DONE: t_train has passed at the receiver, which has found the polarity of its four pairs; the check bits are counted from
0 (R304, R316, R317, R326). -/
def execTrainDone (training : LaneTraining) (s : State) : Host.Outcome State Fault Refusal :=
  .next (s.onDev fun d =>
    let port := training.port
    let x := d.port port
    if x.step == .train && x.rx == .training && x.since + trainTicks x.stage ≤ d.sys.ticks then
      (d.modPort port fun x => { x with step := .check, since := d.sys.ticks }).modLanes port fun q l => { l with
        inverted := training.inverted.getD q false
        checker := PrbsChecker.initial, checked := 0
        counters := { l.counters with prbsBits := 0, prbsErrors := 0, prbsSyncLoss := 0 } }
    else d)

/-- Bit errors a check passes with (R317). -/
def checkLimit (stage : Nat) (fec : Bool) : Nat := if 3 ≤ stage && fec then 256 else 0

/-- A lane's received bits after its polarity correction (R304). -/
def Lane.putRight (l : Lane) (stage : Nat) (bs : List Bool) : List Bool :=
  if l.inverted then bs.mapIdx fun i b => if isPam4 stage && i % 2 == 1 then b else !b else bs

/-- The checker of a lane takes received bits of a pattern at a stage, and its counts follow (R326). -/
def Lane.check (l : Lane) (stage pattern : Nat) (bits : List Bool) : Lane :=
  let c := (l.putRight stage bits).foldl (PrbsChecker.take pattern) l.checker
  { l with
    checker := c, checked := l.checked + bits.length
    counters := { l.counters with
      prbsBits := c.bits % 2 ^ 64, prbsErrors := c.errors % 2 ^ 64, prbsSyncLoss := c.syncLoss % 2 ^ 32 } }

/-- A lane by number. -/
def Dev.lane (d : Dev) (l : Nat) : Lane := getD d.lanes l Lane.initial

/-- The checkers of a port's four lanes take what each has received (R326). -/
def Dev.takeChecks (d : Dev) (p stage pattern : Nat) (streams : List LaneStream) : Dev :=
  d.modLanes p fun q l => l.check stage pattern ((streams[q]?).elim [] (·.bits))

/-- A lane passes its check: its checker was in sync, and its errors are within the limit (R317). -/
def PrbsChecker.passes (c : PrbsChecker) (limit : Nat) : Bool := c.bits != 0 && c.errors ≤ limit

/-- The bits of a check that a lane has not had yet (R317). -/
def Dev.checkBitsOf (d : Dev) (p : Nat) (streams : List LaneStream) : List LaneStream :=
  streams.mapIdx fun q s => ⟨s.bits.take (stageCheckBits - (d.lane (4 * p + q)).checked)⟩

/-- Check bits are counted as they come (R326). Once all are, the stage passes, or fails with lane event 1 for each lane that
failed (R317, R320). -/
def Dev.checkDone (d : Dev) (p : Nat) (streams : List LaneStream) : Dev :=
  let x := d.port p
  if !(x.step == .check && x.rx == .training) then d
  else
    let d := d.takeChecks p x.stage x.pattern (d.checkBitsOf p streams)
    if d.sys.ticks < x.since + signalTicks x.stage x.fec stageCheckBits then d
    else
    let cs := [0, 1, 2, 3].map fun q => (d.lane (4 * p + q)).checker
    let bad := cs.zipIdx.filter fun c => !c.1.passes (checkLimit x.stage x.fec)
    if bad.isEmpty then (d.modPort p fun x => { x with rx := .passed }).tryAlign p
    else
      let d := bad.foldl (fun d c => d.laneEvent (4 * p + c.2) 1 0 [evNat x.stage, evNat c.1.errors, evNat c.1.bits]) d
      d.failStage p

/-- CHECK_DONE: the bits of the check that the four lanes have received since the last such command, or since it began. -/
def execCheckDone (port : Nat) (streams : List LaneStream) (s : State) : Host.Outcome State Fault Refusal :=
  .next (s.onDev (·.checkDone port streams))

/-- ALIGN_TIMEOUT: t_align after the partner announced `tx_state` 2 without a lock (R316, R317, R320). -/
def execAlignTimeout (port : Nat) (s : State) : Host.Outcome State Fault Refusal :=
  .next (s.onDev fun d =>
    let x := d.port port
    if x.step == .align && x.alignAt.any fun a => a + alignTicks x.stage ≤ d.sys.ticks then d.failStage port else d)

/-- DECIDE_TIMEOUT: the decide step has not ended 1 ms after the lock (R319, R320). -/
def execDecideTimeout (port : Nat) (s : State) : Host.Outcome State Fault Refusal :=
  .next (s.onDev fun d =>
    let x := d.port port
    if x.step == .decide && x.since + usTicks 1000 ≤ d.sys.ticks then d.failStage port else d)

/-- The partner has committed: its `commit` is set, or it has acted on it already (R319). -/
def LanePort.partnerCommitted (x : LanePort) : Bool :=
  (x.received.stage == x.stage && (x.received.commit || x.received.tx == 3))
    || (x.received.tx == 1 && x.received.stage == x.stage + 1)

/-- The next stage of both ends (R319). -/
def Dev.nextStage (d : Dev) (p : Nat) : Nat :=
  let x := d.port p
  if x.stage < d.cap p && x.stage < x.received.cap then x.stage + 1 else x.stage

/-- The decide step: commit, then climb a stage or go up (R319). -/
def Dev.decideStep (d : Dev) (p : Nat) : Dev :=
  let x := d.port p
  if x.step == .decide && x.tx == .align && !x.upDue then
    let both := x.received.stage == x.stage && x.received.rx == 3
    let d := if both && x.commit.isNone then d.modPort p fun x => { x with commit := some 0 } else d
    if ((d.port p).commit.any fun n => 2 ≤ n) && x.partnerCommitted then
      if d.nextStage p = x.stage then d.modPort p fun x => { x with upDue := true } else d.startTrain p (d.nextStage p)
    else d
  else if d.bothUp p then
    if x.received.fec == x.fec then d.portComesUp p else d.failStage p
  else d

/-! ### Sleep and wake (R328 to R331) -/

/-- The global tick count nearest to now that a wake key names (R313, R328). -/
def Dev.nearestKey (d : Dev) (key : Nat) : Int :=
  let now : Int := d.globalNow
  let sec : Int := d.time.seconds
  let low : Int := sec - (sec - (key / 2 ^ 32 : Nat)) % 65536
  let at_ := fun (s : Int) => s * ticksPerSecond + (key % 2 ^ 32 : Nat)
  if (at_ low - now).natAbs ≤ (at_ (low + 65536) - now).natAbs then at_ low else at_ (low + 65536)

/-- The wake key of a global tick count (R313). -/
def wakeKeyOf (g : Nat) : Nat := g / ticksPerSecond % 65536 * 2 ^ 32 + g % ticksPerSecond

/-- A wake without a key is asked for: W is the present tick plus `wake_lead`, unless an earlier one is scheduled
(R331). -/
def Dev.scheduleWake (d : Dev) (p : Nat) : Dev :=
  let x := d.port p
  let w := d.globalNow + wakeLead d.map.active p
  if x.tx == .asleep && !(x.txSleep.wakeAt.any fun t => t ≤ w) then
    d.modPort p fun x => { x with txSleep := { x.txSleep with wakeAt := some w, wakeKey := wakeKeyOf w } }
  else d

/-- A waiting parcel wakes a sleeping transmit direction where `auto_wake` is set (R331). -/
def Dev.autoWakes (d : Dev) (p : Nat) : Dev :=
  if autoWake d.map.active p && (d.port p).tx == .asleep && !(d.port p).txSleep.ackWait then d.scheduleWake p else d

/-- The last alignment block after the acknowledgement of the sleep has gone: the lanes are at electrical idle and the direction
is asleep, port event 3 (R328). -/
def Dev.fallAsleep (d : Dev) (p : Nat) : Dev :=
  let x := d.port p
  let d := (d.modPort p fun x => { x with txSleep := { x.txSleep with ackWait := false, acked := false, waiting := none } }).modTx p
    fun t => { t with fecBits := Vector.replicate 4 [] }
  let d := match x.txSleep.waiting with
    | some c => d.finish c .ok []
    | none => d
  d.portEvent p 3 [evNat 0, evNat 0, evNat x.txSleep.episode, evNat 0, evNone]

/-- What a message says of the sleep of this end's transmit direction (R328, R330, R331). -/
def Dev.txSleepMessage (d : Dev) (p : Nat) : Dev :=
  let x := d.port p
  let r := x.received
  let d := if x.tx == .asleep && x.txSleep.ackWait && r.ackEpisode == x.txSleep.episode && r.rx == 4 then
      d.modPort p fun x => { x with txSleep := { x.txSleep with acked := true } }
    else d
  let d := if r.wakeReq then d.scheduleWake p else d
  if x.txSleep.waking then
    let seen := x.txSleep.seen.or (if r.wakeSeen && r.ackEpisode == x.txSleep.episode then some d.sys.ticks else none)
    d.modPort p fun x => { x with txSleep := { x.txSleep with seen := seen }, upDue := x.upDue || (seen.isSome && r.rx == 3) }
  else d

/-- What a message says of the sleep of the partner's transmit direction (R328, R329, R331). A key that it announces, and that
has already passed, sends the receiver straight to full search (R335). -/
def Dev.rxSleepMessage (d : Dev) (p : Nat) (newKey : Bool) : Dev :=
  let x := d.port p
  let r := x.received
  let passed := r.wakeKey != noWakeKey && d.nearestKey r.wakeKey ≤ (d.globalNow : Int)
  if x.step == .up && r.tx == 4 && r.episode != x.rxSleep.ackEpisode then
    let d := d.modPort p fun x => { x with
      rx := .asleep, relock := false, rxSleep := ⟨r.episode, false, x.rxSleep.wakeReq, false, passed⟩ }
    d.modLanes p fun _ l => { l with align := ⟨0, 0, 0⟩ }
  else if x.rx == .asleep && r.tx == 3 then
    d.modPort p fun x => { x with
      rx := .training, relock := true, relockAt := d.sys.ticks, rxSleep := { x.rxSleep with wakeReq := false, windowOpen := false, fullSearch := false } }
  else if r.tx != 4 then d.modPort p fun x => { x with rxSleep := { x.rxSleep with wakeReq := false } }
  else if x.rx == .asleep && newKey && passed && !x.rxSleep.windowOpen then
    d.modPort p fun x => { x with rxSleep := { x.rxSleep with fullSearch := true } }
  else d

/-! ### A message is received (R312, R314 to R324) -/

/-- The chairlift of a port that is up (R321, R324). -/
def Dev.upMessage (d : Dev) (p : Nat) : Dev :=
  let r := (d.port p).received
  if r.tx = 5 then d.stopPort p
  else if r.tx = 0 || (r.tx = 1 && r.stage = 0) then d.leave p 5
  else if r.tx = 1 then d.reenter p r.stage 5
  else d

/-- The partner starts the train step at a stage below this end's, or anew at this end's own, which it had left (R324). -/
def LanePort.partnerRestarts (x : LanePort) : Bool :=
  x.received.tx == 1 && (x.received.stage < x.stage || (x.received.stage == x.stage && x.alignAt.isSome))

/-- The chairlift of a port in a bring-up (R316, R319, R320, R324). -/
def Dev.bringUpMessage (d : Dev) (p : Nat) : Dev :=
  let x := d.port p
  let r := x.received
  let late := x.step == .check || x.step == .align || x.step == .decide
  if r.tx = 5 then d.stopPort p
  else if x.step == .failed then d
  else if late && r.rx = 6 && r.stage = x.stage then d.partnerFailed p
  else if x.partnerRestarts then d.reenter p r.stage 5
  else
    let d := if x.step == .train && x.rx != .training && x.seesTrain then
        d.modPort p fun x => { x with rx := .training, since := d.sys.ticks }
      else d
    let d := if r.tx = 2 && r.stage = x.stage && x.alignAt.isNone then
        d.modPort p fun x => { x with alignAt := some d.sys.ticks }
      else d
    (d.tryAlign p).decideStep p

/-- A valid message of a delineated receiver (R313). -/
def Dev.takeMessage (d : Dev) (p : Nat) (msg : LcMsg) : Dev :=
  let x := d.port p
  let changed := msg.role != x.received.role || msg.address != x.received.address
  let d := d.modPort p fun x => { x with received := msg, heard := msg, mismatch := x.mismatch && !changed }
  let d := (d.txSleepMessage p).rxSleepMessage p (msg.wakeKey != x.heard.wakeKey)
  match x.step with
  | .out => d.tryStart p
  | .up => d.upMessage p
  | .retry | .test => d
  | _ => d.bringUpMessage p

/-- What a receiver that is not locked or not delineated takes the partner's states for (R312). -/
def LanePort.undelineated (x : LanePort) : LanePort :=
  { x with delineated := false, msgRun := 0, kRuns := Vector.replicate 32 0, received := { x.received with tx := 0, rx := 0 } }

/-- The port leaves when its Kn or its messages are lost (R321); a port in a PRBS test is out of the chairlift already (R327). -/
def Dev.leaveUnheard (d : Dev) (p : Nat) : Dev := if (d.port p).step == .test then d else d.leave p 2

/-- A message with a CRC failure: after four in a row delineation is lost and the port leaves (R312, R321). -/
def Dev.badMessage (d : Dev) (p : Nat) : Dev :=
  let x := d.port p
  if 4 ≤ x.msgRun + 1 then (d.modPort p LanePort.undelineated).leaveUnheard p
  else d.modPort p fun x => { x with msgRun := x.msgRun + 1 }

/-- 16 bytes with a valid CRC (R313). -/
def lcMsgOk (bs : List Byte) : Bool := fieldAt bs 12 4 == crc32c (bs.take 12)

/-- The receiver of Kn takes the nibble of a frame (R312). Before delineation it tests the 32 nibbles that end here, at their offset:
two messages in a row with a valid CRC delineate it. The second part is a message of a delineated receiver, the one that
delineates it among them. -/
def LanePort.takeNibble (x : LanePort) (n : Nat) : LanePort × Option (List Byte) :=
  let ns := x.kNibbles ++ [n]
  let x := { x with kClock := (x.kClock + 1) % 32, kNibbles := ns.drop (ns.length - 32) }
  let bytes := messageOf 16 x.kNibbles
  if x.kNibbles.length < 32 then (x, none)
  else if x.delineated then (x, if x.kClock = x.kOffset then some bytes else none)
  else if !lcMsgOk bytes then ({ x with kRuns := modAt x.kRuns x.kClock fun _ => 0 }, none)
  else if getD x.kRuns x.kClock 0 = 0 then ({ x with kRuns := modAt x.kRuns x.kClock fun _ => 1 }, none)
  else ({ x with delineated := true, kOffset := x.kClock, msgRun := 0, mismatch := false }, some bytes)

/-- One K frame is received (R309, R312, R313): its coded nibble, and the message that it completes. -/
def Dev.kFrameReceived (d : Dev) (p : Nat) (coded : Byte) : Dev :=
  if !(d.port p).knLocked then d
  else
    let (x, message) := (d.port p).takeNibble (nibbleOf coded)
    let d := d.modPort p fun _ => x
    match message with
    | none => d
    | some bs => if lcMsgOk bs then (d.modPort p fun x => { x with msgRun := 0 }).takeMessage p (lcMsgOf bs) else d.badMessage p

/-- K frames received in a row. -/
def Dev.laneControl (d : Dev) (p : Nat) (frames : List Byte) : Dev :=
  if wilurRole (portRole d.map.active p) then frames.foldl (fun d b => d.kFrameReceived p b) d else d

/-- LANE_CONTROL_MESSAGE: bits 8 to 15 of the K frames received since the last such command, one byte a frame, which end a
message. -/
def execLaneControlMessage (port : Nat) (frames : List Byte) (s : State) : Host.Outcome State Fault Refusal :=
  .next (s.onDev (·.laneControl port frames))

/-- Kn of a port is driven: its role is Down, Up-A or Up-B and the timing loop is locked (R309). -/
def Dev.knDriven (d : Dev) (p : Nat) : Bool := wilurRole (portRole d.map.active p) && d.time.locked

/-- Messages follow each other every 32 frames of 128 ticks (R311). -/
def LanePort.messageDue (x : LanePort) (now : Nat) : Bool := x.sentAt.all fun t => t + 4096 ≤ now

/-- The bit that Kn carries at this tick (R309): bit t mod 128 of the frame that carries the message's nibble. -/
def Dev.knLine (d : Dev) (p : Nat) : Option Bool :=
  if !d.knDriven p then none
  else
    let x := d.port p
    let n := (d.sys.ticks - x.sentAt.getD d.sys.ticks) / 128 % 32
    (kFrame (messageNibble x.sent.bytes n))[d.time.tick % 128]?

/-- The next message starts on Kn: it holds the present state (R311). A failure that it announces is then acted on (R320), and a
decide step counts it (R319). -/
def Dev.sendMessage (d : Dev) (p : Nat) : Dev :=
  let msg := d.lcNow p
  let d := d.modPort p fun x => { x with sent := msg, sentAt := some d.sys.ticks, commit := x.commit.map (· + 1) }
  if (d.port p).step == .failed then d.fallBack p else d.decideStep p

/-- LANE_CONTROL_SEND: the next message starts on Kn, while Kn is driven (R309, R311). -/
def execLaneControlSend (port : Nat) (s : State) : Host.Outcome State Fault Refusal :=
  .next (s.onDev fun d =>
    if d.knDriven port && (d.port port).messageDue d.sys.ticks then d.sendMessage port else d)

/-! ### The forwarded-clock lane (R310) -/

/-- K_MARKER_LOCK: 64 markers in a row have locked Kn. -/
def execKMarkerLock (port : Nat) (s : State) : Host.Outcome State Fault Refusal :=
  .next (s.onDev fun d =>
    if wilurRole (portRole d.map.active port) && !(d.port port).knLocked then
      d.modPort port fun x => { x with
        knLocked := true, knSince := d.sys.ticks, delineated := false, msgRun := 0, kClock := 0, kNibbles := []
        kRuns := Vector.replicate 32 0, rx := if x.test.any (·.check) then .test else x.rx }
    else d)

/-- Kn loses lock: the port leaves, and on the active uplink port REF B is absent (R129, R310, R321). -/
def Dev.knLost (d : Dev) (p : Nat) : Dev :=
  if !(d.port p).knLocked then d
  else
    let active := d.activeUplink
    let d := d.modPort p fun x => { x.undelineated with knLocked := false, rx := if x.rx == .test then .off else x.rx }
    let d := d.leaveUnheard p
    if active == some p && d.activeUplink == some p then d.sourceAbsent 1 else d

/-- REF B is absent where no active uplink port has its Kn locked (R127, R129). -/
def Dev.checkRefB (d : Dev) : Dev :=
  if d.activeUplink.any fun p => (d.port p).knLocked then d else d.sourceAbsent 1

/-- The condition under which REF B may become present: the map has Up-A, and Kn of the active uplink port has been locked for
10 ms (R127, R129). -/
def Dev.refBMayCome (d : Dev) : Bool :=
  (portOfRole d.map.active 2).isSome
    && d.activeUplink.any fun p => (d.port p).knLocked && decide ((d.port p).knSince + usTicks 10000 ≤ d.sys.ticks)

/-- SOURCE_PRESENT: a source meets the condition of R129 for becoming present. In Boot the loop locks to INT, and the tick
counter starts (R571). -/
def execSourcePresent (source : Nat) (s : State) : Host.Outcome State Fault Refusal :=
  .next (s.onDev fun d =>
    if source = 2 && d.sys.state == .boot then d.lockLoop
    else if source = 1 && !d.refBMayCome then d
    else d.sourcePresent source)

/-- K_LOCK_LOST: four markers in a row are missing. -/
def execKLockLost (port : Nat) (s : State) : Host.Outcome State Fault Refusal := .next (s.onDev (·.knLost port))

/-! ### Timers of sleep, wake and relock -/

/-- SLEEP_ACK_TIMEOUT: no acknowledgement within 100 µs; the direction stays up (R328). -/
def execSleepAckTimeout (port : Nat) (s : State) : Host.Outcome State Fault Refusal :=
  .next (s.onDev fun d =>
    let x := d.port port
    if x.txSleep.ackWait && !x.txSleep.acked && x.txSleep.since + usTicks 100 ≤ d.sys.ticks then
      (d.modPort port fun x => { x with
        tx := .up, txSleep := { x.txSleep with ackWait := false, wakeKey := noWakeKey, wakeAt := none } }).failSleep port
    else d)

/-- Ticks from the W that the partner has announced to now; less than 0 before it (R328, R329). -/
def Dev.sinceWake (d : Dev) (p : Nat) : Int := (d.globalNow : Int) - d.nearestKey (d.port p).received.wakeKey

/-- WAKE_WINDOW_OPEN: at W less `guard` and 5 µs the receiver of a sleeping direction powers its lanes for the seeded search
(R329). -/
def execWakeWindowOpen (port : Nat) (s : State) : Host.Outcome State Fault Refusal :=
  .next (s.onDev fun d =>
    let x := d.port port
    if x.rx == .asleep && x.received.wakeKey != noWakeKey && !x.rxSleep.fullSearch
        && -((guardTicks d.map.active port + usTicks 5 : Nat) : Int) ≤ d.sinceWake port then
      d.modPort port fun x => { x with rxSleep := { x.rxSleep with windowOpen := true } }
    else d)

/-- The window, up to W and `guard` and 1 µs, ends with nothing detected: port event 3 and a full search (R329). -/
def Dev.windowMissed (d : Dev) (p : Nat) : Dev :=
  let x := d.port p
  if x.rxSleep.windowOpen && !x.rxSleep.wakeSeen && ((guardTicks d.map.active p + usTicks 1 : Nat) : Int) < d.sinceWake p then
    (d.modPort p fun x => { x with rxSleep := { x.rxSleep with windowOpen := false, fullSearch := true } }).portEvent p 3
      [evNat 1, evNat 2, evNat x.rxSleep.ackEpisode, evNat 0, evNone]
  else d

/-- WAKE_WINDOW_END: the end of the seeded search. -/
def execWakeWindowEnd (port : Nat) (s : State) : Host.Outcome State Fault Refusal := .next (s.onDev (·.windowMissed port))

/-- A wake has failed (R330): 10 µs after burst 15 without `wake_seen`, or t_align after it without a lock. -/
def Dev.wakeOverdue (d : Dev) (p : Nat) : Bool :=
  let x := d.port p
  match x.txSleep.seen with
  | some t => !x.upDue && t + alignTicks x.stage ≤ d.sys.ticks
  | none => x.txSleep.bursts == 16 && x.txSleep.wakeAt.any fun w => w + usTicks 160 ≤ d.globalNow

/-- WAKE_FAILED: no `wake_seen` within 10 µs of burst 15, or no lock within t_align of it (R330). -/
def execWakeFailed (port : Nat) (s : State) : Host.Outcome State Fault Refusal :=
  .next (s.onDev fun d => if (d.port port).txSleep.waking && d.wakeOverdue port then d.leave port 6 else d)

/-- RELOCK_TIMEOUT: a direction has not locked again within `relock_time` (R323). -/
def execRelockTimeout (port : Nat) (s : State) : Host.Outcome State Fault Refusal :=
  .next (s.onDev fun d =>
    let x := d.port port
    if x.relock && x.relockAt + relockTicks d.map.active port ≤ d.sys.ticks then d.leave port 3 else d)

/-! ### PRBS tests (R327) -/

/-- The checkers of a test take what the lanes have received, and a lane that loses sync raises lane event 3 (R327). No lane
receives while Kn is not locked (R310). -/
def Dev.testBits (d : Dev) (p : Nat) (t : PrbsTest) (streams : List LaneStream) : Dev :=
  if !(t.check && (d.port p).knLocked) then d
  else
    let before := d
    let d := d.takeChecks p t.stage t.pattern streams
    [0, 1, 2, 3].foldl (fun d q =>
      if (before.lane (4 * p + q)).checker.syncLoss < (d.lane (4 * p + q)).checker.syncLoss then
        d.laneEvent (4 * p + q) 3 0 [evNat t.pattern, evNat t.stage]
      else d) d

/-- PRBS_TEST_END: the bits that the four lanes have received in a test since the last such command, or since it began; once its
duration has passed the port leaves it with cause 8 (R327). -/
def execPrbsTestEnd (port : Nat) (streams : List LaneStream) (s : State) : Host.Outcome State Fault Refusal :=
  .next (s.onDev fun d =>
    match (d.port port).test with
    | none => d
    | some t =>
      let d := d.testBits port t streams
      if t.ends ≤ d.sys.ticks then d.leave port 8 else d)

/-! ### What the data lanes send (R316, R327) -/

/-- What the transmitter of a port's lanes sends. -/
inductive LaneSignal where
  /-- electrical idle -/
  | quiet
  /-- a pattern of R326 at a stage -/
  | pattern (code stage : Nat)
  /-- alignment blocks and parcels, which `LinkTx.line` holds -/
  | rotations
  deriving DecidableEq, Repr

/-- What a port's transmitter sends in its present state: the training pattern while it trains and checks, the pattern of a test
in generate mode, rotations from the align step on, and nothing while it is off or asleep (R316, R327, R328). -/
def Dev.laneSignal (d : Dev) (p : Nat) : LaneSignal :=
  let x := d.port p
  match x.tx with
  | .off => .quiet
  | .train => .pattern x.pattern x.stage
  | .align | .up => .rotations
  | .asleep => if x.txSleep.ackWait then .rotations else .quiet
  | .test => match x.test with
    | some t => .pattern t.pattern t.stage
    | none => .quiet

/-- The first n line levels of each lane of a port that sends a pattern (R306, R307, R326). -/
def Dev.patternLevels (d : Dev) (p n : Nat) : List Nat :=
  match d.laneSignal p with
  | .pattern code stage => (lineLevels stage (prbsBits code (if isPam4 stage then 2 * n else n)))
  | _ => []

/-! ### A map becomes active (R321, R324, R332) -/

/-- Ports whose role a new map changes, and ports that become or cease to be twins by its routing, leave with cause 7, before it
becomes active (R321, R480, R492). -/
def Dev.lanesBeforeMap (d : Dev) (new : Option PisteMap) : Dev :=
  (List.range 8).foldl (fun d p =>
    if portRole d.map.active p != portRole new p || (firstPort d.map.active p == p) != (firstPort new p == p) then d.leaveOnly p 7
    else d) d

/-- The lanes of a map that has become active: `LANE.SET_TX` ends, caps act, and ports that are out may start; a port
whose role no longer has a Kn lane stops receiving on it. -/
def Dev.lanesFromMap (d : Dev) : Dev :=
  let d := (List.range 32).foldl (fun d l => d.modLane l fun x => { x with override := none }) d
  let m := d.map.active
  let d := (List.range 8).foldl (fun d p =>
    if wilurRole (portRole m p) then d
    else d.modPort p fun x => { x.undelineated with knLocked := false, sentAt := none, received := LcMsg.initial }) d
  let d := d.checkRefB.capCheckAll
  (List.range 8).foldl Dev.tryStart d

/-! ### Commands (R336) -/

/-- `LANE.STATUS`. -/
def laneStatusKind : CmdKind := ⟨0x0900, false, upStates⟩

/-- The 40 bytes of `LANE.STATUS` (R336). -/
def laneStatusData (d : Dev) (p : Nat) : List Byte :=
  let x := d.port p
  leBytes 1 (portRole d.map.active p) ++ leBytes 1 (d.cap p) ++ leBytes 1 x.stage ++ leBytes 1 (b2n x.fec)
    ++ leBytes 1 x.tx.code ++ leBytes 1 x.rx.code ++ leBytes 1 (b2n x.knLocked + 2 * b2n x.delineated) ++ zeros 1
    ++ x.sent.bytes ++ x.heard.bytes

/-- LANE.STATUS has no OUT_OF_RANGE among its statuses; a port above 7 is answered so all the same (R448). -/
def laneStatusEff (port : Nat) : Effect := onDev fun _ _ d =>
  if port ≤ 7 then (d, .done .ok (laneStatusData d port)) else (d, .done .outOfRange [])

/-- LANE_STATUS. -/
def execLaneStatus (h : CmdHeader) (port : Nat) (s : State) : Host.Outcome State Fault Refusal :=
  .next (hostRun (.laneStatus h port) laneStatusKind h (laneStatusEff port) s)

/-- `LANE.COUNTERS`. -/
def laneCountersKind : CmdKind := ⟨0x0901, false, upStates⟩

/-- The 56 bytes of `LANE.COUNTERS`. -/
def LaneCounters.bytes (c : LaneCounters) : List Byte :=
  leBytes 8 c.prbsBits ++ leBytes 8 c.prbsErrors ++ leBytes 4 c.prbsSyncLoss ++ leBytes 8 c.fecCodewords
    ++ leBytes 8 c.fecCorrectedCw ++ leBytes 8 c.fecCorrectedSym ++ leBytes 8 c.fecUncorrectable ++ leBytes 4 c.lockLosses

/-- The clear flag clears the FEC counters and `lock_losses` (R326). -/
def LaneCounters.clear (c : LaneCounters) : LaneCounters :=
  { c with fecCodewords := 0, fecCorrectedCw := 0, fecCorrectedSym := 0, fecUncorrectable := 0, lockLosses := 0 }

/-- Read the counters of a lane and clear them where asked. -/
def laneCountersEff (lane : Nat) (clear : Bool) : Effect := onDev fun _ _ d =>
  if lane ≤ 31 then
    (if clear then d.modLane lane fun l => { l with counters := l.counters.clear } else d,
      .done .ok (getD d.lanes lane Lane.initial).counters.bytes)
  else (d, .done .outOfRange [])

/-- LANE_COUNTERS. -/
def execLaneCounters (h : CmdHeader) (lane : Nat) (clear : Bool) (s : State) : Host.Outcome State Fault Refusal :=
  .next (hostRun (.laneCounters h lane clear) laneCountersKind h (laneCountersEff lane clear) s)

/-- A `LANE.SLEEP` or `LANE.CLIMB` that waits holds its port (R421). -/
def LanePort.isHeld (x : LanePort) : Bool := x.txSleep.waiting.isSome || x.waiting.isSome

/-- A port command: OUT_OF_RANGE above port 7, WRONG_STATE where the role is Idle or Store (R336) or a waiting command holds the
port (R421). -/
def portCommand (port : Nat) (f : Ctx → Dev → Dev × CmdResult) : Effect := onDev fun _ c d =>
  if 7 < port then (d, .done .outOfRange [])
  else if !wilurRole (portRole d.map.active port) || (d.port port).isHeld then (d, .done .wrongState [])
  else f c d

/-- `LANE.RETRAIN`. -/
def laneRetrainKind : CmdKind := ⟨0x0902, false, workStates⟩

/-- The port leaves the chairlift with cause 1 (R321). -/
def laneRetrainEff (port : Nat) : Effect := portCommand port fun _ d => (d.leave port 1, .done .ok [])

/-- LANE_RETRAIN. -/
def execLaneRetrain (h : CmdHeader) (port : Nat) (s : State) : Host.Outcome State Fault Refusal :=
  .next (hostRun (.laneRetrain h port) laneRetrainKind h (laneRetrainEff port) s)

/-- `LANE.CLIMB`. -/
def laneClimbKind : CmdKind := ⟨0x0903, false, workStates⟩

/-- Re-entry at the lower of the two caps (R324); an uplink port waits while the other re-enters (R325). -/
def laneClimbEff (port : Nat) : Effect := portCommand port fun c d =>
  let x := d.port port
  let t := min (d.cap port) x.received.cap
  if x.step != .up || t = x.stage then (d, .done .wrongState [])
  else if d.otherReenters port then
    (d.modPort port fun x => { x with reentryDue := some (t, 4), waiting := some c }, .wait)
  else (d.reenter port t 4, .done .ok [])

/-- LANE_CLIMB. -/
def execLaneClimb (h : CmdHeader) (port : Nat) (s : State) : Host.Outcome State Fault Refusal :=
  .next (hostRun (.laneClimb h port) laneClimbKind h (laneClimbEff port) s)

/-- The states in which sleep and wake are legal. -/
def sleepStates : List DevState := [.ready, .running, .quiesce]

/-- `LANE.SLEEP`. -/
def laneSleepKind : CmdKind := ⟨0x0904, false, sleepStates⟩

/-- A wake key is none, or a legal one within its bounds (R328). -/
def Dev.keyInBounds (d : Dev) (p key : Nat) : Bool :=
  key == noWakeKey || (key % 2 ^ 32 < ticksPerSecond
    && decide (((d.globalNow + wakeLead d.map.active p : Nat) : Int) ≤ d.nearestKey key)
    && decide (d.nearestKey key ≤ ((d.globalNow + 3600 * ticksPerSecond : Nat) : Int)))

/-- The sleep begins: the episode rises and `tx_state` 4 is announced; the reply follows once the direction is asleep
(R328, R336). -/
def laneSleepEff (port wakeKey : Nat) : Effect := portCommand port fun c d =>
  let x := d.port port
  if x.step != .up || x.tx != .up then (d, .done .wrongState [])
  else if !d.keyInBounds port wakeKey then (d, .done .outOfRange [])
  else
    let w := if wakeKey = noWakeKey then none else some (d.nearestKey wakeKey).toNat
    (d.modPort port fun x => { x with
      tx := .asleep, txSleep := ⟨(x.txSleep.episode + 1) % 256, wakeKey, some c, true, false, d.sys.ticks, w, 0, false, none⟩ }, .wait)

/-- LANE_SLEEP. -/
def execLaneSleep (h : CmdHeader) (port wakeKey : Nat) (s : State) : Host.Outcome State Fault Refusal :=
  .next (hostRun (.laneSleep h port wakeKey) laneSleepKind h (laneSleepEff port wakeKey) s)

/-- `LANE.WAKE`. -/
def laneWakeKind : CmdKind := ⟨0x0905, false, sleepStates⟩

/-- Wake the own transmit direction, or ask the partner to wake the one this end receives (R331). -/
def laneWakeEff (port direction : Nat) : Effect := portCommand port fun _ d =>
  let x := d.port port
  if direction = 0 then
    if x.tx == .asleep && !x.txSleep.ackWait then (d.scheduleWake port, .done .ok []) else (d, .done .wrongState [])
  else if direction = 1 then
    if x.rx == .asleep then
      (d.modPort port fun x => { x with rxSleep := { x.rxSleep with wakeReq := true } }, .done .ok [])
    else (d, .done .wrongState [])
  else (d, .done .outOfRange [])

/-- LANE_WAKE. -/
def execLaneWake (h : CmdHeader) (port direction : Nat) (s : State) : Host.Outcome State Fault Refusal :=
  .next (hostRun (.laneWake h port direction) laneWakeKind h (laneWakeEff port direction) s)

/-- `LANE.PRBS`. -/
def lanePrbsKind : CmdKind := ⟨0x0906, false, [.standby, .ready]⟩

/-- A test begins: the port is out of the chairlift and its counters start at 0 (R326, R327). -/
def Dev.startTest (d : Dev) (p : Nat) (t : PrbsTest) : Dev :=
  let d := (d.stopPort p).modPort p fun x => { x with
    step := .test, stage := t.stage, fec := d.fecAt p t.stage, test := some t
    tx := if t.generate then .test else .off, rx := if t.check && x.knLocked then .test else .off }
  d.modLanes p fun _ l => { l with
    checker := PrbsChecker.initial, checked := 0
    counters := { l.counters with prbsBits := 0, prbsErrors := 0, prbsSyncLoss := 0 } }

/-- Start a test, or end the one that runs (R327). -/
def lanePrbsEff (port stage pattern : Nat) (generate check stop : Bool) (duration : Nat) : Effect :=
  portCommand port fun _ d =>
    if 4 < stage || 5 < pattern then (d, .done .outOfRange [])
    else if stop then
      if (d.port port).test.isNone then (d, .done .wrongState []) else (d.leave port 8, .done .ok [])
    else if d.cap port < stage || duration = 0 || 86400000 < duration then (d, .done .outOfRange [])
    else (d.startTest port ⟨stage, pattern, generate, check, d.sys.ticks + usTicks (duration * 1000)⟩, .done .ok [])

/-- LANE_PRBS. -/
def execLanePrbs (h : CmdHeader) (port stage pattern : Nat) (generate check stop : Bool) (duration : Nat) (s : State) :
    Host.Outcome State Fault Refusal :=
  .next (hostRun (.lanePrbs h port stage pattern generate check stop duration) lanePrbsKind h
    (lanePrbsEff port stage pattern generate check stop duration) s)

/-- `LANE.SET_TX`. -/
def laneSetTxKind : CmdKind := ⟨0x0907, false, workStates⟩

/-- The settings act at the lane's next train step, until the next map (R336). -/
def laneSetTxEff (lane swing pre post : Nat) : Effect := onDev fun _ _ d =>
  if lane ≤ 31 && 16 ≤ swing && swing ≤ 40 && pre ≤ 15 && post ≤ 30 then
    (d.modLane lane fun l => { l with override := some ⟨swing, pre, post⟩ }, .done .ok [])
  else (d, .done .outOfRange [])

/-- LANE_SET_TX. -/
def execLaneSetTx (h : CmdHeader) (lane swing pre post : Nat) (s : State) : Host.Outcome State Fault Refusal :=
  .next (hostRun (.laneSetTx h lane swing pre post) laneSetTxKind h (laneSetTxEff lane swing pre post) s)

end Sys2Proof.Machine
end

