-- ==== Sys2Proof/Machine/Groom.lean ====
section
/-! DEFINITION. The groomer, remapping and the integrity commands (R397 to R404, R413). -/

namespace Sys2Proof.Machine

/-! ### The groomer (R397 to R399) -/

/-- Lines of a walk: classes 0, 1 and 4, or classes 2 and 3 (R397). -/
def walkLines (w : Nat) : Nat := if w = 0 then 1572880 else 278528

/-- The class of a walk's line, and its line in that class (R397). -/
def walkLine (w line : Nat) : Nat × Nat :=
  if w = 0 then
    if line < 1048576 then (0, line) else if line < 1572864 then (1, line - 1048576) else (4, line - 1572864)
  else if line < 16384 then (2, line) else (3, line - 16384)

/-- `groom_enable` (R408). -/
def groomEnabled (m : Option PisteMap) : Bool := mapBits m 0x0060 0 (16 + 8) 1 0 0 1 == 1

/-- The groomer runs in every device state but Off and Lodge (R398). -/
def Dev.grooms (d : Dev) : Bool := d.sys.state != .off && d.sys.state != .lodge && groomEnabled d.map.active

/-- A walk. -/
def Dev.walk (d : Dev) (w : Nat) : Walk := getD d.integ.walks w ⟨0, false, 0, 0, none, 0, 0, 0⟩

/-- Change a walk. -/
def Dev.modWalk (d : Dev) (w : Nat) (f : Walk → Walk) : Dev := d.modInteg fun g => { g with walks := modAt g.walks w f }

/-- A reader reads bytes of a class under R394; how many it corrected and how many it found uncorrectable. -/
def Dev.readBytes (d : Dev) (cls reader : Nat) (addresses : List Nat) : Dev × Nat × Nat :=
  addresses.foldl (fun (x : Dev × Nat × Nat) a =>
    let (d, c) := x.1.readByte cls a reader
    (d, x.2.1 + b2n (c == .correctable), x.2.2 + b2n (c == .uncorrectable))) (d, 0, 0)

/-- Upsets of bytes that lie in a range of a class. -/
def upsetsIn (cls first n : Nat) (l : List Upset) : List Upset :=
  l.filter fun u => u.cls == cls && first ≤ u.address && u.address < first + n

/-- Milliseconds that a pass of a walk takes at a rate in KiB/s (R397). -/
def scheduledMs (w rate : Nat) : Nat := walkLines w * 64000 / (rate * 1024)

/-- A pass of so many ticks took more than 110 % of its scheduled time (R399). -/
def passLate (w rate ticks : Nat) : Bool := 11 * (walkLines w * 64 * ticksPerSecond) < 10 * (ticks * (rate * 1024))

/-- The end of a pass: event 1669, and event 1670 where it took more than 110 % of its time (R399). -/
def Dev.passEnd (d : Dev) (w : Nat) : Dev :=
  let x := d.walk w
  let took := d.sys.ticks - x.passStart
  let ms := took / 2560000
  let d := d.modWalk w fun x => { x with line := 0, passStart := d.sys.ticks, lastPass := ms, corrections := 0, uncorrectable := 0 }
  let d := d.raise 1669 0 [evNat w, evNat ms, evNat x.corrections, evNat x.uncorrectable]
  if passLate w x.rate took then d.raise 1670 0 [evNat w, evNat ms, evNat (scheduledMs w x.rate)] else d

/-- The groomer and the self-test use their next turn of segment or merge memory (R22, R44). -/
def Dev.takeGroomTurn (d : Dev) (cls line : Nat) : Dev :=
  if cls = 0 then d.takeTurn 0 2 (macroAt (64 * line)) else if cls = 1 then d.takeTurn 1 5 (macroAt (64 * line)) else d

/-- The next line of a walk is due: 64 bytes divided by its rate after the one before, to the tick (R397). -/
def Dev.lineDue (d : Dev) (w : Nat) : Bool :=
  let x := d.walk w
  match x.lineAt with
  | none => true
  | some t => 64 * ticksPerSecond < (d.sys.ticks - t + 1) * (x.rate * 1024)

/-- Self-test holds the slice of a line at this tick (R398, R526). -/
def Dev.lineHeld (d : Dev) (cls line : Nat) : Bool := d.bist.held == some (cls, line / 64, d.sys.ticks)

/-- The next line of a walk, in the groomer's turn: each of its bytes is read under R394; a line of a slice that self-test
holds is skipped (R398). -/
def Dev.groomLine (d : Dev) (w : Nat) (upsets : List Upset) : Dev :=
  let (cls, line) := walkLine w (d.walk w).line
  let held := d.lineHeld cls line
  let d := (upsetsIn cls (64 * line) 64 upsets).foldl (fun d u => d.upset cls u.address u.flips) d
  let (d, fixed, bad) := if held then (d, 0, 0)
    else (d.takeGroomTurn cls line).readBytes cls 0 ((List.range 64).map (64 * line + ·))
  let d := d.modWalk w fun x => { x with
    line := x.line + 1, lineAt := some d.sys.ticks, corrections := x.corrections + fixed, uncorrectable := x.uncorrectable + bad }
  if walkLines w ≤ (d.walk w).line then d.passEnd w else d

/-- GROOMER_LINE: the next line of a walk, once it is due, with the bits of it that have flipped since its bytes were last
read. -/
def execGroomerLine (walk : Nat) (upsets : List Upset) (s : State) : Host.Outcome State Fault Refusal :=
  .next (s.onDev fun d => if walk ≤ 1 && d.grooms && !(d.walk walk).paused && d.lineDue walk then d.groomLine walk upsets else d)

/-! ### Remapping (R403) -/

/-- The 64 bytes of a line are read under R394, and their code words are written to another line as read, poison forms kept
(R403). -/
def Dev.moveLine (d : Dev) (reader cls line toCls toLine : Nat) : Dev :=
  let (d, _) := d.readBytes cls reader ((List.range 64).map (64 * line + ·))
  let copy := fun (m : List CodeCell) (k : Nat) =>
    memWrite m (memKey toCls (64 * toLine + k)) (memRead m (memKey cls (64 * line + k)))
  d.modInteg fun g => { g with mem := (List.range 64).foldl copy g.mem }

/-- The log entries of a line say whether it is remapped (R400). -/
def Dev.markRemapped (d : Dev) (cls line : Nat) (on : Bool) : Dev :=
  let mark := fun (e : LogEntry) => if e.cls == cls && e.address / 64 == line then { e with remapped := on } else e
  d.modInteg fun g => { g with log := g.log.map (Option.map mark) }

/-- A line moves to a spare, in the groomer's turn; event 1666 (R403). -/
def Dev.remapTo (d : Dev) (cls line i : Nat) : Dev :=
  let d := (d.takeGroomTurn cls line).moveLine 0 cls line 4 i
  let d := (d.modInteg fun g => { g with remap := modAt g.remap i fun _ => ⟨1, cls, line⟩ }).markRemapped cls line true
  d.raise 1666 0 [evNat cls, evNat line, evNat i]

/-- The line of a spare that was found lasting in use moves to another spare, in the groomer's turn, or back to its own place
where none is free; the spare is retired (R403, R404). With `remap_enable` 0 it goes back as well (R408, log entry 110). -/
def Dev.moveSpare (d : Dev) (i : Nat) : Dev :=
  match d.integ.remap[i]? with
  | none => d
  | some e =>
    if e.state != 1 then d
    else
      let d := d.takeGroomTurn e.cls e.line
      let retire := fun (d : Dev) => d.modInteg fun g => { g with remap := modAt g.remap i fun x => { x with state := 2 } }
      match if remapEnabled d.map.active then freeSpare d.integ.remap.toList else none with
      | some j =>
        let d := retire (d.moveLine 0 4 i 4 j)
        (d.modInteg fun g => { g with remap := modAt g.remap j fun _ => ⟨1, e.cls, e.line⟩ }).raise 1678 0 [evNat i, evNat j]
      | none => ((retire (d.moveLine 0 4 i e.cls e.line)).markRemapped e.cls e.line false).raise 1678 0 [evNat i, evNone]

/-- The first lasting line that waits is remapped, or stays where it is with event 1667 (R403, R404). -/
def Dev.remapNext (d : Dev) : Dev :=
  match d.integ.remapDue with
  | [] => d
  | (cls, line) :: rest =>
    let d := d.modInteg fun g => { g with remapDue := rest }
    if cls = 4 then d.moveSpare line
    else if !remapEnabled d.map.active || d.integ.remap.toList.any (fun e => e.state == 1 && e.cls == cls && e.line == line) then d
    else match freeSpare d.integ.remap.toList with
      | some i => d.remapTo cls line i
      | none => d.raise 1667 0 [evNat cls, evNat line]

/-- REMAP_LINE: the turn of the groomer after a line was found lasting (R403). -/
def execRemapLine (s : State) : Host.Outcome State Fault Refusal := .next (s.onDev (·.remapNext))

/-- Lines found lasting are appended to the list in flash (R404). -/
def State.drainList (s : State) : State :=
  let due := s.dev.integ.listDue
  let s := s.onDev (·.modInteg fun g => { g with listDue := [] })
  due.foldl (fun s x => s.ownWrite (.faults (.found x.1 x.2 s.dev.now))) s

/-- The walks of a map that becomes active: its rates, neither paused (R412, R413). -/
def Dev.walksFromMap (d : Dev) : Dev :=
  let m := d.map.active
  (d.modWalk 0 fun x => { x with rate := mapNum m 0x0060 0 16 4 1639, paused := false }).modWalk 1 fun x =>
    { x with rate := mapNum m 0x0060 0 20 4 64, paused := false }

/-! ### Commands (R413) -/

/-- `INTEG.STATUS`. -/
def integStatusKind : CmdKind := ⟨0x0B00, false, bootStates⟩

/-- One walk of `INTEG.STATUS`. -/
def walkBytes (d : Dev) (w : Nat) : List Byte :=
  let x := d.walk w
  let (cls, line) := walkLine w x.line
  leBytes 4 line ++ leBytes 1 cls ++ leBytes 1 (b2n x.paused) ++ zeros 2 ++ leBytes 4 x.lastPass ++ zeros 4

/-- The subjects with a history, at most 479 of them. -/
def historyBytes (d : Dev) : List Byte :=
  let l := d.integ.histories.take 479
  leBytes 2 l.length ++ zeros 2 ++ (l.map fun h =>
    leBytes 1 h.kind ++ zeros 1 ++ leBytes 2 (d.inWindow h.kind h.times) ++ leBytes 4 h.subject).flatten

/-- The bytes of `INTEG.STATUS` (R462). -/
def integStatusData (d : Dev) : List Byte :=
  let g := d.integ
  walkBytes d 0 ++ walkBytes d 1 ++ leBytes 1 (g.log.toList.filter Option.isSome).length
    ++ leBytes 1 (g.remap.toList.filter (·.state == 1)).length ++ zeros 2
    ++ (g.memCounts.toList.map fun c => leBytes 8 c.corrections ++ leBytes 8 c.uncorrectable ++ leBytes 8 c.poison).flatten
    ++ (g.parity.toList.map (leBytes 8)).flatten ++ (g.handOver.toList.map (leBytes 8)).flatten
    ++ leBytes 8 g.poisonedCrc ++ leBytes 8 g.poisonedFlag ++ historyBytes d

/-- INTEG_STATUS. -/
def execIntegStatus (h : CmdHeader) (s : State) : Host.Outcome State Fault Refusal :=
  .next (hostRun (.integStatus h) integStatusKind h (reads integStatusData) s)

/-- `INTEG.LOG_READ`. -/
def integLogReadKind : CmdKind := ⟨0x0B01, false, upStates⟩

/-- `prev1_ms` or `prev2_ms` of an entry (R400). -/
def LogEntry.before (e : LogEntry) (k : Nat) : Nat :=
  match e.ticks.head?, e.ticks[k]? with
  | some a, some b => msBetween b a
  | _, _ => 0xFFFFFFFF

/-- The 48 bytes of an entry (R400). -/
def LogEntry.bytes (e : LogEntry) : List Byte :=
  leBytes 1 e.cls ++ leBytes 1 (b2n e.uncorrectable + 2 * b2n e.lasting + 4 * b2n e.remapped + 8 * b2n e.injected)
    ++ leBytes 2 e.count ++ leBytes 4 e.address ++ leBytes 1 (e.syndrome + 16 * b2n e.q + 32 * e.reader) ++ zeros 3
    ++ twBytes e.first_ ++ twBytes e.last ++ leBytes 4 (e.before 1) ++ leBytes 4 (e.before 2) ++ zeros 4

/-- The 32 entries; a free one reads zeros. -/
def integLogData (d : Dev) : List Byte := (d.integ.log.toList.map fun o => o.elim (zeros 48) LogEntry.bytes).flatten

/-- INTEG_LOG_READ. -/
def execIntegLogRead (h : CmdHeader) (s : State) : Host.Outcome State Fault Refusal :=
  .next (hostRun (.integLogRead h) integLogReadKind h (reads integLogData) s)

/-- `INTEG.LOG_CLEAR`. -/
def integLogClearKind : CmdKind := ⟨0x0B02, false, upStates⟩

/-- Free the entries without `lasting`, or all; the history of each address goes with its entry (R401, R407). -/
def Dev.clearLog (d : Dev) (all : Bool) : Dev :=
  let goes := fun (e : LogEntry) => all || !e.lasting
  let d := d.integ.log.toList.foldl (fun d o =>
    match o with
    | some e => if goes e then d.clearHistory 0 (memKey e.cls e.address) else d
    | none => d) d
  d.modInteg fun g => { g with log := g.log.map fun o => o.filter fun e => !goes e }

/-- INTEG_LOG_CLEAR. -/
def execIntegLogClear (h : CmdHeader) (all : Bool) (s : State) : Host.Outcome State Fault Refusal :=
  .next (hostRun (.integLogClear h all) integLogClearKind h (onDev fun _ _ d => (d.clearLog all, .done .ok [])) s)

/-- `INTEG.REMAP_READ`. -/
def integRemapReadKind : CmdKind := ⟨0x0B03, false, upStates⟩

/-- The 16 entries of R402. -/
def remapData (d : Dev) : List Byte :=
  (d.integ.remap.toList.map fun e => leBytes 1 e.state ++ leBytes 1 e.cls ++ zeros 2 ++ leBytes 4 e.line).flatten

/-- INTEG_REMAP_READ. -/
def execIntegRemapRead (h : CmdHeader) (s : State) : Host.Outcome State Fault Refusal :=
  .next (hostRun (.integRemapRead h) integRemapReadKind h (reads remapData) s)

/-- `INTEG.GROOM`. -/
def integGroomKind : CmdKind := ⟨0x0B04, false, upStates⟩

/-- Pause, resume, set the rate of or restart a walk (R413, R462). -/
def integGroomEff (walk action rate : Nat) : Effect := onDev fun _ _ d =>
  if 1 < walk || 3 < action || (action == 2 && (rate < 1 || 65536 < rate)) then (d, .done .outOfRange [])
  else
    let f : Walk → Walk := fun x =>
      if action = 0 then { x with paused := true } else if action = 1 then { x with paused := false }
      else if action = 2 then { x with rate := rate }
      else { x with line := 0, passStart := d.sys.ticks, corrections := 0, uncorrectable := 0 }
    (d.modWalk walk f, .done .ok [])

/-- INTEG_GROOM. -/
def execIntegGroom (h : CmdHeader) (walk action rate : Nat) (s : State) : Host.Outcome State Fault Refusal :=
  .next (hostRun (.integGroom h walk action rate) integGroomKind h (integGroomEff walk action rate) s)

/-- `INTEG.INJECT`. -/
def integInjectKind : CmdKind := ⟨0x0B05, false, [.ready, .running]⟩

/-- The operands name a target that exists (R462). -/
def injectLegal (target subject mode bitA bitB address tile : Nat) : Bool :=
  mode ≤ 2 && bitA ≤ 12 && bitB ≤ 12 && match target with
  | 0 => address < classBytes subject && (mode != 1 || bitA != bitB)
  | 1 => subject ≤ 3 && (!(subject == 1 || subject == 3) || tile ≤ 63)
  | 2 => subject ≤ 7
  | _ => false

/-- The stored word of a byte is damaged: one or two bits flip, or it takes its poison form (R413). -/
def Dev.injectByte (d : Dev) (cls address mode bitA bitB : Nat) : Dev :=
  let (c, a) := d.remapped cls address
  let k := memKey c a
  let damage := fun (w : Nat) =>
    if mode = 2 then poisonWord (w % 256) else w ^^^ 2 ^ bitA ^^^ (if mode = 1 then 2 ^ bitB else 0)
  let w := damage (memRead d.integ.mem k)
  d.modInteg fun g => { g with
    mem := memWrite g.mem k w, injected := if wordClass w == .good then g.injected.erase k else k :: g.injected.erase k }

/-- Damage one target (R413). -/
def integInjectEff (target subject mode bitA bitB address tile : Nat) : Effect := onDev fun _ _ d =>
  if mapBits d.map.active 0x0060 0 (16 + 8) 1 2 2 0 != 1 then (d, .done .locked [])
  else if !injectLegal target subject mode bitA bitB address tile then (d, .done .outOfRange [])
  else if target == 2 && (d.port subject).step != .up then (d, .done .wrongState [])
  else
    let d := match target with
      | 0 => d.injectByte subject address mode bitA bitB
      | 1 => d.modInteg fun g => { g with
          crossingInjects := g.crossingInjects ++ [(subject, if subject == 1 || subject == 3 then tile else 0)] }
      | _ => d.modInteg fun g => { g with portInjects := g.portInjects ++ [subject] }
    (d.raise 1679 0 [evNat target, evNat subject, if target = 0 then evNat address else evNone], .done .ok [])

/-- INTEG_INJECT. -/
def execIntegInject (h : CmdHeader) (target subject mode bitA bitB address tile : Nat) (s : State) :
    Host.Outcome State Fault Refusal :=
  .next (hostRun (.integInject h target subject mode bitA bitB address tile) integInjectKind h
    (integInjectEff target subject mode bitA bitB address tile) s)

end Sys2Proof.Machine
end

