-- ==== Sys2Proof/Machine/Bist.lean ====
section
/-! DEFINITION. Self-test of the memories, soft repair and the fuse bank (R524 to R534). -/

namespace Sys2Proof.Machine

/-- Slices of a class (R524). -/
def sliceCount (cls : Nat) : Nat := classBytes cls / 4096

/-- Change the self-test state. -/
def Dev.modBist (d : Dev) (f : BistState → BistState) : Dev := { d with bist := f d.bist }

/-- `repair_enable` (R534). -/
def repairEnabled (m : Option PisteMap) : Bool := mapBits m 0x0068 0 16 1 5 5 1 == 1

/-- `class_mask` (R534). -/
def classMask (m : Option PisteMap) : Nat := mapBits m 0x0068 0 16 1 3 0 0xF

/-- The macro and the row of a line: 16 lines to a row of 1 KiB, 1,024 rows to a macro (R529). -/
def rowOf (line : Nat) : Nat × Nat := (line / 16384, line / 16 % 1024)

/-! ### Fuses and soft repairs (R529 to R532) -/

/-- The repair that a valid fuse entry records (R531). -/
def fuseRepair (n : Nat) : Option SoftRepair :=
  if bit n 31 then some ⟨bits n 1 0, bits n 7 2, bits n 17 8, bits n 20 18⟩ else none

/-- The fuse entry of a repair (R531). -/
def fuseOf (r : SoftRepair) : Nat := r.cls + 4 * r.macro_ + 2 ^ 8 * r.row + 2 ^ 18 * r.spare + 2 ^ 31

/-- The repairs of the valid fuse entries, in index order. -/
def BistState.fused (b : BistState) : List SoftRepair := b.fuses.toList.filterMap fuseRepair

/-- Some repair covers a row. -/
def covers (l : List SoftRepair) (cls mac row : Nat) : Bool := l.any fun r => r.cls == cls && r.macro_ == mac && r.row == row

/-- The soft repairs of a list that no later one of the same row replaces. -/
def latestRepairs : List SoftRepair → List SoftRepair
  | [] => []
  | r :: l => if covers l r.cls r.macro_ r.row then latestRepairs l else r :: latestRepairs l

/-- The soft repairs in use (R529, R532). -/
def BistState.inUse (b : BistState) : List SoftRepair := latestRepairs b.repairs

/-- A free spare row of a macro, the lowest (R529). -/
def BistState.freeRow (b : BistState) (cls mac : Nat) : Option Nat :=
  (List.range 8).find? fun k => !((b.repairs ++ b.fused).any fun r => r.cls == cls && r.macro_ == mac && r.spare == k)

/-- Remapped lines of a repaired row return to their own addresses, and their entries become free (R529). -/
def Dev.returnLines (d : Dev) (cls mac row : Nat) : Dev :=
  (List.range 16).foldl (fun d i =>
    match d.integ.remap[i]? with
    | none => d
    | some e =>
      if e.state == 1 && e.cls == cls && rowOf e.line == (mac, row) then
        ((d.moveLine 7 4 i cls e.line).modInteg fun g => { g with remap := modAt g.remap i fun _ => ⟨0, 0, 0⟩ }).markRemapped
          cls e.line false
      else d) d

/-- Soft repair of a row: a free spare row of its macro, event 1901; event 1902 where none is free. The second part says
that it was made (R529). -/
def Dev.softRepair (d : Dev) (cls mac row : Nat) : Dev × Bool :=
  match d.bist.freeRow cls mac with
  | some k =>
    let d := d.modBist fun b => { b with repairs := b.repairs ++ [⟨cls, mac, row, k⟩] }
    ((d.returnLines cls mac row).raise 1901 0 [evNat cls, evNat mac, evNat row, evNat k], true)
  | none => (d.raise 1902 0 [evNat cls, evNat mac], false)

/-- The lasting-fault list once the changes that wait have been written. -/
def State.listAhead (s : State) : List FaultEntry :=
  s.dev.fw.own.foldl (fun l w => match w with | .faults c => (c.apply l).getD l | _ => l) (faultList s.flash)

/-- Change the flags of the listed lines of a row (R533). -/
def State.flagRow (s : State) (cls mac row : Nat) (f : FaultEntry → FaultEntry) : State :=
  (s.listAhead.filter fun e => e.cls == cls && rowOf e.line == (mac, row) && f e != e).foldl (fun s e =>
    s.ownWrite (.faults (.flags e.cls e.line (f e).soft (f e).fused (f e).unrepairable))) s

/-- Soft repair of a row with what the list says of its lines. -/
def State.repairRow (s : State) (cls mac row : Nat) : State × Bool :=
  let (d, made) := s.dev.softRepair cls mac row
  let s : State := { s with dev := d }
  (s.flagRow cls mac row fun e => if made then { e with soft := true, unrepairable := false } else { e with unrepairable := true },
    made)

/-- Boot: every valid fuse entry applies, and the row of every listed line that is not fused is soft-repaired (R530). -/
def State.bootRepairs (s : State) : State :=
  (faultList s.flash).foldl (fun s e =>
    let (mac, row) := rowOf e.line
    if 3 < e.cls || e.fused || covers (s.dev.bist.repairs ++ s.dev.bist.fused) e.cls mac row then s
    else (s.repairRow e.cls mac row).1) s

/-! ### Slices (R524 to R527) -/

/-- Why a slice cannot be tested: 0 VCORE, 1 a level change, 2 loop unlock (R525, R539). -/
def Dev.skipCause (d : Dev) (vcoreOk : Bool) : Option Nat :=
  if !vcoreOk then some 0 else if d.pwr.seq.isSome then some 1 else if !d.time.locked then some 2 else none

/-- The addresses of a slice whose words are listed, or whose lines are remapped: the others read good. -/
def Dev.sliceAddresses (d : Dev) (cls slice : Nat) : List Nat :=
  let first := 4096 * slice
  let listed := (d.integ.mem.filter fun c => memKey cls first ≤ c.at_ && c.at_ < memKey cls (first + 4096)).map
    fun c => c.at_ - memKey cls 0
  let moved := (d.integ.remap.toList.filter fun e => e.state == 1 && e.cls == cls && e.line / 64 == slice).flatMap
    fun e => (List.range 64).map (64 * e.line + ·)
  listed ++ moved.filter fun a => !listed.contains a

/-- Every line that holds a failing cell is handled as an address found lasting (R527). -/
def State.listCells (s : State) (cls slice : Nat) (cells : List CellReads) (unrepairable : Bool) : State :=
  let lines := (cells.map fun c => (4096 * slice + c.offset) / 64).eraseDups
  let s := (s.onDev fun d => lines.foldl (fun d l => d.lastingAddress cls (64 * l)) d).drainList
  if unrepairable then
    lines.foldl (fun s l => s.flagRow cls (rowOf l).1 (rowOf l).2 fun e => { e with unrepairable := true }) s
  else s

/-- The rows of a slice's failing cells: macro and row. -/
def cellRows (slice : Nat) (cells : List CellReads) : List (Nat × Nat) :=
  (cells.map fun c => rowOf ((4096 * slice + c.offset) / 64)).eraseDups

/-- The rows of a list are repaired in turn; those that no spare row was free for are given back (R527, R529). -/
def State.repairRows (s : State) (cls : Nat) (rows : List (Nat × Nat)) : State × List (Nat × Nat) :=
  rows.foldl (fun x r => if (x.1.repairRow cls r.1 r.2).2 then ((x.1.repairRow cls r.1 r.2).1, x.2)
    else ((x.1.repairRow cls r.1 r.2).1, r :: x.2)) (s, [])

/-- A slice that fails is repaired row by row and, where some row was, tested again; the lines of the rows that could not be
repaired, and those that fail again, are handled as lasting (R527). -/
def State.mendSlice (s : State) (cls slice : Nat) (cells again : List CellReads) : State :=
  if !repairEnabled s.dev.map.active then s.listCells cls slice cells false
  else
    let rows := cellRows slice cells
    let x := s.repairRows cls rows
    let kept := cells.filter fun c => (cellRows slice [c]).any fun r => x.2.contains r
    let bad := kept ++ if x.2.length < rows.length then again else []
    if bad.isEmpty then x.1 else x.1.listCells cls slice bad true

/-- What a good cell answers to the reads of March C−, by the bit of the background it holds (R526). -/
def marchReads (b : Bool) : List Bool := [b, !b, b, !b, b]

/-- What a good cell of a bit of the code word answers in steps 2 and 3: backgrounds 0 and 0b1_0101_0101_0101 (R526). -/
def goodReads (b : Nat) : List Bool := marchReads false ++ marchReads (bit 0x1555 b)

/-- A cell fails: some read differs from the expected bit (R526). -/
def cellFails (c : CellReads) : Bool := (c.reads.zip (goodReads c.bit_)).any fun x => x.1 != x.2

/-- The failing cells of a slice, among those that exist (R526). -/
def failingCells (l : List CellReads) : List CellReads := l.filter fun c => c.offset < 4096 && c.bit_ ≤ 12 && cellFails c

/-- A slice is tested (R526): its words pass through the holding copy, and the March tests find failing cells. -/
def State.testSlice (s : State) (cls slice : Nat) (upsets : List Upset) (first again : List CellReads) : State :=
  let s := s.onDev fun d =>
    let d := (upsetsIn cls (4096 * slice) 4096 upsets).foldl (fun d u => d.upset cls u.address u.flips) d
    ((d.takeGroomTurn cls (64 * slice)).readBytes cls 7 (d.sliceAddresses cls slice)).1
  match failingCells first with
  | [] => s
  | c :: cs =>
    let row := (rowOf ((4096 * slice + c.offset) / 64)).2
    (s.onDev (·.raiseLimited 1900 0 cls [evNat cls, evNat slice, evNat row, evNat c.bit_])).mendSlice cls slice (c :: cs)
      (failingCells again)

/-- The next slice of a class: of the `BIST.RUN` on it, or of its scheduled walk. -/
def Dev.nextSlice (d : Dev) (cls : Nat) : Option Nat :=
  match d.bist.run with
  | some r => if r.cls == cls then some r.slice else if bit (classMask d.map.active) cls then some (getD d.bist.walks cls 0) else none
  | none => if bit (classMask d.map.active) cls then some (getD d.bist.walks cls 0) else none

/-- The walk or the run moves on; a run that has tested its last slice is answered (R524). -/
def Dev.sliceDone (d : Dev) (cls : Nat) (ok bad skip : Nat) : Dev :=
  let up := fun (n k : Nat) => (n + k) % 2 ^ 64
  let d := d.modBist fun b => { b with
    tested := up b.tested (ok + bad), failed := up b.failed bad, skipped := up b.skipped skip }
  match d.bist.run with
  | some r =>
    if r.cls == cls then
      let r := { r with slice := r.slice + 1, passed := r.passed + ok, failed := r.failed + bad, skipped := r.skipped + skip }
      if r.slice ≤ r.last then d.modBist fun b => { b with run := some r }
      else (d.modBist fun b => { b with run := none }).finish r.ctx .ok
        (leBytes 2 r.passed ++ leBytes 2 r.failed ++ leBytes 2 r.skipped ++ zeros 2)
    else d.modBist fun b => { b with walks := modAt b.walks cls fun n => (n + 1) % sliceCount cls }
  | none => d.modBist fun b => { b with walks := modAt b.walks cls fun n => (n + 1) % sliceCount cls }

/-- `slice_rate` (R534). -/
def sliceRate (m : Option PisteMap) : Nat := mapNum m 0x0068 0 18 2 16

/-- The next slice of a class is due: one is tested per 1 / `slice_rate` s, and a `BIST.RUN` starts at once (R524). -/
def Dev.sliceDue (d : Dev) (cls : Nat) : Bool :=
  match getD d.bist.sliceAt cls none with
  | none => true
  | some t => ticksPerSecond ≤ (d.sys.ticks - t) * sliceRate d.map.active

/-- The states in which self-test runs: those that have left Boot. -/
def Dev.selfTests (d : Dev) : Bool := d.sys.state != .off && d.sys.state != .lodge && d.sys.state != .boot

/-- BIST_SLICE: the next slice of a class, once it is due: whether VCORE stays within 3 % of its value, the bits that have
flipped in the slice, and what cells of it answer to the March tests before and after a repair; a cell that is not listed
answers as a good one. -/
def execBistSlice (cls : Nat) (vcoreOk : Bool) (upsets : List Upset) (first again : List CellReads) (s : State) :
    Host.Outcome State Fault Refusal :=
  .next (match s.dev.nextSlice cls with
    | none => s
    | some slice =>
      if 3 < cls || !s.dev.selfTests || !s.dev.sliceDue cls then s
      else
        let s := s.onDev fun d => d.modBist fun b => { b with
          sliceAt := modAt b.sliceAt cls fun _ => some d.sys.ticks }
        match s.dev.skipCause vcoreOk with
        | some c => s.onDev fun d => (d.raiseLimited 1905 0 c [evNat cls, evNat c]).sliceDone cls 0 0 1
        | none =>
          let bad := b2n (!(failingCells first).isEmpty)
          let s := s.onDev fun d => d.modBist fun b => { b with held := some (cls, slice, d.sys.ticks) }
          (s.testSlice cls slice upsets first again).onDev (·.sliceDone cls (1 - bad) bad 0))

/-! ### Commands (R541) -/

/-- `BIST.RUN`. -/
def bistRunKind : CmdKind := ⟨0x0D10, false, workStates⟩

/-- Test a range of slices; answered on completion (R524). -/
def bistRunEff (cls firstSlice lastSlice : Nat) : Effect := onDev fun _ c d =>
  if d.bist.run.isSome then (d, .done .busy [])
  else if 3 < cls || lastSlice < firstSlice || sliceCount cls ≤ lastSlice then (d, .done .outOfRange [])
  else (d.modBist fun b => { b with
    run := some ⟨c, cls, firstSlice, lastSlice, 0, 0, 0⟩, sliceAt := modAt b.sliceAt cls fun _ => none }, .wait)

/-- BIST_RUN. -/
def execBistRun (h : CmdHeader) (cls firstSlice lastSlice : Nat) (s : State) : Host.Outcome State Fault Refusal :=
  .next (hostRun (.bistRun h cls firstSlice lastSlice) bistRunKind h (bistRunEff cls firstSlice lastSlice) s)

/-- `BIST.STATUS`. -/
def bistStatusKind : CmdKind := ⟨0x0D11, false, bootStates⟩

/-- Entries of the fuse bank in use: those that are not all 0 (R531, R532). -/
def BistState.fusesUsed (b : BistState) : Nat := (b.fuses.toList.filter (· != 0)).length

/-- The 32 bytes of `BIST.STATUS` (R462). -/
def bistStatusData (d : Dev) : List Byte :=
  leBytes 8 d.bist.tested ++ leBytes 8 d.bist.failed ++ leBytes 8 d.bist.skipped ++ leBytes 2 d.bist.inUse.length
    ++ leBytes 2 d.bist.fusesUsed ++ zeros 4

/-- BIST_STATUS. -/
def execBistStatus (h : CmdHeader) (s : State) : Host.Outcome State Fault Refusal :=
  .next (hostRun (.bistStatus h) bistStatusKind h (reads bistStatusData) s)

/-- `BIST.FUSE`. -/
def bistFuseKind : CmdKind := ⟨0x0D12, false, [.standby]⟩

/-- Program entries into the free places of the bank, in index order. -/
def programFuses (fuses : List Nat) (entries : List Nat) : List Nat :=
  match fuses, entries with
  | f, [] => f
  | [], _ => []
  | n :: f, e :: es => if n = 0 then e :: programFuses f es else n :: programFuses f (e :: es)

/-- One entry for every soft repair that no valid entry records; none where the free entries do not suffice (R532). -/
def bistFuseEff : Effect := fun _ s =>
  let b := s.dev.bist
  let todo := b.inUse.filter fun r => !b.fused.contains r
  let free := 256 - b.fusesUsed
  if free < todo.length then (s, .done .outOfRange [])
  else
    let l := programFuses b.fuses.toList (todo.map fuseOf)
    let fuses : Vector Nat 256 := Vector.ofFn fun i => l[i.val]?.getD 0
    let s := s.onDev fun d => (d.modBist fun b => { b with fuses := fuses }).raise 1903 0
      [evNat todo.length, evNat (free - todo.length)]
    (todo.foldl (fun s r => s.flagRow r.cls r.macro_ r.row fun e => { e with fused := true }) s,
      .done .ok (leBytes 2 todo.length ++ leBytes 2 (free - todo.length)))

/-- BIST_FUSE. -/
def execBistFuse (h : CmdHeader) (s : State) : Host.Outcome State Fault Refusal :=
  .next (hostRun (.bistFuse h) bistFuseKind h bistFuseEff s)

end Sys2Proof.Machine
end

