-- ==== Sys2Proof/Machine/Slalom.lean ====
section
/-! DEFINITION. Slalom: primitives, courses, candidates, key memories, arm authority and BUSY (R184 to R213). -/

namespace Sys2Proof.Machine

/-- Change Slalom. -/
def Dev.modSlalom (d : Dev) (f : SlalomState → SlalomState) : Dev := { d with slalom := f d.slalom }

/-! ### Primitives (R186, R187, R192) -/

/-- The mask of a patch of a pattern at a tick (R192). -/
def Dev.patchMask (d : Dev) (k patch tick : Nat) : Nat :=
  ((List.range 16).map fun i =>
    let p := mapNum d.map.active 0x0031 k (8208 + 32 * patch + 2 * i) 2 0xFFFF
    if p == 0xFFFF then 0 else b2n (d.litAt d.map.active p tick) * 2 ^ i).sum

/-- A neighbour pattern is true at a tick (R192). -/
def Dev.patternAt (d : Dev) (k tick : Nat) : Bool :=
  (List.range (mapCount d.map.active 0x0031 k)).any fun p =>
    let m := d.patchMask k p tick
    bit (mapNum d.map.active 0x0031 k (16 + m / 8) 1 0) (m % 8)

/-- The level of an external trigger input at a tick since Boot, by the stamps of its edges (R185, R187); low before the
first. -/
def Dev.xtAt (d : Dev) (xt k : Nat) : Bool := ((getD d.slalom.xt xt []).find? fun x => x.1 ≤ k).any (·.2)

/-- An input word is true at a tick (R187). -/
def Dev.inputAt (d : Dev) (w tick : Nat) : Bool :=
  let index := bits w 27 16
  let param := bits w 15 0
  match bits w 31 28 with
  | 1 => d.litAt d.map.active index tick
  | 2 => param ≤ d.litCount d.map.active index tick
  | 3 => param ≤ ((List.range 64).map fun n => d.litCount d.map.active n tick).sum
  | 4 => d.patternAt index tick
  | 5 => d.xtAt index tick
  | 6 => d.slalom.partnerFires.any fun f => (index == 16 || f.1 == index) && f.2 ≤ tick && tick < f.2 + param
  | _ => false

/-! ### Courses (R188 to R191) -/

/-- A field of a course's entry (R191). -/
def courseField (m : Option PisteMap) (c off n dflt : Nat) : Nat := mapNum m 0x0030 0 (16 + 656 * c + off) n dflt

/-- A field of a gate of a course. -/
def gateField (m : Option PisteMap) (c g off n dflt : Nat) : Nat := courseField m c (16 + 40 * g + off) n dflt

/-- `enable` of a course. -/
def courseEnabled (m : Option PisteMap) (c : Nat) : Bool := bit (courseField m c 2 1 0) 0

/-- The condition of a gate at a tick (R189). -/
def Dev.gateCondition (d : Dev) (c g tick : Nat) : Bool :=
  let i := ((List.range 4).map fun j => b2n (d.inputAt (gateField d.map.active c g (4 * j) 4 0) tick) * 2 ^ j).sum
  bit (gateField d.map.active c g 16 2 0) i

/-- The veto of a gate at a tick. -/
def Dev.gateVeto (d : Dev) (c g tick : Nat) : Bool := d.inputAt (gateField d.map.active c g 20 4 0) tick

/-- A course is stepped: Running, enabled and armed (R188). -/
def Dev.courseSteps (d : Dev) (c : Nat) (x : Course) : Bool :=
  d.sys.state == .running && courseEnabled d.map.active c && x.armed

/-- Change a course. -/
def Dev.modCourse (d : Dev) (c : Nat) (f : Course → Course) : Dev :=
  d.modSlalom fun s => { s with courses := modAt s.courses c f }

/-- Enter a gate at a tick (R189): its timer and counter start afresh. -/
def Course.enter (x : Course) (g tick : Nat) : Course := { x with gate := g, entry := tick, n := 0, timeout := false }

/-- The gate's condition rises at a tick: true at it and false at the tick before (R189). -/
def Dev.gateRises (d : Dev) (c g tick : Nat) : Bool := d.gateCondition c g tick && !d.gateCondition c g (tick - 1)

/-- The gate's `t_max` has passed at the present tick (R189). -/
def Dev.timeoutNow (d : Dev) (c : Nat) (x : Course) : Bool :=
  let t := gateField d.map.active c x.gate 28 4 0
  t != 0 && d.sys.ticks == x.entry + t

/-- The step of a course at the present tick (R189): the first of veto, counted rise and timeout that applies. The second
part says that it completes. -/
def Dev.stepCourse (d : Dev) (c : Nat) (x : Course) : Course × Bool :=
  let now := d.sys.ticks
  let f := fun off n => gateField d.map.active c x.gate off n 0
  if !d.courseSteps c x || now ≤ x.entry then (x, false)
  else if d.gateVeto c x.gate now then (x.enter (f 33 1) now, false)
  else if x.entry + f 24 4 ≤ now && d.gateRises c x.gate now then
    if x.n + 1 = f 18 2 then
      if f 32 1 = 16 then (x.enter 0 now, true) else (x.enter (f 32 1) now, false)
    else ({ x with n := x.n + 1, timeout := false }, false)
  else if x.timeout && d.timeoutNow c x then (x.enter (f 33 1) now, false)
  else (x, false)

/-! ### Key memories (R194) -/

/-- The tick at which a key leaves its memory: 10 ms after the end of its coalescing window (R194). -/
def keyLeaves (w : Nat) (t : TimeWord) : Nat :=
  t.seconds * ticksPerSecond + min (t.tick / w * w + w) ticksPerSecond + usTicks 10000

/-- Enter a key into a memory of 64; the oldest makes room (R194). -/
def enterKey (l : List KeyEntry) (k : KeyEntry) : List KeyEntry := (l ++ [k]).drop (l.length + 1 - 64)

/-- A memory holds the key of a fire time now; each key in it keeps the coalescing window it was formed under (R208). -/
def Dev.holdsKey (d : Dev) (l : List KeyEntry) (t : TimeWord) : Bool :=
  l.any fun k => k.key == eventKey k.window t && d.globalNow < k.leaves

/-- Keys whose time has come leave both memories. -/
def Dev.expireKeys (d : Dev) : Dev :=
  d.modSlalom fun s => { s with
    accepted := s.accepted.filter (d.globalNow < ·.leaves), sent := s.sent.filter (d.globalNow < ·.leaves) }

/-- KEY_EXPIRE. -/
def execKeyExpire (s : State) : Host.Outcome State Fault Refusal := .next (s.onDev (·.expireKeys))

/-- The event key of a candidate formed at the present tick, or of a fire message received at it (R11): a change of `coalesce`
applies by the formation tick (R208). -/
def Dev.keyOf (d : Dev) (t : TimeWord) : Nat := eventKey (coalesce d.map.active) t

/-- The entry of that key. -/
def Dev.keyEntry (d : Dev) (t : TimeWord) : KeyEntry :=
  ⟨d.keyOf t, coalesce d.map.active, keyLeaves (coalesce d.map.active) t⟩

/-- A key enters the sent memory. -/
def Dev.rememberSent (d : Dev) (t : TimeWord) : Dev := d.modSlalom fun s => { s with sent := enterKey s.sent (d.keyEntry t) }

/-! ### Candidates (R193 to R196) -/

/-- How a candidate is decided (R195), in the order of the causes of `SLALOM.FIRE` (R458). -/
inductive Decision where
  | accepted | merged | rearm | cap | busyHold | notArmed
  deriving DecidableEq, Repr

/-- The cause code of `SLALOM.FIRE` (R458). -/
def Decision.code : Decision → Nat
  | .accepted => 0 | .merged => 1 | .rearm => 2 | .cap => 3 | .busyHold => 4 | .notArmed => 5

/-- The busy hold refuses candidates (R195, R204). -/
def Dev.holdsBusy (d : Dev) : Bool := armFireBit d.map.active 2 1 && !d.slalom.busySet.isEmpty

/-- Decide a candidate (R195). -/
def Dev.decide (d : Dev) (course : Nat) (t : TimeWord) : Decision :=
  if d.holdsKey d.slalom.accepted t then .merged
  else if !(d.slalom.courses[course]?).any (·.armed) then .notArmed
  else if d.slalom.fires.any fun f => f ≤ t.globalTick + 511 && t.globalTick ≤ f + 511 then .rearm
  else if d.pwr.level != 3 && d.pwr.fireTokens = 0 then .cap
  else if d.holdsBusy then .busyHold
  else .accepted

/-- Count a decision (R213, R241). -/
def Dev.countDecision (d : Dev) (course : Nat) (x : Decision) : Dev :=
  let up := fun n => (n + 1) % 2 ^ 64
  let d := d.modSlalom fun s => { s with counters := modAt s.counters course fun c =>
    match x with
    | .accepted => { c with accepted := up c.accepted } | .merged => { c with merged := up c.merged }
    | .notArmed => { c with notArmed := up c.notArmed } | .rearm => { c with rearm := up c.rearm }
    | .cap => { c with cap := up c.cap } | .busyHold => { c with busyHold := up c.busyHold } }
  d.modAcqCounters fun c =>
    match x with
    | .rearm => { c with refusedRearm := up c.refusedRearm } | .cap => { c with refusedCap := up c.refusedCap }
    | .busyHold => { c with refusedBusy := up c.refusedBusy } | _ => c

/-- Ticks of a span list that lie in a half-open interval of ticks since Boot. -/
def ticksIn (l : List Span) (a b : Nat) : Nat :=
  (l.map fun s => (match s.stop with | none => b | some e => min e b) - max s.start a).sum

/-- Take an interval out of a span list. -/
def cutSpans (l : List Span) (a b : Nat) : List Span :=
  l.flatMap fun s =>
    let stop := match s.stop with | none => none | some e => some e
    let left := if s.start < a then [⟨s.start, some (match stop with | none => a | some e => min e a)⟩] else []
    let right := match stop with
      | none => [⟨max s.start b, none⟩]
      | some e => if b < e then [⟨max s.start b, some e⟩] else []
    right ++ left

/-- Ticks between the fire tick and the acceptance that were counted as live are counted as dead instead (R241). -/
def Dev.reclassify (d : Dev) (fire : Int) : Dev :=
  let a := fire.toNat
  let b := min d.sys.ticks (fire + 512).toNat
  if b ≤ a then d
  else
    let n := ticksIn d.acq.liveSpans a b
    let d := { d with acq := { d.acq with deadTotal := d.acq.deadTotal + n, liveSpans := cutSpans d.acq.liveSpans a b } }
    d.modAcqCounters fun c => { c with deadTicks := (c.deadTicks + n) % 2 ^ 64 }

/-- FO goes high for 64 ticks (R205). -/
def Dev.pulseFo (d : Dev) : Dev :=
  if armFireBit d.map.active 3 1 then d.modSlalom fun s => { s with foEnds := some (d.sys.ticks + 64) } else d

/-- The FIRE message of a local candidate (R196, R205, R357). -/
def Dev.sendFire (d : Dev) (course : Nat) (t : TimeWord) : Dev :=
  if bit (courseField d.map.active course 2 1 0) 1 && !d.holdsKey d.slalom.sent t then
    ((d.rememberSent t).originate (.fire (fireId d.map.active) course (t.globalTick % 2 ^ 35)) (d.keyOf t)).pulseFo
  else d

/-- The steps of an accepted candidate (R196, R504). -/
def Dev.acceptCandidate (d : Dev) (course : Nat) (t : TimeWord) (followed : Bool) : Dev :=
  let fire : Int := (t.globalTick : Int) - d.globalNow + d.sys.ticks
  let d := d.modSlalom fun s => { s with
    accepted := enterKey s.accepted (d.keyEntry t)
    fires := t.globalTick :: s.fires.filter fun f => d.globalNow ≤ f + 2 ^ 36 }
  let d := if d.pwr.level != 3 then { d with pwr := { d.pwr with fireTokens := d.pwr.fireTokens - 1 } } else d
  let d := (d.reclassify fire).giveOrder course t (d.keyOf t) followed
  if followed then d else (d.measureLatency 2 course).sendFire course t

/-- A candidate is decided, counted and, where accepted, served (R195, R196). -/
def Dev.candidate (d : Dev) (course : Nat) (t : TimeWord) (followed : Bool) : Dev :=
  let x := d.decide course t
  let d := d.countDecision course x
  if x = .accepted then d.acceptCandidate course t followed else d

/-- A course completes and forms a local candidate with the present tick as its fire tick (R190). -/
def Dev.complete (d : Dev) (c : Nat) : Dev :=
  (d.modSlalom fun s => { s with counters := modAt s.counters c fun x => { x with completions := (x.completions + 1) % 2 ^ 64 } }).candidate
    c d.now false

/-- The candidate that `SLALOM.FIRE` asked for is decided, and its command answered (R213, R458). -/
def Dev.decideAsked (d : Dev) (a : Ctx × Nat) : Dev :=
  let x := d.decide a.2 d.now
  let data := leBytes 6 (d.keyOf d.now) ++ leBytes 1 x.code ++ zeros 1
  ((d.holdEvents.candidate a.2 d.now false).finish a.1 (if x = .accepted then .ok else .busy) data).releaseEvents

/-- One course at the present tick: its step, and the candidates of it, its own completion and those asked for (R188,
R213). -/
def Dev.runCourse (d : Dev) (step : Nat → Course × Bool) (c : Nat) : Dev :=
  let (x, done) := step c
  let d := d.modCourse c fun _ => { x with timeout := false }
  let d := if done then d.complete c else d
  (d.slalom.asked.filter (·.2 == c)).foldl Dev.decideAsked d

/-! ### Arming (R200 to R202) -/

/-- Apply an ARM or DISARM now: each course of the mask enters gate 0 (R201); event 1248 or 1249. -/
def Dev.applyArm (d : Dev) (a : ArmAction) : Dev :=
  let now := d.sys.ticks
  let set : Nat → Course → Course := fun c x => if bit a.mask c then { x.enter 0 now with armed := a.arm } else x
  let d := d.modSlalom fun s => { s with courses := s.courses.mapIdx set }
  d.raise (if a.arm then 1248 else 1249) 0
    [evNat a.mask, .time (TimeWord.ofGlobalTick a.at_), evNat (d.globalNow - a.at_)]

/-- Insert an action in the order of its tick. -/
def insertArm (l : List ArmAction) (a : ArmAction) : List ArmAction :=
  (l.takeWhile fun x => x.at_ ≤ a.at_) ++ a :: l.dropWhile fun x => x.at_ ≤ a.at_

/-- Apply every action whose tick has come, in the order of the ticks (R201, R212). -/
def Dev.applyDueArms (d : Dev) : Dev :=
  let due := d.slalom.pendingArms.filter (·.at_ ≤ d.globalNow)
  due.foldl Dev.applyArm (d.modSlalom fun s => { s with pendingArms := s.pendingArms.filter (d.globalNow < ·.at_) })

/-- ARM_APPLY. -/
def execArmApply (s : State) : Host.Outcome State Fault Refusal := .next (s.onDev (·.applyDueArms))

/-- Slalom at the end of a tick (R188, R193): due arms apply first (R201), then every course takes its step of the tick
from the primitives as functions of the tick, and the candidates are decided: local ones in the order of their courses,
then followed ones, of which two of one course go in the order of their reception (DESIGN CHOICE, log entry 107: R193 gives no
order between them). -/
def Dev.slalomTick (d : Dev) : Dev :=
  let d := d.applyDueArms
  let steps := d.slalom.courses.mapIdx fun c x => d.stepCourse c x
  let d := (List.range 16).foldl (fun d c => d.runCourse (fun c => getD steps c (⟨0, 0, 0, false, false⟩, false)) c) d
  let late := (List.range 16).flatMap fun c => d.slalom.followed.filter (·.1 == c)
  let d := late.foldl (fun d f => d.candidate f.1 f.2 true) d
  d.modSlalom fun s => { s with hurt := false, asked := [], followed := [] }

/-- The armed mask is cleared and pending arms are discarded (R202). -/
def Dev.clearArmed (d : Dev) : Dev :=
  d.modSlalom fun s => { s with
    pendingArms := [], courses := s.courses.map fun x => { x.enter 0 d.sys.ticks with armed := false } }

/-- The arm tick of the authority: `arm_lead` ahead, rounded up to a multiple of 128 ticks (R200). -/
def Dev.armTick (d : Dev) : Nat := ceilDiv (d.globalNow + mapNum d.map.active 0x0032 0 24 4 25600) 128 * 128

/-- The authority originates an ARM or DISARM and applies it itself at T (R200). -/
def Dev.authorityArm (d : Dev) (arm : Bool) (mask : Nat) : Dev :=
  let t := d.armTick
  let seq := (d.slalom.armSeq + 1) % 256
  let d := d.modSlalom fun s => { s with
    armSeq := seq, pendingArms := insertArm s.pendingArms ⟨arm, mask, t⟩
    knownArms := (!arm, seq, d.sys.ticks) :: s.knownArms.filter fun k => d.sys.ticks < k.2.2 + ticksPerSecond }
  d.originate (.arm (!arm) seq mask (t % ticksPerSecond / 128)) 0

/-! ### Input edges -/

/-- The front end takes a rising trigger edge away (R69, R74, R81, R87, R517): the pixel is out of use or masked at the tick of
the stamp, the tick lies in the 6 samples of a gain change, or the threshold silences it. A falling edge ends the lit time
wherever it lies (R184). -/
def Dev.triggerTaken (d : Dev) (p stamp : Nat) (rising : Bool) : Bool :=
  rising && (!pixelEnabled d.map.active p || d.maskedAt p stamp
    || (match d.pixelFe p with | none => true | some f => inSpans f.rangeSpans stamp)
    || silentCode (d.thresholdsNow p).trigger)

/-- A trigger episode can still light its pixel at one of the last 32,768 ticks (R184). -/
def Lit.recent (e : Lit) (now : Nat) : Bool :=
  now < e.rise + 32768 + 255 || (match e.cut, e.fall with | some c, _ => decide (now < c + 32768) | none, none => true | none, some f => decide (now < f + 32768))

/-- A trigger edge is stamped with the tick in which it entered the fabric less the pixel's factory delay, and changes the
pixel's episodes (R184, R185). -/
def Dev.triggerEdge (d : Dev) (p : Nat) (rising : Bool) (entry : Nat) : Dev :=
  let stamp := entry - (Config.triggerDelay p).toNat
  if d.triggerTaken p stamp rising then d
  else
    let change := fun (l : List Lit) =>
      if rising then ⟨stamp, none, none⟩ :: l.filter (·.recent d.sys.ticks)
      else l.map fun e => if e.fall.isNone then { e with fall := some stamp } else e
    d.modSlalom fun s => { s with lit := modAt s.lit p change }

/-- TRIGGER_EDGE: trigger edges as pixels with a direction and their tick of entry. Courses step at the end of the tick
(R188), so each edge is given no later than the tick of its stamp. The upsets are those of table words that Slalom reads at this
tick; a damaged entry poisons the candidates of the tick (R59). The log has no reader code for Slalom: 6 stands for it (DESIGN
CHOICE, log entry 61). -/
def execTriggerEdge (edges : TriggerEdges) (s : State) : Host.Outcome State Fault Refusal :=
  .next (s.onDev fun d =>
    let (d, bad) := d.readUpsets 6 edges.upsets
    let d := d.modSlalom fun s => { s with hurt := s.hurt || bad }
    edges.edges.foldl (fun d e => d.triggerEdge e.pixel e.rising e.entry) d)

/-- PIXEL_STRETCH_END: the least lit time of a pixel ends (R184); whether the pixel is lit follows from the tick, and
episodes that no window can reach any more are forgotten. -/
def execPixelStretchEnd (pixel : Nat) (s : State) : Host.Outcome State Fault Refusal :=
  .next (s.onDev fun d => d.modSlalom fun s => { s with lit := modAt s.lit pixel (List.filter (·.recent d.sys.ticks)) })

/-- GATE_TIMEOUT: `t_max` of a course's gate has passed at this tick; the course's step at the end of the tick takes the
timeout unless a veto or a pass comes first (R189). -/
def execGateTimeout (course : Nat) (s : State) : Host.Outcome State Fault Refusal :=
  .next (s.onDev fun d => d.modCourse course fun x => { x with timeout := d.timeoutNow course x })

/-- PARTNER_FIRE_WINDOW_END: a partner-fire input turns false (R187); fires that no param can reach any more are
forgotten. -/
def execPartnerFireWindowEnd (s : State) : Host.Outcome State Fault Refusal :=
  .next (s.onDev fun d => d.modSlalom fun s =>
    { s with partnerFires := s.partnerFires.filter fun f => d.sys.ticks < f.2 + 65536 })

/-! ### Messages received (R193, R198 to R204) -/

/-- Received messages are acted on and relayed in Ready, Running and Quiesce (R198). -/
def Dev.relays (d : Dev) : Bool := d.sys.state == .ready || d.sys.state == .running || d.sys.state == .quiesce

/-- The fire tick a FIRE message carries: the largest count at or before now with those low 35 bits (R357). -/
def Dev.fireTick (d : Dev) (g : Nat) : Nat := d.globalNow - (d.globalNow + 2 ^ 35 - g % 2 ^ 35) % 2 ^ 35

/-- The lowest-numbered course that follows a partner's course (R193). -/
def followingCourse (m : Option PisteMap) (c : Nat) : Option Nat :=
  (List.range 16).find? fun i => bit (courseField m i 4 2 0) c

/-- A FIRE message (R193, R198): a copy dies; a new one enters the sent memory, is relayed, turns partner-fire inputs
true and, in Running, may form a followed candidate, which is decided at the end of the tick. -/
def Dev.fireMessage (d : Dev) (l : Nat) (m : Schuss) : Dev :=
  match m with
  | .fire _ course g =>
    let t := TimeWord.ofGlobalTick (d.fireTick g)
    if !d.relays || d.holdsKey d.slalom.sent t then d
    else
      let d := (d.rememberSent t).relay m (d.keyOf t) l
      let d := d.modSlalom fun s => { s with partnerFires := (course, d.sys.ticks) :: s.partnerFires }
      match followingCourse d.map.active course with
      | some c =>
        if d.sys.state == .running then d.modSlalom fun s => { s with followed := s.followed ++ [(c, t)] } else d
      | none => d
  | _ => d

/-- FIRE_MESSAGE: the 64 bits received on a lane. -/
def execFireMessage (lane received : Nat) (s : State) : Host.Outcome State Fault Refusal :=
  .next (s.onDev fun d => d.schussReceive lane received fun d m => d.fireMessage lane m)

/-- The occurrence of a tick T of the second that lies nearest now (R201). -/
def Dev.nearestTick (d : Dev) (t : Nat) : Nat :=
  let here := d.time.seconds * ticksPerSecond + t
  if d.globalNow + ticksPerSecond / 2 < here then here - ticksPerSecond
  else if here + ticksPerSecond / 2 < d.globalNow then here + ticksPerSecond
  else here

/-- An ARM or DISARM message (R198, R200, R201). -/
def Dev.armMessage (d : Dev) (l : Nat) (m : Schuss) : Dev :=
  match m with
  | .arm dis seq mask t128 =>
    if !d.relays then d
    else if armFireBit d.map.active 0 0 then d.raise 1250 0 [evNat l, evNat seq]
    else if d.slalom.knownArms.any fun k => k.1 == dis && k.2.1 == seq && d.sys.ticks < k.2.2 + ticksPerSecond then d
    else
      let d := d.modSlalom fun s => { s with
        armSeq := seq
        knownArms := (dis, seq, d.sys.ticks) :: s.knownArms.filter fun k => d.sys.ticks < k.2.2 + ticksPerSecond }
      let d := d.relay m 0 l
      let a : ArmAction := ⟨!dis, mask, d.nearestTick (t128 * 128)⟩
      if a.at_ ≤ d.globalNow then d.applyDueArms.applyArm a
      else d.modSlalom fun s => { s with pendingArms := insertArm s.pendingArms a }
  | _ => d

/-- ARM_MESSAGE: the 64 bits received on a lane. -/
def execArmMessage (lane received : Nat) (s : State) : Host.Outcome State Fault Refusal :=
  .next (s.onDev fun d => d.schussReceive lane received fun d m => d.armMessage lane m)

/-- DISARM_MESSAGE: the 64 bits received on a lane. -/
def execDisarmMessage (lane received : Nat) (s : State) : Host.Outcome State Fault Refusal :=
  .next (s.onDev fun d => d.schussReceive lane received fun d m => d.armMessage lane m)

/-- An origin leaves the partner busy set for a cause (R204): 0 message, 1 expiry. -/
def Dev.leaveBusy (d : Dev) (id cause : Nat) : Dev :=
  if d.slalom.busySet.any (·.fireId == id) then
    let d := (d.modSlalom fun s => { s with busySet := s.busySet.filter (·.fireId != id) }).raise 1253 0
      [evNat id, evNat 1, evNat cause]
    if d.slalom.busySet.isEmpty then d.raise 1255 0 [evNat ((d.sys.ticks - d.slalom.busySince) / 2560)] else d
  else d

/-- A BUSY set adds its origin to the partner busy set, or renews it (R204). -/
def Dev.joinBusy (d : Dev) (id : Nat) : Dev :=
  let entry : BusyEntry := ⟨id, d.sys.ticks⟩
  if d.slalom.busySet.any (·.fireId == id) then
    d.modSlalom fun s => { s with busySet := s.busySet.map fun b => if b.fireId == id then entry else b }
  else
    let first := d.slalom.busySet.isEmpty
    let d := d.modSlalom fun s => { s with
      busySet := s.busySet.filter (·.fireId < id) ++ entry :: s.busySet.filter (id < ·.fireId)
      busySince := if first then d.sys.ticks else s.busySince }
    let d := d.raise 1253 0 [evNat id, evNat 0, evNat 0]
    if first then d.raise 1254 0 [evNat id] else d

/-- A BUSY message (R198, R204); the module's own does not enter its set. -/
def Dev.busyMessage (d : Dev) (l : Nat) (m : Schuss) : Dev :=
  match m with
  | .busy id set seq =>
    if !d.relays || d.slalom.knownBusy.any fun k => k.1 == id && k.2.1 == seq && d.sys.ticks < k.2.2 + usTicks 1000 then d
    else
      let d := d.modSlalom fun s => { s with
        knownBusy := (id, seq, d.sys.ticks) :: s.knownBusy.filter fun k => d.sys.ticks < k.2.2 + usTicks 1000 }
      let d := d.relay m 0 l
      if id == fireId d.map.active then d else if set then d.joinBusy id else d.leaveBusy id 0
  | _ => d

/-- BUSY_MESSAGE: the 64 bits received on a lane. -/
def execBusyMessage (lane received : Nat) (s : State) : Host.Outcome State Fault Refusal :=
  .next (s.onDev fun d => d.schussReceive lane received fun d m => d.busyMessage lane m)

/-- BUSY_REPEAT: while the busy condition holds, a BUSY set follows every `busy_repeat` (R203). -/
def execBusyRepeat (s : State) : Host.Outcome State Fault Refusal :=
  .next (s.onDev fun d =>
    match d.acq.busySince, d.slalom.busySent with
    | some _, some t =>
      if t + usTicks (mapNum d.map.active 0x0032 0 30 2 10) ≤ d.sys.ticks then d.sendBusy true else d
    | _, _ => d)

/-- Origins leave the set `busy_expire` after their latest BUSY set (R204). -/
def Dev.expireBusy (d : Dev) : Dev :=
  (d.slalom.busySet.filter fun b => b.since + usTicks (mapNum d.map.active 0x0032 0 32 2 25) ≤ d.sys.ticks).foldl
    (fun d b => d.leaveBusy b.fireId 1) d

/-- BUSY_EXPIRE. -/
def execBusyExpire (s : State) : Host.Outcome State Fault Refusal := .next (s.onDev (·.expireBusy))

/-! ### A map becomes active (R202) -/

/-- Every course enters gate 0 at the present tick under the new course table; the armed mask stays. -/
def Dev.slalomFromMap (d : Dev) : Dev :=
  d.modSlalom fun s => { s with courses := s.courses.map fun x => x.enter 0 d.sys.ticks }

/-! ### Commands (R213) -/

/-- `SLALOM.STATUS`. -/
def slalomStatusKind : CmdKind := ⟨0x0500, false, upStates⟩

/-- The armed mask. -/
def Dev.armedMask (d : Dev) : Nat :=
  ((List.range 16).map fun c => b2n ((d.slalom.courses[c]?).any (·.armed)) * 2 ^ c).sum

/-- The bytes of `SLALOM.STATUS` (R458). -/
def slalomStatusData (d : Dev) : List Byte :=
  let s := d.slalom
  leBytes 2 d.armedMask ++ leBytes 1 (b2n (armFireBit d.map.active 0 0)) ++ leBytes 1 s.armSeq
    ++ (s.courses.toList.map fun x => leBytes 1 x.gate ++ zeros 1 ++ leBytes 2 x.n).flatten
    ++ leBytes 1 (s.accepted.filter (d.globalNow < ·.leaves)).length ++ leBytes 1 (s.sent.filter (d.globalNow < ·.leaves)).length
    ++ (d.schuss.toList.map fun l => leBytes 1 (l.fires.length + l.others.length)).flatten
    ++ leBytes 2 s.busySet.length ++ ((s.busySet.take 2010).map fun b => leBytes 2 b.fireId).flatten

/-- SLALOM_STATUS. -/
def execSlalomStatus (h : CmdHeader) (s : State) : Host.Outcome State Fault Refusal :=
  .next (hostRun (.slalomStatus h) slalomStatusKind h (reads slalomStatusData) s)

/-- `SLALOM.ARM`. -/
def slalomArmKind : CmdKind := ⟨0x0501, true, [.ready, .running]⟩

/-- ARM or DISARM on the authority; WRONG_STATE on any other module (R200). -/
def armEff (arm : Bool) (mask : Nat) : Effect := onDev fun _ _ d =>
  if armFireBit d.map.active 0 0 then
    (d.authorityArm arm mask, .done .ok (timeWord16 (TimeWord.ofGlobalTick d.armTick)))
  else (d, .done .wrongState [])

/-- SLALOM_ARM. -/
def execSlalomArm (h : CmdHeader) (mask : Nat) (s : State) : Host.Outcome State Fault Refusal :=
  .next (hostRun (.slalomArm h mask) slalomArmKind h (armEff true mask) s)

/-- `SLALOM.DISARM`. -/
def slalomDisarmKind : CmdKind := ⟨0x0502, true, [.ready, .running]⟩

/-- SLALOM_DISARM. -/
def execSlalomDisarm (h : CmdHeader) (mask : Nat) (s : State) : Host.Outcome State Fault Refusal :=
  .next (hostRun (.slalomDisarm h mask) slalomDisarmKind h (armEff false mask) s)

/-- `SLALOM.FIRE`. -/
def slalomFireKind : CmdKind := ⟨0x0503, true, [.running]⟩

/-- A local candidate of a named course with the fire tick of its execution (R213, R458), decided and answered with the
other candidates of the tick, in their order (R193). -/
def slalomFireEff (course : Nat) : Effect := onDev fun _ c d =>
  if 15 < course then (d, .done .outOfRange [])
  else
    let d := d.applyDueArms
    if !courseEnabled d.map.active course || !(d.slalom.courses[course]?).any (·.armed) then (d, .done .wrongState [])
    else (d.modSlalom fun s => { s with asked := s.asked ++ [(c, course)] }, .wait)

/-- SLALOM_FIRE. -/
def execSlalomFire (h : CmdHeader) (course : Nat) (s : State) : Host.Outcome State Fault Refusal :=
  .next (hostRun (.slalomFire h course) slalomFireKind h (slalomFireEff course) s)

/-- `SLALOM.COUNTERS`. -/
def slalomCountersKind : CmdKind := ⟨0x0504, false, upStates⟩

/-- The 992 bytes of `SLALOM.COUNTERS` (R458). -/
def slalomCountersData (d : Dev) : List Byte :=
  (d.slalom.counters.toList.map fun c =>
    ([c.completions, c.accepted, c.merged, c.notArmed, c.rearm, c.cap, c.busyHold].map (leBytes 8)).flatten).flatten
  ++ (d.schuss.toList.map fun l => leBytes 8 l.slalomSent ++ leBytes 8 l.slalomRelayed ++ leBytes 8 l.slalomDropped).flatten

/-- The counters of `SLALOM.COUNTERS` at 0. -/
def Dev.clearSlalomCounters (d : Dev) : Dev :=
  { d.modSlalom fun s => { s with counters := fill 16 ⟨0, 0, 0, 0, 0, 0, 0⟩ } with
    schuss := d.schuss.map fun l => { l with slalomSent := 0, slalomRelayed := 0, slalomDropped := 0 } }

/-- Read the counters and clear them where asked (R451). -/
def slalomCountersEff (clear : Bool) : Effect := onDev fun _ _ d =>
  (if clear then d.clearSlalomCounters else d, .done .ok (slalomCountersData d))

/-- SLALOM_COUNTERS. -/
def execSlalomCounters (h : CmdHeader) (clear : Bool) (s : State) : Host.Outcome State Fault Refusal :=
  .next (hostRun (.slalomCounters h clear) slalomCountersKind h (slalomCountersEff clear) s)

end Sys2Proof.Machine
end

