-- ==== Sys2Proof/Machine/FeCommands.lean ====
section
/-! DEFINITION. The commands of the front end (R98) and what happens in it. -/

namespace Sys2Proof.Machine

/-! ### Status (R98, R457) -/

/-- `FE.STATUS`. -/
def feStatusKind : CmdKind := ⟨0x0200, false, upStates⟩

/-- The 16-byte pixel entry of `FE.STATUS` (R457); the gain waiting is free where none waits. -/
def fePixelEntry (d : Dev) (p : Nat) : List Byte :=
  match d.pixelFe p with
  | none => []
  | some f =>
    let thr := d.thresholdsNow p
    leBytes 2 p
      ++ leBytes 1 (f.gain + 8 * b2n f.waiting.isSome + 16 * (match f.waiting with | none => Config.unstated 5 d.free % 8 | some w => w.gain)
        + 128 * b2n f.isOpen)
      ++ leBytes 1 f.trim ++ leBytes 2 thr.timing ++ leBytes 2 thr.trigger ++ leBytes 4 f.clampCount ++ zeros 4

/-- The gate state of a tile: 0 on, 1 off, 2 pulse, 3 source (R457). Where several hold, the lowest of them is reported
(DESIGN CHOICE, log entry 12: the spec does not rank them). -/
def TileFe.gateCode (t : TileFe) : Nat := if t.commandOff then 1 else if t.pulseEnds.isSome then 2 else if t.sourceOff then 3 else 0

/-- The measured bias of a tile: MON's latest value of its output (R98, R113, R119); free while there is none. -/
def Dev.biasReading (d : Dev) (n : Nat) : Nat := (d.latestValue (128 + n)).getD (Config.measuredBias n d.free).toNat

/-- The 16-byte tile entry of `FE.STATUS` (R457). The current of one tile is free: MON measures four tiles together
(R113). -/
def feTileEntry (d : Dev) (n : Nat) : List Byte :=
  match d.tileFe n with
  | none => []
  | some t =>
    leBytes 2 n ++ leBytes 1 t.gateCode ++ zeros 1 ++ leBytes 4 (d.biasReading n)
      ++ leBytes 4 (Config.measuredCurrent n d.free).toNat ++ leBytes 4 (d.tileTemperature n d.sys.ticks)

/-- Pixel entries for `start` 0 to 1,023, tile entries from 1,024 on, OUT_OF_RANGE beyond 1,087 (R457). -/
def feStatusEff (start : Nat) : Effect := onDev fun _ _ d =>
  if start < 1024 then ({ d with free := d.free + 1 }, .done .ok (page start 1024 16 (fePixelEntry d)))
  else if start ≤ 1087 then
    ({ d with free := d.free + 1 }, .done .ok (leBytes 2 start ++ (page (start - 1024) 64 16 (feTileEntry d)).drop 2))
  else (d, .done .outOfRange [])

/-- FE_STATUS. -/
def execFeStatus (h : CmdHeader) (start : Nat) (s : State) : Host.Outcome State Fault Refusal :=
  .next (hostRun (.feStatus h start) feStatusKind h (feStatusEff start) s)

/-! ### Settings -/

/-- `FE.SET_GAIN`. -/
def feSetGainKind : CmdKind := ⟨0x0201, true, [.ready, .running]⟩

/-- A gain change falls due now on a range of pixels: OK where it takes effect at once for every one, else
REFUSED_BOUNDARY (R87, R98, R449). -/
def feSetGainEff (first last gain : Nat) (immediate : Bool) : Effect := onDev fun _ _ d =>
  if pixelRange first last && gain ≤ 7 then
    let (d, waits) := d.requestGains ⟨first, last⟩ gain immediate
    (d, .done (if waits then .refusedBoundary else .ok) [])
  else (d, .done .outOfRange [])

/-- FE_SET_GAIN. -/
def execFeSetGain (h : CmdHeader) (first last gain : Nat) (immediate : Bool) (s : State) :
    Host.Outcome State Fault Refusal :=
  .next (hostRun (.feSetGain h first last gain immediate) feSetGainKind h (feSetGainEff first last gain immediate) s)

/-- `FE.SET_THRESHOLD`. -/
def feSetThresholdKind : CmdKind := ⟨0x0202, true, [.ready, .running]⟩

/-- What `FE.SET_THRESHOLD` sets: the gain step, and each value where its bit asks for it (R457). -/
structure ThresholdChange where
  step : Nat
  timing : Option Nat
  trigger : Option Nat
  /-- both hystereses -/
  hyst : Option (Nat × Nat)
  deriving DecidableEq, Repr

/-- Change one pixel's thresholds. -/
def PixelFe.setThreshold (f : PixelFe) (c : ThresholdChange) : PixelFe :=
  let change := fun (x : Thresholds) => { x with timing := c.timing.getD x.timing, trigger := c.trigger.getD x.trigger }
  let hyst := c.hyst.getD (f.hystTiming, f.hystTrigger)
  { f with thresholds := modAt f.thresholds c.step change, hystTiming := hyst.1, hystTrigger := hyst.2 }

/-- Change the thresholds of a range of pixels. -/
def Dev.setThresholds (d : Dev) (r : Range) (c : ThresholdChange) : Dev := d.modPixels r fun _ f => f.setThreshold c

/-- The parameters of `FE.SET_THRESHOLD` as a change. -/
def thresholdChange (gainStep : Nat) (setTiming setTrigger setHyst : Bool) (thrTiming thrTrigger hystTiming hystTrigger : Nat) :
    ThresholdChange :=
  ⟨gainStep, if setTiming then some (thrTiming % 1024) else none, if setTrigger then some (thrTrigger % 1024) else none,
    if setHyst then some (hystTiming, hystTrigger) else none⟩

/-- A change within its ranges (R457). The threshold codes are the ten bits of R76, whose reserved bits [15:10] are ignored
in a packet (R13, R446), so each of them is in range. The order of the two thresholds is a check at load alone (R76, R95): a
change may leave a timing threshold at or above the trigger threshold (DEDUCED, log entry 12). -/
def ThresholdChange.legal (c : ThresholdChange) : Bool := c.step ≤ 7

/-- Thresholds of a range apply at the next boundary (R98). -/
def feSetThresholdEff (i : Instr) (first last : Nat) (c : ThresholdChange) : Effect := onDev fun _ _ d =>
  if pixelRange first last && c.legal then atBoundary i d else (d, .done .outOfRange [])

/-- FE_SET_THRESHOLD. -/
def execFeSetThreshold (h : CmdHeader) (first last gainStep : Nat) (setTiming setTrigger setHyst : Bool)
    (thrTiming thrTrigger hystTiming hystTrigger : Nat) (s : State) : Host.Outcome State Fault Refusal :=
  let i := Instr.feSetThreshold h first last gainStep setTiming setTrigger setHyst thrTiming thrTrigger hystTiming hystTrigger
  .next (hostRun i feSetThresholdKind h (feSetThresholdEff i first last
    (thresholdChange gainStep setTiming setTrigger setHyst thrTiming thrTrigger hystTiming hystTrigger)) s)

/-- `FE.SET_BIAS`. -/
def feSetBiasKind : CmdKind := ⟨0x0203, true, [.ready, .running, .quiesce]⟩

/-- V_tile of a range of tiles starts to ramp (R78). -/
def Dev.setBiases (d : Dev) (r : Range) (v : Nat) : Dev :=
  (List.range 64).foldl (fun d n => if r.has n then d.setBias n v else d) d

/-- V_tile is 0 or 20.00 V to 72.00 V (R77). -/
def feSetBiasEff (i : Instr) (first last vSet : Nat) : Effect := onDev fun _ _ d =>
  if tileRange first last && (vSet == 0 || (2000 ≤ vSet && vSet ≤ 7200)) then atBoundary i d
  else (d, .done .outOfRange [])

/-- FE_SET_BIAS. -/
def execFeSetBias (h : CmdHeader) (firstTile lastTile vSet : Nat) (s : State) : Host.Outcome State Fault Refusal :=
  .next (hostRun (.feSetBias h firstTile lastTile vSet) feSetBiasKind h
    (feSetBiasEff (.feSetBias h firstTile lastTile vSet) firstTile lastTile vSet) s)

/-- `FE.SET_TRIM`. -/
def feSetTrimKind : CmdKind := ⟨0x0204, true, [.ready, .running, .quiesce]⟩

/-- V_trim of a range of pixels changes (R78). -/
def Dev.setTrims (d : Dev) (r : Range) (v : Nat) : Dev :=
  (List.range 1024).foldl (fun d p => if r.has p then d.setTrim p v else d) d

/-- V_trim starts to change at the next boundary (R78). -/
def feSetTrimEff (i : Instr) (first last : Nat) : Effect := onDev fun _ _ d =>
  if pixelRange first last then atBoundary i d else (d, .done .outOfRange [])

/-- FE_SET_TRIM. -/
def execFeSetTrim (h : CmdHeader) (first last trim : Nat) (s : State) : Host.Outcome State Fault Refusal :=
  .next (hostRun (.feSetTrim h first last trim) feSetTrimKind h (feSetTrimEff (.feSetTrim h first last trim) first last) s)

/-- `FE.GATE`. -/
def feGateKind : CmdKind := ⟨0x0205, true, [.ready, .running]⟩

/-- What `FE.GATE` does to a tile: 0 sets it on, 1 sets it off, 2 gates it off for a pulse (R80, R98). A pulse under
way runs to its own end. -/
def TileFe.gate (t : TileFe) (now action len : Nat) : TileFe :=
  if action = 0 then { t with commandOff := false }
  else if action = 1 then { t with commandOff := true }
  else { t with pulseEnds := some (max (now + len) (t.pulseEnds.getD 0)) }

/-- Set, clear or pulse the gate of a range of tiles. -/
def Dev.gateTiles (d : Dev) (r : Range) (action len : Nat) : Dev :=
  (List.range 64).foldl (fun d n =>
    if r.has n then d.gateTile n fun t => t.gate d.sys.ticks action len else d) d

/-- `pulse_len` is 1 to 2,560,000,000 for a pulse and 0 otherwise (R457). The gate changes at the next tick (R98). -/
def feGateEff (i : Instr) (first last action len : Nat) : Effect := onDev fun _ _ d =>
  if tileRange first last && action ≤ 2 && (if action = 2 then 1 ≤ len && len ≤ 2560000000 else len == 0) then
    (d.atNextTick i, .done .ok [])
  else (d, .done .outOfRange [])

/-- FE_GATE. -/
def execFeGate (h : CmdHeader) (firstTile lastTile action pulseLen : Nat) (s : State) : Host.Outcome State Fault Refusal :=
  let i := Instr.feGate h firstTile lastTile action pulseLen
  .next (hostRun i feGateKind h (feGateEff i firstTile lastTile action pulseLen) s)

/-- `FE.OPEN_CHECK`. -/
def feOpenCheckKind : CmdKind := ⟨0x0206, false, [.ready, .running, .quiesce]⟩

/-- An open-input check falls due on a range of tiles (R68, R70). -/
def Dev.requestChecks (d : Dev) (r : Range) : Dev :=
  (List.range 64).foldl (fun d n => if r.has n then d.requestCheck n else d) d

/-- Ask for a check; findings arrive as events (R457). -/
def feOpenCheckEff (first last : Nat) : Effect := onDev fun _ _ d =>
  if tileRange first last then (d.requestChecks ⟨first, last⟩, .done .ok []) else (d, .done .outOfRange [])

/-- FE_OPEN_CHECK. -/
def execFeOpenCheck (h : CmdHeader) (firstTile lastTile : Nat) (s : State) : Host.Outcome State Fault Refusal :=
  .next (hostRun (.feOpenCheck h firstTile lastTile) feOpenCheckKind h (feOpenCheckEff firstTile lastTile) s)

/-! ### What happens by itself -/

/-- Levels of an external trigger input that can still matter: those of the last 32,768 ticks and the one before them. -/
def recentLevels (now : Nat) (l : List (Nat × Bool)) : List (Nat × Bool) :=
  l.take ((l.takeWhile fun x => now < x.1 + 32768).length + 1)

/-- An external trigger input takes a level: a primitive input of Slalom, stamped with the tick in which the edge entered
the fabric less the input's factory delay (R185), and a gate source of tiles (R80). -/
def Dev.xtEdge (d : Dev) (xt : Nat) (level : Bool) (entry : Nat) : Dev :=
  let stamp := entry - (Config.xtDelay xt).toNat
  let d := { d with slalom := { d.slalom with xt := modAt d.slalom.xt xt fun l => (stamp, level) :: recentLevels d.sys.ticks l } }
  (List.range 64).foldl (fun d n =>
    if mapNum d.map.active 0x0013 0 (16 + 32 * n + 1) 1 0 == 2 + xt then d.updateSource n else d) d

/-- XT_EDGE: the input, its new level, and the tick since Boot in which the edge entered the fabric. -/
def execXtEdge (xt : Nat) (level : XtLevel) (s : State) : Host.Outcome State Fault Refusal :=
  .next (s.onDev (·.xtEdge xt level.high level.entry))

/-- BIAS_RAMP_DONE. -/
def execBiasRampDone (tile : Nat) (s : State) : Host.Outcome State Fault Refusal :=
  .next (s.onDev (·.biasRampDone tile))

/-- OPEN_CHECK_DUE. -/
def execOpenCheckDue (tile : Nat) (s : State) : Host.Outcome State Fault Refusal :=
  .next (s.onDev (·.checkDue tile))

/-- OPEN_CHECK_COMPARE: the tile, and bit i set where the input of its pixel i is above +1.0 V (R68). -/
def execOpenCheckCompare (tile above : Nat) (s : State) : Host.Outcome State Fault Refusal :=
  .next (s.onDev (·.checkCompare tile above))

/-- OPEN_CHECK_END. -/
def execOpenCheckEnd (tile : Nat) (s : State) : Host.Outcome State Fault Refusal :=
  .next (s.onDev (·.checkEnd tile))

/-- GATE_PERIOD_EDGE: an interval of a periodic gate source starts or ends (R80). -/
def execGatePeriodEdge (tile : Nat) (s : State) : Host.Outcome State Fault Refusal :=
  .next (s.onDev (·.updateSource tile))

/-- GATED_FLAG_END. -/
def execGatedFlagEnd (tile : Nat) (s : State) : Host.Outcome State Fault Refusal :=
  .next (s.onDev (·.gatedFlagEnd tile))

/-- GATE_PULSE_END. -/
def execGatePulseEnd (tile : Nat) (s : State) : Host.Outcome State Fault Refusal :=
  .next (s.onDev (·.gatePulseEnd tile))

/-- GAIN_SCHEDULE_DUE. -/
def execGainScheduleDue (s : State) : Host.Outcome State Fault Refusal :=
  .next (s.onDev (·.gainScheduleDue))

/-- GAIN_CHANGE_APPLY: a sample boundary at which a waiting change may take effect (R87, R88). -/
def execGainChangeApply (pixel : Nat) (s : State) : Host.Outcome State Fault Refusal :=
  .next (s.onDev (·.gainApplyDue pixel))

/-- GAIN_DEFER_TIMEOUT. -/
def execGainDeferTimeout (pixel : Nat) (s : State) : Host.Outcome State Fault Refusal :=
  .next (s.onDev (·.gainDeferTimeout pixel))

/-- The sixth range-transition sample of a change ends at the present boundary (R87). -/
def Dev.transitionEnds (d : Dev) (p : Nat) : Bool :=
  !d.inTransition p && (match d.pixelFe p with | none => false | some f => f.rangeSpans.any (·.stop == some d.sys.ticks))

/-- The timing edge that R87 gives at the end of a range transition: E is 128 × k (R174), and no word comes of it in
a slot or while the pixel is masked (R167). -/
def Dev.rangeTimingEdge (d : Dev) (p : Nat) : Dev :=
  if !pixelEnabled d.map.active p then d
  else if d.pixelMasked p || (d.tdcPixel p).any (·.slot) then d.modTdc p fun t => { t with lostRise := true }
  else (d.loseFalling p).modTdc p fun t => { t with pulse := some ⟨128 * (d.globalNow : Int), true, false, d.frameStart⟩, lostRise := false }

/-- The end of the sixth sample of a change: a discriminator whose input is above its new threshold gives a rising edge
that carries the range-transition flag (R87), unless its threshold silences it (R74). Such an edge of the trigger
discriminator lights nothing (R184), so only the timing discriminator's is acted on. -/
def Dev.rangeTransitionEnd (d : Dev) (p : Nat) (timing : Bool) : Dev :=
  if d.transitionEnds p && timing && !silentCode (d.thresholdsNow p).timing then d.rangeTimingEdge p else d

/-- RANGE_TRANSITION_END: the pixel, and which of its discriminators find their input above the new threshold. -/
def execRangeTransitionEnd (pixel : Nat) (timing _trigger : Bool) (s : State) : Host.Outcome State Fault Refusal :=
  .next (s.onDev (·.rangeTransitionEnd pixel timing))

/-- The clamp of a pixel starts or stops conducting: the samples up to the 64th after it stops are clamp-touched
(R65), and each start counts and may raise its event (R96). -/
def Dev.clampConducts (d : Dev) (p : Nat) (conducts : Bool) : Dev :=
  match d.pixelFe p with
  | none => d
  | some f =>
    let on := f.clampSpans.any (·.stop.isNone)
    if conducts == on then d
    else if conducts then
      let n := (f.clampCount + 1) % 2 ^ 32
      let d := d.modPixel p fun f => { f with clampSpans := openSpan d.sys.ticks f.clampSpans, clampCount := n }
      d.raiseLimited p 0 0 [evNat p, .time d.now, evNat n]
    else d.modPixel p fun f => { f with clampSpans := closeSpan (d.sys.ticks + 64) f.clampSpans }

/-- CLAMP_CONDUCTS: the pixel, and whether its clamp starts or stops conducting (R64). -/
def execClampConducts (pixel : Nat) (conducts : Bool) (s : State) : Host.Outcome State Fault Refusal :=
  .next (s.onDev (·.clampConducts pixel conducts))

/-- V_tile in volts as a binary32. -/
def volts (v : Nat) : Nat := f32OfFrac v 100

/-- A generator that has been in current limit for 100 ms switches itself off: its output is off until `FE.SET_BIAS`
names the tile or a map becomes active (R500, R96). A ramp ends with it, and a check that waited for the ramp starts
(R70). -/
def Dev.currentLimitOff (d : Dev) (n : Nat) : Dev :=
  match d.tileFe n with
  | none => d
  | some t =>
    if t.generatorOff then d
    else
      let d := (d.modTile n fun t => { t with
        generatorOff := true, output := 0, ramping := false, discharging := false
        rampSpans := closeSpan d.sys.ticks t.rampSpans }).resumeCheck n
      d.raiseLimited (1024 + n) 0 0 [evNat n, .real (volts t.target)]

/-- BIAS_CURRENT_LIMIT_OFF. -/
def execBiasCurrentLimitOff (tile : Nat) (s : State) : Host.Outcome State Fault Refusal :=
  .next (s.onDev (·.currentLimitOff tile))

/-- A measured bias lies beyond 50 mV of a value in 10 mV (R96). -/
def beyondTolerance (measured v : Nat) : Bool :=
  let (n, k) := f32Frac measured
  decide (5 * (2 ^ k : Int) < (100 * n - v * 2 ^ k).natAbs)

/-- A tile's bias has been beyond 50 mV of its target for more than 100 µs; the event comes only outside a ramp or
gating (R96). -/
def Dev.outOfTolerance (d : Dev) (n measured : Nat) : Dev :=
  match d.tileFe n with
  | none => d
  | some t =>
    if t.ramping || inSpans t.gatedSpans d.sys.ticks || !beyondTolerance measured t.target then d
    else d.raiseLimited (1024 + n) 1 0 [evNat n, .real measured]

/-- BIAS_OUT_OF_TOLERANCE: the tile and the measured bias as a binary32. -/
def execBiasOutOfTolerance (tile measured : Nat) (s : State) : Host.Outcome State Fault Refusal :=
  .next (s.onDev (·.outOfTolerance tile measured))

end Sys2Proof.Machine
end

