-- ==== Sys2Proof/Machine/Power.lean ====
section
/-! DEFINITION. Power: performance levels and their sequencer, admitted work, the snowplough and its causes (R501 to
R512). -/

namespace Sys2Proof.Machine

/-- Change the power state. -/
def Dev.modPwr (d : Dev) (f : PwrState → PwrState) : Dev := { d with pwr := f d.pwr }

/-! ### The performance-level table (R501, R505) -/

/-- VCORE of a level in mV (R501). -/
def vcoreOf (level : Nat) : Nat := 600 + 80 * level

/-- `fire_cap` of a level (R505). -/
def fireCap (m : Option PisteMap) (level : Nat) : Nat := mapNum m 0x0005 0 (36 + 16 * level) 4 (fireCeiling level)

/-- `fire_burst` of a level (R505). -/
def fireBurst (m : Option PisteMap) (level : Nat) : Nat := mapNum m 0x0005 0 (34 + 16 * level) 2 16

/-- `p_step` of a level in mW; 0 above Black (R505). -/
def pStep (m : Option PisteMap) (level : Nat) : Nat :=
  if level ≤ 3 then 100 * mapNum m 0x0005 0 (44 + 16 * level) 2 0 else 0

/-- `auto_return` (R505). -/
def ploughReturns (m : Option PisteMap) : Bool := mapBits m 0x0005 0 17 1 0 0 1 == 1

/-- `return_delay` in ticks (R505). -/
def returnDelay (m : Option PisteMap) : Nat := mapNum m 0x0005 0 20 2 60 * ticksPerSecond

/-- `temp_hyst` in 0.1 °C (R505). -/
def tempHyst (m : Option PisteMap) : Nat := mapNum m 0x0005 0 22 1 50

/-- `drain_limit` in ticks (R505). -/
def drainLimit (m : Option PisteMap) : Nat := usTicks (mapNum m 0x0005 0 24 4 10000)

/-! ### Admitted work (R504) -/

/-- Ticks between tokens of the fire bucket at a level (R504). -/
def tokenTicks (m : Option PisteMap) (level : Nat) : Nat := ticksPerSecond / fireCap m level

/-- A token joins the fire bucket, up to `fire_burst`, and the next follows an interval later (R504). -/
def Dev.addToken (d : Dev) : Dev :=
  d.modPwr fun x => { x with
    fireTokens := min (x.fireTokens + 1) (fireBurst d.map.active x.level)
    nextToken := d.sys.ticks + tokenTicks d.map.active x.level }

/-- The caps of a level take effect: the fire bucket keeps its tokens up to the new `fire_burst` and gets its first token
at this tick; the lanes' cap follows (R315, R502, R504). -/
def Dev.takeCaps (d : Dev) (level : Nat) : Dev :=
  let d := d.settleTagBuckets.modPwr fun x => { x with level := level }
  let d := if level = 3 then d
    else (d.modPwr fun x => { x with fireTokens := min x.fireTokens (fireBurst d.map.active level) }).addToken
  d.capCheckAll

/-- FIRE_TOKEN_ADD: the interval of the cap has passed; at Black the bucket is not used (R504). -/
def execFireTokenAdd (s : State) : Host.Outcome State Fault Refusal :=
  .next (s.onDev fun d => if d.pwr.level != 3 && d.pwr.nextToken ≤ d.sys.ticks then d.addToken else d)

/-! ### The sequencer (R502, R503) -/

/-- Ticks that a ramp of VCORE by one mV takes: 10 mV/µs (R502). -/
def rampTicks : Nat := 256

/-- Ticks since Boot at which the latest ramp reaches its goal. -/
def PwrState.rampEnd (x : PwrState) : Nat := x.rampAt + rampTicks * ((x.rampTo - x.rampFrom) + (x.rampFrom - x.rampTo))

/-- The set point of VCORE in mV, rounded towards the start of the ramp (R502). -/
def PwrState.setPoint (x : PwrState) (now : Nat) : Nat :=
  let moved := (now - x.rampAt) / rampTicks
  if x.rampFrom ≤ x.rampTo then min (x.rampFrom + moved) x.rampTo else max (x.rampFrom - moved) x.rampTo

/-- VCORE ramps from its present value to that of a level (R502). -/
def Dev.ramp (d : Dev) (level : Nat) : Dev :=
  d.modPwr fun x => { x with rampFrom := x.setPoint d.sys.ticks, rampTo := vcoreOf level, rampAt := d.sys.ticks }

/-- The snowplough ceiling: the lowest that an active cause allows; 3 with none (R507). -/
def PwrState.ceiling (x : PwrState) : Nat := x.causes.toList.foldl (fun c y => if y.active then min c y.ceiling else c) 3

/-- The target level (R501). -/
def PwrState.target (x : PwrState) : Nat := min x.requested x.ceiling

/-- The power-fail warning is active: a step down skips the drain wait (R496). -/
def PwrState.failing (x : PwrState) : Bool := x.warning.isSome

/-- A sequence down enters its drain wait, or skips it (R496, R502). -/
def Dev.beginDrain (d : Dev) (q : LevelSeq) : Dev :=
  if q.skipDrain then (d.modPwr fun x => { x with seq := some { q with step := 3 } }).ramp q.goal
  else (d.modPwr fun x => { x with seq := some { q with step := 2, drainSince := none } }).drainTest

/-- A sequence starts: up with its ramp; down with the caps of its new level, or, where it takes the place of an up
sequence whose old level lies at or below the goal, with the drain wait (R502, R503). -/
def Dev.startSeq (d : Dev) (goal : Nat) (fromDrain : Bool) : Dev :=
  let old := d.pwr.level
  let q : LevelSeq := ⟨false, old, goal, 2, d.sys.ticks, d.pwr.failing, none⟩
  if fromDrain then d.beginDrain q
  else if old < goal then (d.modPwr fun x => { x with seq := some { q with up := true, step := 1 } }).ramp goal
  else (d.takeCaps goal).beginDrain q

/-- The level in force equals the target and no sequence runs: every `PWR.SET_LEVEL` that waits is answered (R512). -/
def Dev.answerSetters (d : Dev) : Dev :=
  if d.pwr.seq.isNone && d.pwr.level == d.pwr.target then
    d.pwr.setters.foldl (fun d c => d.finish c .ok []) (d.modPwr fun x => { x with setters := [] })
  else d

/-- The sequencer looks at the target level (R501, R503). -/
def Dev.levelTurn (d : Dev) : Dev :=
  let t := d.pwr.target
  let d := match d.pwr.seq with
    | none => if t = d.pwr.level then d else d.startSeq t false
    | some q =>
      if q.up then
        if t < q.goal then d.startSeq t (d.pwr.level ≤ t)
        else if q.goal < t then (d.modPwr fun x => { x with seq := some { q with goal := t } }).ramp t
        else d
      else
        let d := if d.pwr.failing && !q.skipDrain then
            if q.step = 2 then d.beginDrain { q with skipDrain := true }
            else d.modPwr fun x => { x with seq := some { q with skipDrain := true } }
          else d
        match d.pwr.seq with
        | none => d
        | some q =>
          if q.goal ≤ t then d
          else
            let d := (d.takeCaps t).modPwr fun x => { x with seq := some { q with goal := t } }
            if q.step = 2 then d.drainTest else d.ramp t
  d.answerSetters

/-- A duration of ticks in ns, rounded down. -/
def durationNs (ticks : Nat) : EvItem := evNat (ticksNs ticks)

/-! ### The snowplough (R507, R508) -/

/-- A cause by its code. -/
def PwrState.cause (x : PwrState) (code : Nat) : SnowCause := getD x.causes (code - 1) ⟨false, 3, none⟩

/-- Set a cause by its code. -/
def Dev.setCause (d : Dev) (code : Nat) (c : SnowCause) : Dev :=
  d.modPwr fun x => { x with causes := modAt x.causes (code - 1) fun _ => c }

/-- A cause begins, or its ceiling falls: event 1606 where the ceiling of the snowplough falls, and the sequencer steps
down (R507). -/
def Dev.beginCause (d : Dev) (code ceiling : Nat) : Dev :=
  let was := d.pwr.ceiling
  let d := (d.setCause code ⟨true, ceiling, none⟩).modPwr fun x => { x with ploughSince := some (x.ploughSince.getD d.sys.ticks) }
  let d := if d.pwr.ceiling < was then d.raise 1606 0 [evNat code, evNat d.pwr.ceiling, evNat d.pwr.level] else d
  d.levelTurn

/-- A cause ends; with the last of them event 1607 (R508). -/
def Dev.endCause (d : Dev) (code : Nat) : Dev :=
  if !(d.pwr.cause code).active then d
  else
    let d := d.setCause code ⟨false, 3, none⟩
    let d := if d.pwr.causes.toList.any (·.active) then d
      else
        let since := d.pwr.ploughSince.getD d.sys.ticks
        (d.modPwr fun x => { x with ploughSince := none }).raise 1607 0 [evNat ((d.sys.ticks - since) / 2560000)]
    d.levelTurn

/-- A binary32 temperature exceeds a number of 0.1 °C. -/
def hotter (w : Nat) (tenths : Nat) : Bool :=
  let (n, k) := f32Frac w
  decide ((tenths : Int) * 2 ^ k < n * 10)

/-- A binary32 temperature is at or above a number of 0.1 °C. -/
def atLeast (w : Nat) (tenths : Nat) : Bool :=
  let (n, k) := f32Frac w
  decide ((tenths : Int) * 2 ^ k ≤ n * 10)

/-- The latest temperatures behind a thermal cause: the lid, or the die sensors (R113, R507). -/
def Dev.heat (d : Dev) (code : Nat) : List Nat :=
  if code = 3 then (List.range 16).filterMap fun i => d.latestValue (208 + i) else (d.latestValue 224).toList

/-- The temperature of a thermal cause in 0.1 °C, and its ceiling (R507). -/
def heatLimit : Nat → Nat × Nat
  | 1 => (1050, 2) | 2 => (1250, 0) | _ => (1400, 0)

/-- The condition of a cause holds (R507). -/
def Dev.causeHolds (d : Dev) (code : Nat) : Bool :=
  if code ≤ 3 then (code != 1 || d.pwr.level == 3) && (d.heat code).any fun w => hotter w (heatLimit code).1
  else if code = 4 then d.pwr.inputPower.any fun p => 100 * d.pwr.limit < p
  else d.pwr.warning.isSome

/-- One thermal cause is tested: it begins with its condition, cause 2 with event 1601 as well (R507). -/
def Dev.testHeat (d : Dev) (code : Nat) : Dev :=
  if d.causeHolds code && !(d.pwr.cause code).active then
    let d := if code = 2 then d.raise 1601 0 ((d.latestValue 224).toList.map .real) else d
    d.beginCause code (heatLimit code).2
  else d

/-- The temperatures of a thermal cause have fallen by `temp_hyst`: since when (R508). -/
def Dev.noteCalm (d : Dev) (code : Nat) : Dev :=
  let c := d.pwr.cause code
  let calm := !(d.heat code).any fun w => hotter w ((heatLimit code).1 - tempHyst d.map.active)
  d.setCause code { c with calmSince := if calm && c.active then some (c.calmSince.getD d.sys.ticks) else none }

/-- The thermal causes act on the latest temperatures (R507 to R509). -/
def Dev.thermal (d : Dev) : Dev :=
  let d := [1, 2, 3].foldl Dev.testHeat d
  let d := [1, 2, 3].foldl Dev.noteCalm d
  let hot := (d.latestValue 224).any fun w => atLeast w 1300
  d.modPwr fun x => { x with lidHot := if hot then some (x.lidHot.getD d.sys.ticks) else none, lidHeld := x.lidHeld && hot }

/-- SNOWPLOUGH_CAUSE_END: the condition of the end of a thermal cause has held for `return_delay` (R508). -/
def execSnowploughCauseEnd (s : State) : Host.Outcome State Fault Refusal :=
  .next (s.onDev fun d =>
    if ploughReturns d.map.active then
      [1, 2, 3].foldl (fun d code =>
        if (d.pwr.cause code).calmSince.any fun t => t + returnDelay d.map.active ≤ d.sys.ticks then d.endCause code else d) d
    else d)

/-- A sequence is complete: event 1605, and the next starts where the level in force differs from the target (R502,
R503). Cause 1 begins where the level has become Black with a hot lid (R507). -/
def Dev.seqDone (d : Dev) (q : LevelSeq) : Dev :=
  let d := d.modPwr fun x => { x with seq := none }
  (d.raise 1605 0 [evNat q.old, evNat d.pwr.level, durationNs (d.sys.ticks - q.start)]).levelTurn.testHeat 1

/-- VCORE_SETTLED: VCORE has stayed within 1 % of its value for 2 µs from the end of its ramp (R502). -/
def execVcoreSettled (s : State) : Host.Outcome State Fault Refusal :=
  .next (s.onDev fun d =>
    match d.pwr.seq with
    | none => d
    | some q =>
      if d.sys.ticks < d.pwr.rampEnd + usTicks 2 then d
      else if q.up then (d.takeCaps q.goal).seqDone q
      else if q.step = 3 then d.seqDone q
      else d)

/-- DRAIN_DONE: the limits of the drain wait have held for 10 µs without a break (R502). -/
def execDrainDone (s : State) : Host.Outcome State Fault Refusal :=
  .next (s.onDev fun d =>
    match d.pwr.seq with
    | none => d
    | some q =>
      if !q.up && q.step == 2 && d.drained && q.drainSince.any fun t => t + usTicks 10 ≤ d.sys.ticks then
        (d.modPwr fun x => { x with seq := some { q with step := 3 } }).ramp q.goal
      else d)

/-- DRAIN_LIMIT: `drain_limit` has passed since step 1; event 1608 (R502). -/
def execDrainLimit (s : State) : Host.Outcome State Fault Refusal :=
  .next (s.onDev fun d =>
    match d.pwr.seq with
    | none => d
    | some q =>
      if !q.up && q.step == 2 && q.start + drainLimit d.map.active ≤ d.sys.ticks then
        let crossing := match d.fullCrossings with | [] => evNone | c :: _ => evNat c
        let d := d.raise 1608 0 [evNat d.acq.segments.length, crossing]
        (d.modPwr fun x => { x with seq := some { q with step := 3 } }).ramp q.goal
      else d)

/-! ### Input power (R507, R508) -/

/-- A power in mW as watts, binary32. -/
def watts (mw : Nat) : Nat := f32OfFrac mw 1000

/-- The windows of the last `return_delay`, and their highest average: the list keeps, latest first, only those above all
later ones, so its last is the highest. -/
def noteWindow (m : Option PisteMap) (now mw : Nat) (l : List (Nat × Nat)) : List (Nat × Nat) :=
  ((now, mw) :: l.dropWhile fun w => w.2 ≤ mw).takeWhile fun w => now < w.1 + returnDelay m

/-- The windows of the last `return_delay` allow a higher ceiling: each average and the `p_step` of the level above it at
or below 0.95 of the limit (R508). -/
def Dev.powerCalm (d : Dev) : Bool :=
  let step := pStep d.map.active ((d.pwr.cause 4).ceiling + 1)
  d.pwr.windows.all fun w => 100 * (w.2 + step) ≤ 95 * (100 * d.pwr.limit)

/-- The end of a window above the limit: cause 4 begins, or lowers its ceiling once 100 ms have passed; at Green event
1609 (R507). -/
def Dev.overLimit (d : Dev) (mw : Nat) : Dev :=
  if d.pwr.level = 0 then d.raiseLimited 1609 0 0 [.real (watts mw), .real (f32OfFrac d.pwr.limit 10)]
  else
    let c := d.pwr.cause 4
    let lower := fun (d : Dev) (ceiling : Nat) =>
      (d.modPwr fun x => { x with loweredAt := some d.sys.ticks }).beginCause 4 ceiling
    if !c.active then lower d (d.pwr.level - 1)
    else if d.pwr.loweredAt.all fun t => t + usTicks 100000 ≤ d.sys.ticks then
      if c.ceiling = 0 then d else lower d (c.ceiling - 1)
    else d

/-- The ceiling of cause 4 rises by one level, or the cause ends where the ceiling would pass the requested level
(R508). -/
def Dev.liftLimit (d : Dev) : Dev :=
  let c := d.pwr.cause 4
  if !(c.active && ploughReturns d.map.active && d.powerCalm) then d
  else if d.pwr.requested < c.ceiling + 1 then d.endCause 4
  else (d.setCause 4 { c with ceiling := c.ceiling + 1 }).levelTurn

/-- The end of a 10 ms window with its average in mW: cause 4 is tested, and a limit set by command takes effect
(R507, R508, R512). -/
def Dev.powerWindowEnd (d : Dev) (mw : Nat) : Dev :=
  let d := d.modPwr fun x => { x with windowAt := d.sys.ticks, inputPower := some mw, windows := noteWindow d.map.active d.sys.ticks mw x.windows }
  let d := if 100 * d.pwr.limit < mw then d.overLimit mw else d.liftLimit
  d.modPwr fun x => { x with limit := x.limitDue.getD x.limit, limitDue := none }

/-- POWER_WINDOW_END: a window has lasted 10 ms, and the next begins. -/
def execPowerWindowEnd (average : Nat) (s : State) : Host.Outcome State Fault Refusal :=
  .next (s.onDev fun d => if d.sys.ticks < d.pwr.windowAt + usTicks 10000 then d else d.powerWindowEnd average)

/-! ### A map becomes active (R501, R504, R505) -/

/-- The new caps, `drain_desc` and `drain_limit` come into force and the limit is `p_limit`; the first map after Boot sets
the requested level and fills the bucket. -/
def Dev.pwrFromMap (d : Dev) : Dev :=
  let m := d.map.active
  let d := d.modPwr fun x => { x with limit := mapNum m 0x0005 0 18 2 1100, limitDue := none }
  let d := if d.fe.checkedOnce then d
    else d.modPwr fun x => { x with requested := mapNum m 0x0005 0 16 1 1, fireTokens := fireBurst m x.level }
  (d.takeCaps d.pwr.level).drainTest.levelTurn

/-! ### Commands (R512) -/

/-- `PWR.STATUS`. -/
def pwrStatusKind : CmdKind := ⟨0x0C00, false, bootStates⟩

/-- A rail is good: switched on, and past the soft start of a restart (R498, R499). -/
def RailState.isGood (r : RailState) (now : Nat) : Bool := r.good && r.restartedAt.all fun t => t + usTicks 1000 ≤ now

/-- The set point of VCORE lies within 3 % of the value being ramped to (R498, R502). -/
def PwrState.vcoreNear (x : PwrState) (now : Nat) : Bool :=
  let v := x.setPoint now
  100 * (max v x.rampTo - min v x.rampTo) ≤ 3 * x.rampTo

/-- A rail is good: its voltage lies within its window round its target, which for VCORE is the value being ramped to (R498). -/
def PwrState.railGood (x : PwrState) (now i : Nat) : Bool :=
  (getD x.rails i ⟨true, none⟩).isGood now && (i != 1 || x.vcoreNear now)

/-- The cause that sets the ceiling; 0 with no ceiling (R512). -/
def PwrState.ceilingCause (x : PwrState) : Nat :=
  ([1, 2, 3, 4, 5].find? fun c => (x.cause c).active && (x.cause c).ceiling == x.ceiling).getD 0

/-- The 32 bytes of `PWR.STATUS` (R462). -/
def pwrStatusData (d : Dev) : List Byte :=
  let x := d.pwr
  let reading := fun (input : Nat) => (d.latestValue input).getD (Config.firstReading input d.free).toNat
  let flag := fun (i : Nat) => 2 ^ i * b2n (x.railGood d.sys.ticks i)
  leBytes 1 x.level ++ leBytes 1 x.requested ++ leBytes 1 (b2n (x.causes.toList.any (·.active)))
    ++ leBytes 1 x.ceilingCause ++ leBytes 4 (reading 225) ++ leBytes 4 (watts (x.inputPower.getD (Config.inputPower d.free)))
    ++ leBytes 4 (reading 224) ++ leBytes 4 (reading 227) ++ leBytes 4 ((List.range 7).map flag).sum ++ zeros 8

/-- Readings that MON or a window has not given yet are free values. -/
def pwrStatusEff : Effect := onDev fun _ _ d => ({ d with free := d.free + 1 }, .done .ok (pwrStatusData d))

/-- PWR_STATUS. -/
def execPwrStatus (h : CmdHeader) (s : State) : Host.Outcome State Fault Refusal :=
  .next (hostRun (.pwrStatus h) pwrStatusKind h pwrStatusEff s)

/-- `PWR.SET_LEVEL`. -/
def pwrSetLevelKind : CmdKind := ⟨0x0C01, true, workStates⟩

/-- With `auto_return` clear, every cause whose condition holds no more is removed (R508). -/
def Dev.dropCauses (d : Dev) : Dev :=
  if ploughReturns d.map.active then d
  else [1, 2, 3, 4, 5].foldl (fun d c => if d.causeHolds c then d else d.endCause c) d

/-- The requested level; answered when the level in force is the target and no sequence runs (R512). -/
def pwrSetLevelEff (level : Nat) : Effect := onDev fun _ c d =>
  if 3 < level then (d, .done .outOfRange [])
  else
    let d := (d.modPwr fun x => { x with requested := level }).dropCauses.levelTurn
    if d.pwr.seq.isNone && d.pwr.level == d.pwr.target then (d, .done .ok [])
    else (d.modPwr fun x => { x with setters := x.setters ++ [c] }, .wait)

/-- PWR_SET_LEVEL. -/
def execPwrSetLevel (h : CmdHeader) (level : Nat) (s : State) : Host.Outcome State Fault Refusal :=
  .next (hostRun (.pwrSetLevel h level) pwrSetLevelKind h (pwrSetLevelEff level) s)

/-- `PWR.SET_LIMIT`. -/
def pwrSetLimitKind : CmdKind := ⟨0x0C02, false, upStates⟩

/-- The limit, from the start of the next window (R512). -/
def pwrSetLimitEff (limit : Nat) : Effect := onDev fun _ _ d =>
  if limit < 200 || 1100 < limit then (d, .done .outOfRange [])
  else (d.modPwr fun x => { x with limitDue := some limit }, .done .ok [])

/-- PWR_SET_LIMIT. -/
def execPwrSetLimit (h : CmdHeader) (limit : Nat) (s : State) : Host.Outcome State Fault Refusal :=
  .next (hostRun (.pwrSetLimit h limit) pwrSetLimitKind h (pwrSetLimitEff limit) s)

end Sys2Proof.Machine
end

