-- ==== Sys2Proof/Machine/Cal.lean ====
section
/-! DEFINITION. Calibration runs, the results of the monitor converter, and the margins of the fabric stations (R45,
R118, R515 to R523, R539 to R541). -/

namespace Sys2Proof.Machine

/-! ### When a run falls due (R515) -/

/-- The calibration of a tile. -/
def Dev.calTile (d : Dev) (n : Nat) : CalTile := getD d.cal.tiles n ⟨none, 0, 2, 0, false, none⟩

/-- Two binary32 temperatures differ by more than a number of 0.1 °C. -/
def apart (a b tenths : Nat) : Bool :=
  let (n, i) := f32Frac a
  let (m, j) := f32Frac b
  decide (tenths * 2 ^ (i + j) < 10 * (n * 2 ^ j - m * 2 ^ i).natAbs)

/-- The temperature trigger of a tile: T differs by more than `delta_t` from that of its last run, or from the
reference (R515). -/
def Dev.testTemperature (d : Dev) (n : Nat) : Dev :=
  let t := d.calTile n
  let last := match t.last with | some (_, _, x) => x | none => t.reference
  if apart (d.tileTemperature n d.sys.ticks) last (calField d.map.active 17 1 5) then d.runDue n else d

/-- The temperature trigger of every tile. -/
def Dev.testTemperatures (d : Dev) : Dev :=
  if d.map.active.isSome then (List.range 64).foldl Dev.testTemperature d else d

/-- `period` has passed since a tile's last run (R515). -/
def Dev.testPeriod (d : Dev) (n : Nat) : Dev :=
  let period := calField d.map.active 24 4 0
  match (d.calTile n).last with
  | some (_, at_, _) => if period != 0 && at_ + period * ticksPerSecond ≤ d.sys.ticks then d.runDue n else d
  | none => d

/-- CALIBRATION_PERIOD: the period has passed on a tile. -/
def execCalibrationPeriod (tile : Nat) (s : State) : Host.Outcome State Fault Refusal := .next (s.onDev (·.testPeriod tile))

/-- A map becomes active, the runs of the earlier one being aborted: a tile without a run takes its reference temperature,
and R515 is tested (R515, R540). `first` says that no map was active since Boot. -/
def Dev.calFromMap (d : Dev) (first : Bool) : Dev :=
  let d := (List.range 64).foldl (fun d n =>
    let now := d.tileTemperature n d.sys.ticks
    d.modCalTile n fun t => if t.last.isNone then { t with reference := now } else t) d
  let d := if first && calAtStart d.map.active then (List.range 64).foldl Dev.runDue d else d
  (List.range 64).foldl Dev.testPeriod d.testTemperatures

/-! ### Runs (R516 to R520) -/

/-- What a run that falls due waits for (R516). -/
def Dev.calWaits (d : Dev) (n : Nat) : Bool :=
  (d.tileFe n).all (fun t => inSpans t.gatedSpans d.sys.ticks || t.ramping || t.check != .none)
    || calField d.map.active 19 1 1 ≤ (d.cal.tiles.toList.filter (·.run.isSome)).length
    || !([DevState.ready, .running, .quiesce].contains d.sys.state)

/-- A run starts on a tile (R517): the discriminators are diverted and every sample carries the calibrating flag. -/
def Dev.startRun (d : Dev) (n : Nat) : Dev :=
  let temp := d.tileTemperature n d.sys.ticks
  let gains := (List.range 16).map fun i => (d.pixelFe (16 * n + i)).elim 0 (·.gain)
  let d := (d.loseTilePulses n).modTile n fun f =>
    { f with calibrating := true, calSpans := openSpan d.sys.ticks f.calSpans }
  d.modCalTile n fun t =>
    { t with
      last := some (d.now, d.sys.ticks, temp), runs := (t.runs + 1) % 65536, due := false
      run := some ⟨d.now, d.sys.ticks, temp, false, gains, []⟩ }

/-- The first waiting tile, in ascending order, whose run may start (R516). -/
def Dev.calNext (d : Dev) : Option Nat := (List.range 64).find? fun n => (d.calTile n).due && !d.calWaits n

/-- CAL_RUN_START: the next waiting run starts. -/
def execCalRunStart (s : State) : Host.Outcome State Fault Refusal :=
  .next (s.onDev fun d => match d.calNext with | some n => d.startRun n | none => d)

/-- The results of a run: each pixel takes its own, the record is sent, event 1898, and a waiting open-input check may
start (R70, R517, R520, R539). -/
def Dev.decideRun (d : Dev) (n : Nat) (t : CalTile) (r : CalRun) (b : List CalQ) : Dev :=
  let rs := (List.range 16).map fun i => d.calResult n i r (b[i]?.getD ⟨none, 0⟩)
  let d := (rs.zipIdx).foldl (fun d (x, i) => d.takeResult (16 * n + i) (r.gains[i]?.getD 0) x) d
  let accepted := (rs.filter (·.code ≤ 1)).length
  let rejected := (rs.filter fun x => 2 ≤ x.code && x.code ≤ 4).length
  let d := d.modCalTile n fun t => { t with result := if rejected = 0 then 0 else if t.result = 2 then 2 else 1 }
  ((d.endRun n t r rs).raise 1898 0 [evNat n, evNat accepted, evNat rejected]).resumeCheck n

/-- A repeat ends (R517): repeat a gives way to repeat b, and repeat b to the results. -/
def Dev.repeatEnd (d : Dev) (n : Nat) (pulses : List CalPulse) : Dev :=
  let t := d.calTile n
  let len := repeatTicks d.map.active
  match t.run with
  | none => d
  | some r =>
    if r.second then
      if d.sys.ticks < r.startTick + 2 * len then d
      else d.decideRun n t r (d.evaluateRepeat n (r.startTick + len) r.gains pulses)
    else if d.sys.ticks < r.startTick + len then d
    else
      let a := d.evaluateRepeat n r.startTick r.gains pulses
      d.modCalTile n fun t => { t with run := some { r with second := true, first_ := a } }

/-- CAL_REPEAT_END: the repeat under way on a tile ends, with its rising edges. -/
def execCalRepeatEnd (tile : Nat) (pulses : List CalPulse) (s : State) : Host.Outcome State Fault Refusal :=
  .next (s.onDev (·.repeatEnd tile pulses))

/-! ### Commands (R541) -/

/-- `CAL.STATUS`. -/
def calStatusKind : CmdKind := ⟨0x0D00, false, upStates⟩

/-- The time word that a number spells: any legal one (R9). -/
def unstatedTime (n : Nat) : TimeWord := ⟨n / 2 ^ 39 % 2 ^ 40, n / 2 ^ 7 % 2 ^ 32 % ticksPerSecond, n % 128⟩

/-- The 24 bytes of one tile (R462); the temperature and time of a tile that has had no run are free. -/
def calStatusEntry (d : Dev) (n : Nat) : List Byte :=
  let t := d.calTile n
  let state := if t.run.isSome then 1 else if t.due then 2 else 0
  leBytes 1 n ++ leBytes 1 state ++ leBytes 1 t.result ++ zeros 1
    ++ (match t.last with
      | some (w, _, x) => leBytes 4 x ++ twBytes w
      | none =>
        let x := Config.noRun n d.free
        leBytes 4 (x.toNat % 2 ^ 32) ++ twBytes (unstatedTime (x.toNat / 2 ^ 32)))
    ++ zeros 4

/-- The 1,536 bytes of `CAL.STATUS`. -/
def calStatusData (d : Dev) : List Byte := ((List.range 64).map (calStatusEntry d)).flatten

/-- CAL_STATUS. -/
def execCalStatus (h : CmdHeader) (s : State) : Host.Outcome State Fault Refusal :=
  .next (hostRun (.calStatus h) calStatusKind h (readsFree calStatusData) s)

/-- `CAL.RUN`. -/
def calRunKind : CmdKind := ⟨0x0D01, true, [.ready, .running, .quiesce]⟩

/-- A run falls due on each named tile (R515, R541). -/
def calRunEff (first last : Nat) : Effect := onDev fun _ _ d =>
  let tiles := (List.range 64).filter fun n => first ≤ n && n ≤ last
  if !tileRange first last then (d, .done .outOfRange [])
  else if !(calEnabled d.map.active && tiles.all (calTileIncluded d.map.active)) then (d, .done .wrongState [])
  else (tiles.foldl Dev.runDue d, .done .ok [])

/-- CAL_RUN. -/
def execCalRun (h : CmdHeader) (firstTile lastTile : Nat) (s : State) : Host.Outcome State Fault Refusal :=
  .next (hostRun (.calRun h firstTile lastTile) calRunKind h (calRunEff firstTile lastTile) s)

/-- `CAL.READ`. -/
def calReadKind : CmdKind := ⟨0x0D02, false, upStates⟩

/-- The charges of one pixel (R462, R521). -/
def calReadEff (pixel : Nat) : Effect := onDev fun _ _ d =>
  match d.cal.pixels[pixel]? with
  | some x => (d, .done .ok (leBytes 2 pixel ++ zeros 2 ++ (x.charges.toList.map (leBytes 4)).flatten))
  | none => (d, .done .outOfRange [])

/-- CAL_READ. -/
def execCalRead (h : CmdHeader) (pixel : Nat) (s : State) : Host.Outcome State Fault Refusal :=
  .next (hostRun (.calRead h pixel) calReadKind h (calReadEff pixel) s)

/-! ### Monitor results (R118, R507, R515) -/

/-- A sum of two fractions over powers of two. -/
def fracAdd (a b : Int × Nat) : Int × Nat :=
  if a.2 ≤ b.2 then (a.1 * 2 ^ (b.2 - a.2) + b.1, b.2) else (a.1 + b.1 * 2 ^ (a.2 - b.2), a.2)

/-- The bias power of four tiles in watts, over a power of two: the current measured for them together times the mean of
their measured V_tile; nothing before all five have been measured. DESIGN CHOICE (log entry 66): R500 asks for V_tile times
bias current of each tile, and R113 measures one current for four. -/
def Dev.biasPower (d : Dev) (m : Nat) : Int × Nat :=
  match (List.range 4).mapM fun i => d.latestValue (128 + 4 * m + i), d.latestValue (192 + m) with
  | some volts, some amps =>
    let (v, i) := (volts.map f32Frac).foldl fracAdd (0, 0)
    let (a, j) := f32Frac amps
    (v * a, i + j + 2)
  | _, _ => (0, 0)

/-- The generators together deliver more than 2.6 W: event 1612 (R500). -/
def Dev.testBudget (d : Dev) : Dev :=
  let (w, k) := ((List.range 16).map d.biasPower).foldl fracAdd (0, 0)
  if 26 * 2 ^ k < 10 * w then d.raiseLimited 1612 0 0 [.real (f32OfFrac w (2 ^ k))] else d

/-- MON_RESULT: the conversion under way completes with its 20-bit code; the thermal causes, the calibration triggers
and the bias budget act on the latest values. -/
def execMonResult (code : Nat) (s : State) : Host.Outcome State Fault Refusal :=
  .next (s.onDev fun d =>
    if d.conversionDue then (d.monConversion (ofTwos 20 code)).thermal.testTemperatures.testBudget else d)

/-! ### Margins (R45) -/

/-- A unit takes so many equal values (R535). -/
def HmonUnit.takeMany (x : HmonUnit) (s : HmonSetting) (v n : Nat) : HmonUnit :=
  if n = 0 then x
  else
    let bin := (clampInt 0 63 (((v : Int) - s.lo) / (s.width : Int))).toNat
    { minimum := if x.samples = 0 then (v : Int) else min x.minimum (v : Int)
      maximum := if x.samples = 0 then (v : Int) else max x.maximum (v : Int)
      samples := saturate 32 (x.samples + n), bins := modAt x.bins bin fun k => saturate 32 (k + n) }

/-- The units that watch a station take its cycles (R535, R536). -/
def Dev.takeCycles (d : Dev) (c : CycleSet) : Dev :=
  let take := fun (u : Fin 32) (x : HmonUnit) =>
    match hmonSetting d.map.active u.val with
    | some s => if s.watches 1 c.station then x.takeMany s c.ps c.count else x
    | none => x
  { d with hmon := Vector.ofFn fun u => take u (getD d.hmon u.val HmonUnit.initial) }

/-- `t_req_ps` of a station whose entry names a monitor unit (R40, R45). -/
def stationLimit (m : Option PisteMap) (station : Nat) : Option Nat :=
  match (List.range (mapCount m 0x0002 0)).find? fun e => mapNum m 0x0002 0 (16 + 16 * e) 1 255 == station with
  | some e =>
    if mapNum m 0x0002 0 (16 + 16 * e + 1) 1 255 == 255 then none else some (mapNum m 0x0002 0 (16 + 16 * e + 4) 4 1)
  | none => none

/-- The measured margin of a period with its largest cycle time (R45). -/
def measuredMargin (treq tmeas : Nat) : Int := (1000 * ((treq : Int) - tmeas)) / (treq : Int)

/-- A margin after a period, and the event it raises: 1810 when it falls below 100, 1811 after 10 periods at 120 or more
(R45). -/
def Margin.step (x : Margin) (v : Int) : Margin × Option Nat :=
  if x.low then
    if 120 ≤ v then
      if 10 ≤ x.run + 1 then (⟨some v, false, 0⟩, some 1811) else (⟨some v, true, x.run + 1⟩, none)
    else (⟨some v, true, 0⟩, none)
  else if v < 100 then (⟨some v, true, 0⟩, some 1810)
  else (⟨some v, false, 0⟩, none)

/-- One station's margin at the end of a period; a period without a cycle gives none. -/
def Dev.stationPeriod (d : Dev) (cycles : List CycleSet) (station : Nat) : Dev :=
  let mine := (cycles.filter fun c => c.station == station && 0 < c.count).map (·.ps)
  match stationLimit d.map.active station, mine with
  | some treq, p :: ps =>
    let v := measuredMargin treq (ps.foldl max p)
    let (x, ev) := (getD d.map.margins station ⟨none, false, 0⟩).step v
    let d := { d with map := { d.map with margins := modAt d.map.margins station fun _ => x } }
    match ev with
    | some e => d.raise e 0 [evNat station, .num v]
    | none => d
  | _, _ => d

/-- MARGIN_PERIOD: a period of 1 ms ends, with the handshake cycles each station's unit observed in it; the next begins at
this tick. Before 1 ms has passed it does nothing. -/
def execMarginPeriod (cycles : List CycleSet) (s : State) : Host.Outcome State Fault Refusal :=
  .next (s.onDev fun d =>
    if d.sys.ticks < d.map.marginAt + usTicks 1000 then d
    else
      let d := { d with map := { d.map with marginAt := d.sys.ticks } }
      (List.range 11).foldl (·.stationPeriod cycles ·) (cycles.foldl Dev.takeCycles d))

end Sys2Proof.Machine
end

