-- ==== Sys2Proof/Machine/Cmp.lean ====
section
/-! DEFINITION. The compression engine (R247 to R265). -/

namespace Sys2Proof.Machine

/-- Change CMP. -/
def Dev.modCmp (d : Dev) (f : CmpState → CmpState) : Dev := { d with cmp := f d.cmp }

/-- Change the counters of R263. -/
def Dev.countCmp (d : Dev) (f : CmpCounters → CmpCounters) : Dev := d.modCmp fun c => { c with counters := f c.counters }

/-! ### Coding a block (R249 to R254) -/

/-- The prediction of R250. -/
def predict (q : CmpParams) (w : Nat) (x1 x2 nb : Nat) : Nat :=
  (clampInt 0 (2 ^ w - 1) ((q.a * x1 + q.b * x2 + q.c * nb) / 64)).toNat

/-- The code of one word, and whether it is an escape (R252). -/
def codeOf (k w x p : Nat) : List Bool × Bool :=
  let e : Int := (x : Int) - p
  let u := (if 0 ≤ e then 2 * e else -2 * e - 1).toNat
  if u < 2 ^ (k + 8) then (List.replicate (u / 2 ^ k) true ++ false :: bitsOf k (u % 2 ^ k), false)
  else (List.replicate 256 true ++ bitsOf w x, true)

/-- The codes of the words from the second on: `x1` and `x2` are the two words before (R250, R253). -/
def codeRest (q : CmpParams) (k w : Nat) : Nat → Nat → List Nat → List Nat → List (List Bool × Bool)
  | _, _, [], _ => []
  | x1, x2, x :: xs, nbs =>
    codeOf k w x (predict q w x1 x2 (nbs.headD 0)) :: codeRest q k w x x1 xs nbs.tail

/-- The code stream of a block and its escapes (R253). `nbs` are the neighbour's words (R251). -/
def codeStream (q : CmpParams) (k w : Nat) (xs nbs : List Nat) : List Bool × Nat :=
  match xs with
  | [] => ([], 0)
  | x :: rest =>
    let codes := codeRest q k w x x rest nbs.tail
    (bitsOf w x ++ (codes.map (·.1)).flatten, (codes.filter (·.2)).length)

/-- The coded area: its header and the padded stream (R254). -/
def codedArea (q : CmpParams) (k : Nat) (stream : List Bool) : List Byte :=
  leBytes 8 (stream.length + 2 ^ 24 * k + 2 ^ 30 * toTwos 8 q.a + 2 ^ 38 * toTwos 8 q.b + 2 ^ 46 * toTwos 8 q.c
    + 2 ^ 54 * q.neighbour) ++ bytesOfBits (4 * ceilDiv stream.length 32) stream

/-- The number that bits spell, least significant bit first. -/
def bitsNum : List Bool → Nat
  | [] => 0
  | b :: r => b2n b + 2 * bitsNum r

/-- Read a field of n bits; none where the stream ends first. -/
def getField (n : Nat) (bs : List Bool) : Option (Nat × List Bool) :=
  if n ≤ bs.length then some (bitsNum (bs.take n), bs.drop n) else none

/-- Count one-bits, stopping at a zero-bit, which is read, or at 256 (R253); none where the stream ends first. -/
def countOnes : Nat → List Bool → Option (Nat × List Bool)
  | 0, bs => some (256, bs)
  | n + 1, true :: r => countOnes n r
  | n + 1, false :: r => some (256 - (n + 1), r)
  | _ + 1, [] => none

/-- Decode one word against its prediction (R253). -/
def decodeWord (k w p : Nat) (bs : List Bool) : Option (Nat × List Bool) :=
  (countOnes 256 bs).bind fun (q, r) =>
    if q = 256 then getField w r
    else (getField k r).map fun (rem, r) =>
      let u := q * 2 ^ k + rem
      let e : Int := if u % 2 = 0 then ((u / 2 : Nat) : Int) else -(((u + 1) / 2 : Nat) : Int)
      (((p : Int) + e).toNat, r)

/-- Decode the words from the second on: `x1` and `x2` are the two words before, `n` words are left (R253). -/
def decodeRest (q : CmpParams) (k w : Nat) : Nat → Nat → Nat → List Nat → List Bool → Option (List Nat × List Bool)
  | 0, _, _, _, bs => some ([], bs)
  | n + 1, x1, x2, nbs, bs =>
    (decodeWord k w (predict q w x1 x2 (nbs.headD 0)) bs).bind fun (x, r) =>
      (decodeRest q k w n x x1 nbs.tail r).map fun (xs, r) => (x :: xs, r)

/-- The words from the second on that a decoder gives before the stream ends (R253). -/
def decodeUntil (q : CmpParams) (k w : Nat) : Nat → Nat → Nat → List Nat → List Bool → List Nat
  | 0, _, _, _, _ => []
  | n + 1, x1, x2, nbs, bs =>
    match decodeWord k w (predict q w x1 x2 (nbs.headD 0)) bs with
    | some (x, r) => x :: decodeUntil q k w n x x1 nbs.tail r
    | none => []

/-- The words of a block of n that a decoder gives before its code stream ends. -/
def decodedWords (q : CmpParams) (k w n : Nat) (nbs : List Nat) (bs : List Bool) : List Nat :=
  match getField w bs with
  | some (x, r) => x :: decodeUntil q k w (n - 1) x x nbs.tail r
  | none => []

/-- Decode a block of n words from its code stream (R253): its words, and the bits that were not read. -/
def decodeStream (q : CmpParams) (k w n : Nat) (nbs : List Nat) (bs : List Bool) : Option (List Nat × List Bool) :=
  match n with
  | 0 => some ([], bs)
  | n + 1 =>
    (getField w bs).bind fun (x, r) => (decodeRest q k w n x x nbs.tail r).map fun (xs, r) => (x :: xs, r)

/-- The raw area (R231). -/
def rawArea (w : Nat) (xs : List Nat) : List Byte :=
  bytesOfBits (4 * ceilDiv (xs.length * w) 32) ((xs.map (bitsOf w)).flatten)

/-- The words that a raw area spells (R231). -/
def areaWordsOf (w : Nat) : Nat → List Bool → List Nat
  | 0, _ => []
  | n + 1, bs => bitsNum (bs.take w) :: areaWordsOf w n (bs.drop w)

/-- The neighbour block of R251; none where its words count as 0. -/
def neighbourBlock (blocks : List Block) (q : CmpParams) (b : Block) : Option Block :=
  if q.neighbour = b.pixel then none
  else (blocks.find? (·.pixel == q.neighbour)).filter (·.avg == b.avg)

/-! ### The record (R226, R228 to R230, R248) -/

/-- The hit word of a segment (R173, R174): offsets from k0, and next-frame where the pair that corrected it is that of a frame
after the tag-frame edge that follows k0. -/
def hitWord (o : FreezeOrder) (phase : Nat) (h : Hit) : Nat :=
  let k0 := o.firstGlobal
  let edge := k0 - sinceEdge phase (k0 % tagFrameTicks).toNat + tagFrameTicks
  h.pixel + 2 ^ 10 * (h.rise - 128 * k0).toNat + 2 ^ 36 * h.tot + 2 ^ 52 * b2n h.rangeEdge + 2 ^ 53 * b2n h.overflow
    + 2 ^ 54 * b2n h.noFalling + 2 ^ 55 * b2n (decide (edge ≤ h.frame))

/-- An annotation word (R230). -/
def annotationWord (a : Annotation) : Nat := a.value % 2 ^ 24 + 2 ^ 24 * a.count + 2 ^ 40 * a.fst + 2 ^ 56 * a.kind

/-- The bytes of a block with its sample area (R229). -/
def blockBytes (o : FreezeOrder) (phase : Nat) (b : Block) (coded : Bool) (area : List Byte) : List Byte :=
  let has := fun (k : Nat) => b2n (b.annotations.any (·.kind == k))
  leBytes 4 (b.pixel + 2 ^ 10 * b.hits.length + 2 ^ 16 * b.annotations.length + 2 ^ 19 * b.avg + 2 ^ 23 * b.gain
      + 2 ^ 26 * has 1 + 2 ^ 27 * has 2 + 2 ^ 28 * has 4 + 2 ^ 29 * has 3 + 2 ^ 30 * b2n b.openInput + 2 ^ 31 * b2n coded)
    ++ b.pair.bytes ++ (b.hits.map fun h => leBytes 8 (hitWord o phase h)).flatten
    ++ (b.annotations.map fun a => leBytes 8 (annotationWord a)).flatten ++ area

/-- The header of a raw segment, with the fields of R228 as its body; `length` is not yet written (R224). -/
def segmentHead (m : Option PisteMap) (s : RawSeg) : Rec :=
  let o := s.order
  { typ := 0x10, version := 1, origin := selfAddress m
    flags := 2 ^ 8 * b2n o.followed + 2 ^ 9 * b2n s.early
    eventKey := o.key, time := o.time, aux := o.seq % 2 ^ 32
    body := leBytes 1 o.course ++ zeros 1 ++ leBytes 2 s.blocks.length
      ++ leBytes 4 (o.firstGlobal % ticksPerSecond).toNat ++ leBytes 2 o.samples ++ leBytes 2 o.lookBack
      ++ leBytes 4 ((m.map (·.mapId)).getD 0) ++ leBytes 8 o.deadTotal ++ zeros 8 }

/-- The segment record of a header as read, and its blocks by rising pixel (R228, R248). -/
def segmentRec (head : List Byte) (blocks : List (Nat × List Byte)) (poisoned : Bool) : Rec :=
  let sorted := (List.range 1024).filterMap fun p => (blocks.find? (·.1 == p)).map (·.2)
  let r := Rec.ofBytes (head ++ zeros 4)
  { r with flags := r.flags ||| b2n poisoned, body := r.body ++ sorted.flatten }

/-- The missed stub of an order (R238); poisoned where a word it was formed from was not good (R27). -/
def stubRec (m : Option PisteMap) (s : Stub) (poisoned : Bool) : Rec :=
  { typ := 0x12, version := 1, origin := selfAddress m
    flags := b2n poisoned + 2 ^ 8 * b2n s.order.followed + 2 ^ 9 * s.cause + 2 ^ 13 * s.order.course
    eventKey := s.order.key, time := s.order.time, aux := s.order.seq % 2 ^ 32, body := [] }

/-! ### Parameters (R261, R265) -/

/-- The compression entry of a pixel in a map (R261). -/
def mapParams (m : Option PisteMap) (p : Nat) : CmpParams :=
  let o := 16 + 12 * p
  { neighbour := mapNum m 0x0040 0 (o + 2) 2 p, a := ofTwos 8 (mapNum m 0x0040 0 (o + 4) 1 64)
    b := ofTwos 8 (mapNum m 0x0040 0 (o + 5) 1 0), c := ofTwos 8 (mapNum m 0x0040 0 (o + 6) 1 0)
    enable := mapBits m 0x0040 0 (o + 7) 1 0 0 1 == 1
    k := Vector.ofFn fun g => mapNum m 0x0040 0 (o + 8 + g / 2) 1 0x22 / 16 ^ (g.val % 2) % 16 }

/-- The lowest `seq` of the items that CMP has not taken, and the next candidate's where none is left. -/
def Dev.oldestSeq (d : Dev) : Nat :=
  ((d.acq.orders.map (·.seq)) ++ d.acq.segments.map (·.order.seq) ++ d.acq.stubs.map (·.order.seq)).foldl min d.acq.nextSeq

/-- A compression table comes into force for the segments of later freeze orders (R25, R265); tables older than every one still
to serve are forgotten. -/
def Dev.newTable (d : Dev) (mapLow : Nat) (overridden : Bool) (pixels : Vector CmpParams 1024) : Dev :=
  let number := (d.cmp.tables.head?.map (·.number)).getD 0 + 1
  let least := (d.ordersLeft.map (·.table)).foldl min (if d.map.old.isSome then d.cmp.oldTable else number)
  d.modCmp fun c => { c with tables := ⟨number, mapLow, overridden, pixels⟩ :: c.tables.filter fun t => least ≤ t.number }

/-- The table of a map that becomes active; the one before it goes on for candidates of the old map (R202). -/
def Dev.cmpFromMap (d : Dev) : Dev :=
  let m := d.map.active
  let d := d.modCmp fun c => { c with oldTable := (c.tables.head?.map (·.number)).getD 0 }
  d.newTable (((m.map (·.mapId)).getD 0) % 2 ^ 32) false (Vector.ofFn fun p => mapParams m p)

/-- The parameters that serve a pixel of a segment. -/
def Dev.paramsFor (d : Dev) (o : FreezeOrder) (p : Nat) : CmpParams :=
  match d.cmp.tables.find? (·.number == o.table) with
  | some t => getD t.pixels p (mapParams none p)
  | none => mapParams none p

/-! ### Working on a segment (R255 to R260) -/

/-- How a block is stored: the counter it raises, whether coded, its area, its escapes, and the word at which its self-check
first differed. -/
structure Stored where
  reason : Nat
  coded : Bool
  area : List Byte
  escapes : Nat
  differs : Option Nat
  deriving DecidableEq, Repr

/-- Bits of a list flip. -/
def flipBits (faults : List Nat) (bs : List Bool) : List Bool := bs.zipIdx.map fun x => x.1 != faults.contains x.2

/-- Bits of a list of bytes flip. -/
def flipBytes (faults : List Nat) (bs : List Byte) : List Byte :=
  bs.zipIdx.map fun x => (List.range 8).foldl (fun b i => if faults.contains (8 * x.2 + i) then b ^^^ BitVec.twoPow 8 i else b) x.1

/-- The self-check of a coded block (R256): the index of the first word that the decoder gives otherwise than the input; where
every word that it gives agrees but it does not end with the last bit, an index that is free. -/
def selfCheck (q : CmpParams) (k w : Nat) (xs nbs : List Nat) (stream : List Bool) (use : Nat) : Option Nat :=
  let differs := (xs.zip (decodedWords q k w xs.length nbs stream)).findIdx? fun x => x.1 != x.2
  match decodeStream q k w xs.length nbs stream with
  | some (_, []) => differs
  | _ => some (differs.getD (Config.unstated 10 use))

/-- A block of a pixel is stored coded or raw (R255, R256); reasons count as in R263: 0 coded, 1 not shrinking,
2 `enable` 0, 3 mismatch, 4 poison, 5 flush. `raw` is its raw area as read; `faults` are bits of its code stream that come out
wrong. -/
def storeBlock (q : CmpParams) (nbs : List Nat) (b : Block) (raw : List Byte) (flushed poison : Bool) (faults : List Nat) (use : Nat) :
    Stored :=
  if !q.enable then ⟨2, false, raw, 0, none⟩
  else if flushed then ⟨5, false, raw, 0, none⟩
  else if poison then ⟨4, false, raw, 0, none⟩
  else
    let k := getD q.k b.gain 0
    let (stream, escapes) := codeStream q k b.width b.words nbs
    let stream := flipBits faults stream
    let area := codedArea q k stream
    match selfCheck q k b.width b.words nbs stream use with
    | some i => ⟨3, false, raw, 0, some i⟩
    | none => if raw.length ≤ area.length then ⟨1, false, raw, 0, none⟩ else ⟨0, true, area, escapes, none⟩

/-- Count a stored block (R263). -/
def CmpCounters.block (c : CmpCounters) (x : Stored) (rawBytes : Nat) : CmpCounters :=
  let c := { c with escapes := c.escapes + x.escapes, bytesIn := c.bytesIn + rawBytes, bytesOut := c.bytesOut + x.area.length }
  match x.reason with
  | 0 => { c with coded := c.coded + 1 }
  | 1 => { c with notShrinking := c.notShrinking + 1 }
  | 2 => { c with disabled := c.disabled + 1 }
  | 3 => { c with mismatch := c.mismatch + 1 }
  | 4 => { c with poison := c.poison + 1 }
  | _ => { c with flushed := c.flushed + 1 }

/-- The raw block of segment memory (R229, R231): its header, pair, hit words, annotation words and raw sample area. -/
def Dev.rawBlock (d : Dev) (o : FreezeOrder) (b : Block) : List Byte :=
  blockBytes o (mapNum (d.orderMap o) 0x0038 0 28 4 0) b false (rawArea b.width b.words)

/-- CMP reads bytes of a segment from one on, in its turns, under SEC-DED (R22, R26, R28, R394). -/
def Dev.readSeg (d : Dev) (s : RawSeg) (first : Nat) (bytes : List Byte) : Dev × List (Byte × Bool) :=
  let at_ := bytes.zipIdx.map fun x => (s.address (first + x.2), x.1)
  (d.takeTurns 0 1 (at_.map fun x => macroAt x.1)).readArea 0 2 at_

/-- CMP reads a block. -/
def Dev.readBlock (d : Dev) (s : RawSeg) (b : Block) : Dev × List (Byte × Bool) :=
  d.readSeg s (s.offsetOf b.pixel) (d.rawBlock s.order b)

/-- The neighbour's words as CMP reads them, 0 where there are none (R251). -/
def Dev.neighbourWords (d : Dev) (s : RawSeg) (q : CmpParams) (b : Block) : Dev × List Nat :=
  match neighbourBlock s.blocks q b with
  | none => (d, [])
  | some n =>
    let (d, l) := d.readSeg s (s.offsetOf n.pixel + n.headLength) (rawArea n.width n.words)
    (d, if anyBad l then areaWordsOf n.width n.words.length ((l.map (·.1)).flatMap fun x => bitsOf 8 x.toNat) else n.words)

/-- Output words of 64 bits are written into the output buffer: a word with a damaged byte in its poisoned form (R27, R395). -/
def Dev.outputWords (d : Dev) (bad : List Bool) : Dev × List ParityBits :=
  (List.range (ceilDiv bad.length 8)).foldl (fun (x : Dev × List ParityBits) i =>
    let (d, w) := x.1.writeForm 2 0 (if ((bad.drop (8 * i)).take 8).any id then .poisoned else .good) false
    (d, x.2 ++ [w])) (d, [])

/-- Bits of output words flip: each flips the parity of its word. -/
def flipWords (faults : List Nat) (ws : List ParityBits) : List ParityBits :=
  ws.zipIdx.map fun x => if (faults.countP fun f => f / 64 == x.2) % 2 = 1 then x.1.flip else x.1

/-- A fault of a kind in a pixel's block: the bits that come out wrong. -/
def faultBits (l : List CmpFault) (p kind : Nat) : List Nat := ((l.find? fun f => f.pixel == p && f.kind == kind).map (·.bits)).getD []

/-- The header of a block with its `coded` bit as stored (R248). -/
def codedHeader (head : List Byte) (coded : Bool) : List Byte :=
  if coded then head.set 3 ((head[3]?.getD 0) ||| 0x80) else head

/-- A pipeline finishes a block of the segment under way (R248, R255, R256): an output word with a damaged input byte carries the
poisoned form (R27, R28); words may be upset in the output buffer. -/
def Dev.finishCmpBlock (d : Dev) (j : CmpJob) (s : RawSeg) (faults : List CmpFault) (b : Block) : Dev × CmpJob :=
  let o := s.order
  let q := d.paramsFor o b.pixel
  let (d, r) := d.readBlock s b
  let (d, nbs) := d.neighbourWords s q b
  let head := r.take b.headLength
  let raw := (r.drop b.headLength).map (·.1)
  let hurt := anyBad (r.drop b.headLength)
  let x := storeBlock q nbs b raw (j.flushed.contains b.pixel) hurt (faultBits faults b.pixel 0) d.free
  let d := { d with free := d.free + 1 }
  let d := d.countCmp (·.block x raw.length)
  let d := match x.differs with
    | some i => d.raiseLimited 1376 0 0 [evNat b.pixel, evNat (o.seq % 2 ^ 32), evNat i]
    | none => d
  let area := if x.coded then x.area else flipBytes (faultBits faults b.pixel 1) x.area
  let rawDiffers := !x.coded && area != raw
  let d := if rawDiffers then d.raise 1377 0 [evNat b.pixel, evNat (o.seq % 2 ^ 32)] else d
  let bytes := codedHeader (head.map (·.1)) x.coded ++ area
  let bad := head.map (·.2) ++ (if x.coded then [] else (r.drop b.headLength).map fun y => y.2 || rawDiffers)
  let (d, words) := d.outputWords (bad ++ List.replicate (bytes.length - bad.length) false)
  let flips := faultBits faults b.pixel 2
  let sent := flipBytes flips bytes
  (d, { j with
    done := j.done ++ [⟨b.pixel, sent, flipWords flips words, sent != bytes⟩], poisoned := j.poisoned || bad.any id })

/-- The segment of an item, none for a stub. -/
def CmpItem.segment? : CmpItem → Option RawSeg
  | .segment s => some s
  | .stub _ => none

/-- The blocks of the segment under way. -/
def CmpJob.blocks (j : CmpJob) : List Block := (j.item.segment?.map (·.blocks)).getD []

/-- The blocks of a pipeline's tile in the segment under way, ascending (R257). -/
def CmpJob.tileBlocks (j : CmpJob) (n : Nat) : List Block := j.blocks.filter fun b => tileOf b.pixel == n

/-- Blocks of a pipeline that are still to be finished. -/
def CmpJob.left (j : CmpJob) (n : Nat) : List Block :=
  (j.tileBlocks n).filter fun b => !(j.done.any (·.pixel == b.pixel))

/-- Every block of the item is finished. -/
def CmpJob.coded (j : CmpJob) : Bool := (List.range 64).all fun n => (j.left n).isEmpty

/-- The pipelines that do not wait go on until each has finished as many blocks as the operand says, or all of them (R257). -/
def Dev.advanceJob (d : Dev) (j : CmpJob) (blocks : List Nat) (faults : List CmpFault) : Dev × CmpJob :=
  match j.item with
  | .stub _ => (d, j)
  | .segment s =>
    (List.range 64).foldl (fun (x : Dev × CmpJob) n =>
      if x.2.wait.any (·.pipeline == n) then x
      else
        let done := (x.2.tileBlocks n).length - (x.2.left n).length
        let goal := (blocks[n]?).getD 1024
        ((x.2.left n).take (goal - done)).foldl (fun (x : Dev × CmpJob) b => x.1.finishCmpBlock x.2 s faults b) x) (d, j)

/-- Flushes whose last record has been written are answered, with event 1378 (R260). -/
def Dev.answerFlushes (d : Dev) (seq : Nat) : Dev :=
  let done := d.cmp.flushes.filter (·.last == seq)
  done.foldl (fun d f => (d.finish f.ctx .ok (leBytes 4 f.count)).raise 1378 0 [evNat f.count, evNat f.scope])
    (d.modCmp fun c => { c with flushes := c.flushes.filter (·.last != seq) })

/-- A record of CMP stands whole in merge memory, in the chain it has taken (R247, R289). -/
def Dev.recordWritten (d : Dev) (r : Rec) (stub : Bool) (o : FreezeOrder) (chain : List Nat) : Dev :=
  let (d, q) := d.placeRec r.bytes r.eventKey .loc chain
  let d := d.countCmp fun c =>
    if stub then { c with stubs := c.stubs + 1 } else { c with records := c.records + 1 }
  let d := { d with acq := { d.acq with segments := d.acq.segments.filter (·.order.seq != o.seq) } }
  let d := d.modCmp fun c => { c with flushSegs := c.flushSegs.filter (· != o.seq) }
  (((d.checkBusy).noteSent r).toBuilder { q with old := o.oldMap }).answerFlushes o.seq

/-- Bytes of the record under way that stand ready to be written, in order (R226, R228, R247): of a segment the header and the
blocks finished from the first on, the trailer with the last of them; of a stub all. The second part is the pipeline that gives
the next bytes after so many. -/
def CmpJob.ready (j : CmpJob) : Nat :=
  match j.item with
  | .stub _ => 36
  | .segment s =>
    let sizes := s.blocks.map fun b => (j.done.find? (·.pixel == b.pixel)).map (·.bytes.length)
    64 + ((sizes.takeWhile Option.isSome).map (·.getD 0)).sum + if j.coded then 4 else 0

/-- The pipeline that writes the byte after the first n of the record under way: that of the tile of its block, pipeline 0 for
the header (R257). -/
def CmpJob.writerAt (j : CmpJob) (n : Nat) : Nat :=
  (j.blocks.foldl (fun (x : Nat × Nat) b =>
    let size := ((j.done.find? (·.pixel == b.pixel)).map (·.bytes.length)).getD 0
    (x.1 + size, if x.1 ≤ n then tileOf b.pixel else x.2)) (64, 0)).2

/-- Chain buffers of the local pool are taken, one at a time, for as long as the client may take one. -/
def Dev.growChain (d : Dev) (client : Nat) : Nat → List Nat → Dev × List Nat
  | 0, l => (d, l)
  | n + 1, l =>
    if d.mayTake client then
      let (d, more) := (d.countBufs .loc (· + 1)).takeBuffers client 1
      d.growChain client n (l ++ more)
    else (d, l)

/-- The wait of a pipeline ends: it is counted (R259). -/
def Dev.waitEnds (d : Dev) (w : Option CmpWait) : Dev :=
  match w with
  | some w => d.countCmp fun c => { c with waited := c.waited + (d.sys.ticks - w.since) }
  | none => d

/-- A pipeline waits for a chain buffer, anew or still: event 1379 where none is free (R259, R263). -/
def Dev.waitGoes (d : Dev) (n : Nat) (w : Option CmpWait) : Dev × CmpWait :=
  let w : CmpWait := (w.map fun w => { w with pipeline := n }).getD ⟨n, d.sys.ticks, false⟩
  if d.localFree = 0 && !w.noted then (d.raiseLimited 1379 0 0 [evNat n, evNat d.localFree], { w with noted := true }) else (d, w)

/-- The record under way takes chain buffers, one at a time, for the bytes that stand ready (R258, R259). Where it can have none, the
pipeline that needs one waits; a buffer taken ends the wait for it. -/
def Dev.growJob (d : Dev) (j : CmpJob) : Dev × CmpJob :=
  let need := chainBuffers j.ready
  let (d, chain) := d.growChain 0 (need - j.chain.length) j.chain
  let d := if j.chain.length < chain.length || need ≤ chain.length then d.waitEnds j.wait else d
  let wait := if j.chain.length < chain.length then none else j.wait
  let j := { j with chain := chain }
  if need ≤ chain.length then (d, { j with wait := none })
  else
    let (d, w) := d.waitGoes (j.writerAt (4088 * chain.length)) wait
    (d, { j with wait := some w })

/-- The parity of the output words is verified as they are written into merge memory, and the record CRC at the record's end: a
failure poisons the record (R28). -/
def Dev.writeOutput (d : Dev) (j : CmpJob) (parity : Bool) : Dev × Bool :=
  let (d, own) := d.writeWord 2 0 (!parity)
  let (d, good) := (own :: (j.headParity ++ j.done.flatMap (·.parity))).foldl (fun (x : Dev × Bool) w =>
    let (d, ok) := x.1.verifyWord 2 0 w
    (d, x.2 && ok)) (d, true)
  let good := good && !j.done.any (·.changed)
  (if good || j.poisoned then d else d.notePoisoned 3, good)

/-- The record of an item whose blocks are all finished. -/
def Dev.jobRecord (d : Dev) (j : CmpJob) (poisoned : Bool) : Rec :=
  match j.item with
  | .segment _ => segmentRec j.head (j.done.map fun b => (b.pixel, b.bytes)) poisoned
  | .stub s => stubRec (d.orderMap s.order) s poisoned

/-- The item under way goes on: its record grows, and is whole once every byte of it is written (R247, R258). -/
def Dev.putJob (d : Dev) (j : CmpJob) (parity : Bool) : Dev :=
  let (d, j) := d.growJob j
  if j.coded && j.wait.isNone then
    let (d, ok) := d.writeOutput j parity
    let d := d.modCmp fun c => { c with job := none }
    let d := if j.item.segment?.isSome then d.measure 6 0 (ticksNs (d.sys.ticks - j.taken)) else d
    d.recordWritten (d.jobRecord j (j.poisoned || !ok)) j.item.segment?.isNone j.item.order j.chain
  else d.modCmp fun c => { c with job := some j }

/-- The 64 header bytes of a segment as CMP reads them, and the parity of their output words (R228, R248, R264). -/
def Dev.readHead (d : Dev) (s : RawSeg) : Dev × List (Byte × Bool) × List ParityBits :=
  let (d, l) := d.readSeg s 0 (segmentHead (d.orderMap s.order) s).head
  let (d, ws) := d.outputWords (l.map (·.2))
  (d, l, ws)

/-- CMP is ready for the next item: the raw segment or stub of lowest `seq`, once that is complete (R224, R239, R247). -/
def Dev.takeNext (d : Dev) : Dev :=
  let next := d.oldestSeq
  let job : CmpItem → CmpJob := fun x => ⟨x, [], [], false, [], [], d.sys.ticks, [], none⟩
  let start := fun (d : Dev) (j : CmpJob) => d.modCmp fun c => { c with seq := next, job := some j }
  match d.acq.stubs.find? (·.order.seq == next) with
  | some s =>
    start { d with acq := { d.acq with stubs := d.acq.stubs.filter (·.order.seq != next) } }
      { job (.stub s) with poisoned := !s.order.parity.ok }
  | none =>
    match d.acq.segments.find? fun s => s.order.seq == next && s.closed with
    | some s =>
      let d := d.modAcqCounters fun c => { c with segments := (c.segments + 1) % 2 ^ 64 }
      let (d, head, ws) := d.readHead s
      let d := if anyBad head && !s.poisoned then d.notePoisoned 2 else d
      start d { job (.segment s) with
        flushed := if d.cmp.flushSegs.contains next then s.blocks.map (·.pixel) else []
        poisoned := s.poisoned || anyBad head, head := head.map (·.1), headParity := ws }
    | none => d

/-- CMP works: it takes the next item where it has none, and its pipelines go on with the segment under way; a
finished item becomes a record (R247, R248). -/
def Dev.cmpSegment (d : Dev) (blocks : List Nat) (faults : List CmpFault) (upsets : List Upset) (parity : Bool) : Dev :=
  let (d, hurt) := (d.applyUpsets (upsets.filter (·.cls != 3))).readUpsets 2 (upsets.filter (·.cls == 3))
  let d := if d.cmp.job.isNone then d.takeNext else d
  match d.cmp.job with
  | none => d
  | some j =>
    let was := j.poisoned
    let (d, j) := d.advanceJob { j with poisoned := j.poisoned || hurt } blocks faults
    let d := if j.poisoned && !was then d.notePoisoned 2 else d
    if j.wait.isSome then d.modCmp fun c => { c with job := some j } else d.putJob j parity

/-- CMP_SEGMENT: how many blocks each pipeline has finished when this step ends (all, where the list gives no number
for it), the bits of codes, raw copies and output words that come out wrong, the bits of memory that have flipped before its reads
and the words of the compression table that these meet upset, and whether the bits of the record's last output word stay as
written. -/
def execCmpSegment (blocks : List Nat) (findings : CmpFindings) (upsets : List Upset) (parity : Bool) (s : State) :
    Host.Outcome State Fault Refusal :=
  .next (s.onDev (·.cmpSegment blocks findings.faults upsets parity))

/-- A client that waits for chain buffers goes on in its turn (R22, R259, R297). -/
def Dev.serveWaiting (d : Dev) (client : Nat) : Dev :=
  match client with
  | 0 => match d.cmp.job with
    | some j => d.putJob j true
    | none => d
  | 2 => if d.mayJoin none then d.joinOne none else d.handEvents
  | _ => d.joinWriters.closeFrames

/-- Chain buffers are free again: the clients that wait for them go on in the turns of the rotation of the macro that holds the next
one, for as long as a buffer is free and one of them can use it (R22, R44, R259, R297). Without a rotation no map is active, and
none waits. -/
def Dev.serveBuffers (d : Dev) : Nat → Dev
  | 0 => d
  | n + 1 =>
    if d.localFree = 0 then d
    else
      match d.nextClient 1 (macroAt (4096 * d.nextBuf)) d.waitsForBuffer with
      | some (c, _) => (d.serveWaiting c).serveBuffers n
      | none => d

/-- CHAIN_BUFFER_FREED: every turn of a waiting client ends a wait or takes a buffer, of which there are 8,192. -/
def execChainBufferFreed (s : State) : Host.Outcome State Fault Refusal :=
  .next (s.onDev fun d => d.serveBuffers (8192 + d.mrg.waiting.length))

/-! ### Commands (R265) -/

/-- `CMP.STATUS`. -/
def cmpStatusKind : CmdKind := ⟨0x0700, false, upStates⟩

/-- The pixel a pipeline is coding; 0xFFFF where it is idle (R460). -/
def Dev.codingPixel (d : Dev) (n : Nat) : Nat :=
  match d.cmp.job with
  | none => 0xFFFF
  | some j => match j.left n with
    | [] => 0xFFFF
    | b :: _ => b.pixel

/-- The 152 bytes of `CMP.STATUS` (R460); `seq` is free while no record is being formed. -/
def cmpStatusData (d : Dev) : List Byte :=
  let wait := d.cmp.job.bind (·.wait)
  leBytes 4 (if d.cmp.job.isSome then d.cmp.seq % 2 ^ 32 else Config.unstated 6 d.free)
    ++ leBytes 2 ((d.cmp.job.map (·.chain.length)).getD 0) ++ zeros 2
    ++ leBytes 8 (wait.elim 0 fun w => 2 ^ w.pipeline) ++ ((List.range 64).map fun n => leBytes 2 (d.codingPixel n)).flatten
    ++ leBytes 4 ((d.cmp.tables.head?.map (·.mapLow)).getD (Config.unstated 9 d.free)) ++ leBytes 1 (b2n (d.cmp.tables.head?.any (·.overridden))) ++ zeros 3

/-- CMP_STATUS. -/
def execCmpStatus (h : CmdHeader) (s : State) : Host.Outcome State Fault Refusal :=
  .next (hostRun (.cmpStatus h) cmpStatusKind h (readsFree cmpStatusData) s)

/-- `CMP.COUNTERS`. -/
def cmpCountersKind : CmdKind := ⟨0x0701, false, upStates⟩

/-- The 96 bytes of `CMP.COUNTERS` (R460); ticks become ns rounded down (R8). -/
def cmpCountersData (d : Dev) : List Byte :=
  let c := d.cmp.counters
  let waited := c.waited + ((d.cmp.job.bind (·.wait)).elim 0 fun w => d.sys.ticks - w.since)
  ([c.records, c.stubs, c.coded, c.notShrinking, c.disabled, c.mismatch, c.poison, c.flushed, c.escapes, c.bytesIn,
    c.bytesOut, waited * 1000 / 2560].map (leBytes 8)).flatten

/-- The counters cleared. -/
def CmpCounters.zero : CmpCounters :=
  { records := 0, stubs := 0, coded := 0, notShrinking := 0, disabled := 0, mismatch := 0, poison := 0, flushed := 0
    escapes := 0, bytesIn := 0, bytesOut := 0, waited := 0 }

/-- The counters at 0; a wait under way counts from now on. -/
def Dev.clearCmpCounters (d : Dev) : Dev :=
  let now := d.sys.ticks
  d.modCmp fun c => { c with
    counters := CmpCounters.zero
    job := c.job.map fun j => { j with wait := j.wait.map fun w => { w with since := now } } }

/-- Read the counters and clear them where asked (R451). -/
def cmpCountersEff (clear : Bool) : Effect := onDev fun _ _ d =>
  (if clear then d.clearCmpCounters else d, .done .ok (cmpCountersData d))

/-- CMP_COUNTERS. -/
def execCmpCounters (h : CmdHeader) (clear : Bool) (s : State) : Host.Outcome State Fault Refusal :=
  .next (hostRun (.cmpCounters h clear) cmpCountersKind h (cmpCountersEff clear) s)

/-- `CMP.FLUSH`. -/
def cmpFlushKind : CmdKind := ⟨0x0702, false, [.running, .quiesce]⟩

/-- Pixels of blocks that would be coded, out of a segment's (R255, R260). -/
def Dev.codable (d : Dev) (o : FreezeOrder) (bs : List Block) : List Nat :=
  (bs.filter fun b => (d.paramsFor o b.pixel).enable).map (·.pixel)

/-- The blocks that a flush ends in the segment under way (R260). -/
def Dev.flushedBlocks (d : Dev) (scope : Nat) (j : CmpJob) : List Nat :=
  let bs := (List.range 64).flatMap fun n => if scope = 1 then j.left n else (j.left n).take 1
  (d.codable j.item.order bs).filter fun p => !j.flushed.contains p

/-- Flush: the blocks under way, with `scope` 1 every block not yet coded of the complete segments; the answer follows
the record that holds the last of them (R260). -/
def cmpFlushEff (scope : Nat) : Effect := onDev fun _ c d =>
  if 1 < scope then (d, .done .outOfRange [])
  else
    let now := match d.cmp.job with | none => [] | some j => d.flushedBlocks scope j
    let here := (d.cmp.job.map (·.item.order.seq)).toList
    let others := if scope = 1 then d.acq.segments.filter fun s => s.closed && !here.contains s.order.seq
      && !d.cmp.flushSegs.contains s.order.seq else []
    let counts := others.map fun s => (s.order.seq, (d.codable s.order s.blocks).length)
    let total := now.length + (counts.map (·.2)).sum
    let last := (((counts.filter (·.2 != 0)).map (·.1)) ++ (if now.isEmpty then [] else here)).foldl max 0
    let mark : CmpState → CmpState := fun x => { x with
      job := x.job.map (fun j => { j with flushed := j.flushed ++ now }), flushSegs := x.flushSegs ++ counts.map (·.1) }
    let d := d.modCmp mark
    if total = 0 then (d.raise 1378 0 [evNat 0, evNat scope], .done .ok (leBytes 4 0))
    else (d.modCmp fun x => { x with flushes := x.flushes ++ [⟨c, scope, total, last⟩] }, .wait)

/-- CMP_FLUSH. -/
def execCmpFlush (h : CmdHeader) (scope : Nat) (s : State) : Host.Outcome State Fault Refusal :=
  .next (hostRun (.cmpFlush h scope) cmpFlushKind h (cmpFlushEff scope) s)

/-- `CMP.SET_PARAMS`. -/
def cmpSetParamsKind : CmdKind := ⟨0x0703, true, [.ready, .running]⟩

/-- The parameters of `CMP.SET_PARAMS` for a pixel; the neighbour is given by its distance (R459). -/
def commandParams (distance a b c : Nat) (enable : Bool) (k : List Nat) (p : Nat) : CmpParams :=
  ⟨p - distance, ofTwos 8 a, ofTwos 8 b, ofTwos 8 c, enable, Vector.ofFn fun g => (k[g.val]?).getD 0⟩

/-- Set the parameters of a range for the segments of later freeze orders. -/
def Dev.setParams (d : Dev) (r : Range) (f : Nat → CmpParams) : Dev :=
  match d.cmp.tables with
  | [] => d
  | t :: _ => d.newTable t.mapLow true (modRange t.pixels r fun p _ => f p)

/-- Values that break a check of R262, or a distance below pixel 0, are OUT_OF_RANGE (R265, R459). -/
def cmpSetParamsEff (i : Instr) (first last distance c : Nat) (k : List Nat) : Effect := onDev fun _ _ d =>
  if pixelRange first last && distance ≤ first && k.all (· ≤ 11) && (distance != 0 || c == 0) then
    atBoundary i d
  else (d, .done .outOfRange [])

/-- CMP_SET_PARAMS. -/
def execCmpSetParams (h : CmdHeader) (first last distance a b c : Nat) (enable : Bool) (k : List Nat) (s : State) :
    Host.Outcome State Fault Refusal :=
  let i := Instr.cmpSetParams h first last distance a b c enable k
  .next (hostRun i cmpSetParamsKind h (cmpSetParamsEff i first last distance c k) s)

end Sys2Proof.Machine
end

