-- ==== Sys2Proof/Machine/MapFields.lean ====
section
/-! DEFINITION. The fields of every section of a piste map with the values they may have, and the checks that read one
section (R13, R36 to R44, R49, and the load checks of the owning chapters). A range that depends on another field is
tested only where its own check does not test it (R49). -/

namespace Sys2Proof.Machine

/-! ### Fields -/

/-- A field of a table: its bytes in the entry, its bits, and the values it may have, given the entry and its index. -/
structure Field where
  off : Nat
  size : Nat
  hi : Nat
  lo : Nat
  ok : List Byte → Nat → Nat → Bool

/-- Repeated fields of a section: where the first element stands, how far apart they are, how many there are, and whether
the elements are the section's entries. -/
structure Area where
  start : Nat
  stride : Nat
  count : Nat
  entry : Bool
  fields : List Field

/-- What a check of a section finds: the offset of the failing field in the section, and its entry. -/
abbrev Found := Option (Nat × Option Nat)

/-- A field whose values lie between two bounds. -/
def rg (off size hi lo a b : Nat) : Field := ⟨off, size, hi, lo, fun _ _ v => a ≤ v && v ≤ b⟩

/-- A byte between two bounds. -/
def byteIn (off a b : Nat) : Field := rg off 1 7 0 a b

/-- Two bytes between two bounds. -/
def halfIn (off a b : Nat) : Field := rg off 2 15 0 a b

/-- Four bytes between two bounds. -/
def wordIn (off a b : Nat) : Field := rg off 4 31 0 a b

/-- Reserved bits of a byte. -/
def spare (off hi lo : Nat) : Field := rg off 1 hi lo 0 0

/-- Reserved bytes. -/
def spareBytes (off size : Nat) : Field := rg off size (8 * size - 1) 0 0 0

/-- A field whose values depend on the entry it stands in. -/
def dep (off size : Nat) (ok : List Byte → Nat → Bool) : Field := ⟨off, size, 8 * size - 1, 0, fun e _ v => ok e v⟩

/-- A time word: R10, and its reserved bytes 0. -/
def twField (off : Nat) : Field := dep off 12 fun e _ => (timeWordAt e off).legal && fieldAt e (off + 10) 2 == 0

/-- The value of a field. -/
def Field.value (x : Field) (e : List Byte) : Nat := bits (fieldAt e x.off x.size) x.hi x.lo

/-- The first field of an element that has a value outside its range. -/
def badField (fields : List Field) (e : List Byte) (i : Nat) : Option Field := fields.find? fun x => !x.ok e i (x.value e)

/-- The first field of an area outside its range, by ascending position. -/
def Area.found (a : Area) (bs : List Byte) : Found :=
  (List.range a.count).findSome? fun i =>
    let base := a.start + a.stride * i
    (badField a.fields (sliceBytes bs base a.stride) i).map fun x =>
      (base + x.off + x.lo / 8, if a.entry then some i else none)

/-- `entry_count` of a section (R36). -/
def entryCount (bs : List Byte) : Nat := fieldAt bs 8 4

/-- `entry_count` is not what it must be: the field fails. -/
def countBetween (a b : Nat) (bs : List Byte) : Found := if a ≤ entryCount bs && entryCount bs ≤ b then none else some (8, none)

/-- Every element's index field equals its number. -/
def indexed (start stride count size : Nat) (entry : Bool) (bs : List Byte) : Found :=
  ((List.range count).find? fun i => fieldAt bs (start + stride * i) size != i).map fun i =>
    (start + stride * i, if entry then some i else none)

/-- The first entry of a section that fails a test, given the entry and the entries before it; the test gives the offset of
the failing field in the entry. -/
def firstEntry (stride : Nat) (bs : List Byte) (test : Nat → List Byte → Option Nat) : Found :=
  (List.range (entryCount bs)).findSome? fun i =>
    (test i (sliceBytes bs (16 + stride * i) stride)).map fun o => (16 + stride * i + o, some i)

/-- A test that fails at one field. -/
def failAt (off : Nat) (bad : Bool) : Option Nat := if bad then some off else none

/-- A check over a whole section, whose first byte stands behind the preamble. -/
def whole (bad : Bool) : Found := if bad then some (16, none) else none

/-- An earlier entry holds the same value in a field. -/
def repeated (bs : List Byte) (stride off size i : Nat) : Bool :=
  (List.range i).any fun k => fieldAt bs (16 + stride * k + off) size == fieldAt bs (16 + stride * i + off) size

/-! ### Section types (R36, R37) -/

/-- `entry_size` of each type of R37; none for a type R37 does not name. -/
def entrySizeOf (typ : Nat) : Option Nat :=
  match typ with
  | 0x01 => some 4 | 0x02 => some 16 | 0x03 => some 8 | 0x04 => some 20 | 0x05 => some 0
  | 0x10 => some 8 | 0x11 => some 24 | 0x12 => some 36 | 0x13 => some 32 | 0x14 => some 52 | 0x15 => some 24
  | 0x20 => some 8 | 0x21 => some 8 | 0x28 => some 32 | 0x29 => some 8
  | 0x30 => some 656 | 0x31 => some 0 | 0x32 => some 24 | 0x38 => some 0 | 0x39 => some 144
  | 0x40 => some 12 | 0x48 => some 4 | 0x49 => some 8 | 0x4A => some 4 | 0x4B => some 0
  | 0x50 => some 16 | 0x58 => some 32 | 0x60 => some 16 | 0x61 => some 8
  | 0x68 => some 16 | 0x69 => some 0 | 0x6A => some 20 | 0x70 => some 0
  | _ => none

/-- The length of a section with so many entries (R36, and the types whose `entry_size` is 0). -/
def sectionLength (typ count : Nat) : Nat :=
  match typ with
  | 0x05 => 96
  | 0x31 => 8208 + 32 * count
  | 0x38 => 64 + count
  | 0x4B => 576
  | 0x69 => 4672
  | 0x70 => 288
  | _ => 16 + count * (entrySizeOf typ).getD 0

/-- The highest instance of a type (R37). -/
def highestInstance (typ : Nat) : Nat :=
  match typ with
  | 0x14 => 7 | 0x31 => 15 | 0x39 => 15 | 0x48 => 7
  | _ => 0

/-- The types of R37, in ascending order. -/
def sectionTypes : List Nat :=
  [0x01, 0x02, 0x03, 0x04, 0x05, 0x10, 0x11, 0x12, 0x13, 0x14, 0x15, 0x20, 0x21, 0x28, 0x29, 0x30, 0x31, 0x32, 0x38, 0x39,
    0x40, 0x48, 0x49, 0x4A, 0x4B, 0x50, 0x58, 0x60, 0x61, 0x68, 0x69, 0x6A, 0x70]

/-! ### The fields of each section -/

/-- Hardware pipelines of each fabric station (R41). -/
def stationPipelines : List Nat := [1024, 64, 16, 64, 64, 64, 16, 32, 32, 8, 4]

/-- Bounds of the depth of each crossing (R43). -/
def depthBounds (crossing : Nat) : Nat × Nat :=
  match crossing with
  | 0 => (16, 4096) | 1 => (64, 4096) | 2 => (256, 8192) | 3 => (64, 4096)
  | _ => (0, 0)

/-- Bounds of N of each kind of fault (R406). -/
def faultCounts (kind : Nat) : Nat × Nat :=
  match kind with
  | 0 => (2, 4) | 1 => (2, 64) | 2 => (2, 16) | _ => (2, 64)

/-- `index` of a quantity of R536 is one of its instances. -/
def quantityIndex (q i : Nat) : Bool :=
  match q with
  | 2 => i ≤ 16
  | 3 => i ≤ 3
  | 4 => i == 0 || (64 ≤ i && i ≤ 135) || (192 ≤ i && i ≤ 255)
  | 8 => i ≤ 234
  | 9 => i ≤ 7
  | _ => i == 0

/-- An input word has a kind, an index and a param of R187. -/
def inputWordOk (w : Nat) : Bool :=
  let i := bits w 27 16
  let p := bits w 15 0
  match bits w 31 28 with
  | 0 => i == 0 && p == 0
  | 1 => i ≤ 1023 && p == 0
  | 2 => i ≤ 63 && 1 ≤ p && p ≤ 16
  | 3 => i == 0 && 1 ≤ p && p ≤ 1024
  | 4 => i ≤ 15 && p == 0
  | 5 => i ≤ 3 && p == 0
  | 6 => i ≤ 16 && 1 ≤ p
  | _ => false

/-- A field of a gate in use: `g` is its number (R191). -/
def gateIn (g off size : Nat) (ok : Nat → Bool) : Field :=
  dep (16 + 40 * g + off) size fun e v => fieldAt e 1 1 ≤ g || ok v

/-- The fields of one gate (R191, R187). -/
def gateFields (g : Nat) : List Field :=
  [gateIn g 0 4 inputWordOk, gateIn g 4 4 inputWordOk, gateIn g 8 4 inputWordOk, gateIn g 12 4 inputWordOk,
    gateIn g 18 2 (1 ≤ ·), gateIn g 20 4 inputWordOk, gateIn g 24 4 (· ≤ 2560000000), gateIn g 28 4 (· ≤ 2560000000),
    gateIn g 32 1 (· ≤ 16), gateIn g 33 1 (· ≤ 15), dep (16 + 40 * g + 34) 2 fun _ v => v == 0,
    dep (16 + 40 * g + 36) 4 fun _ v => v == 0]

/-- Fields of the entries of the sections of this chapter and of the front end. DESIGN CHOICE (log entry 10): a range that depends
on another field (pipelines above the hardware's count, a crossing's depth, a port not equal to its index) is reported by the
range check 0x0012, not by 0x0013; the spec does not say by which. -/
def frontFields (typ : Nat) : List Field :=
  match typ with
  | 0x01 => [⟨0, 1, 7, 0, fun _ i v => v ≤ 7 && v == i⟩, byteIn 1 0 4, spareBytes 2 2]
  | 0x02 =>
    [byteIn 0 0 10, dep 1 1 fun _ v => v ≤ 31 || v == 255,
      dep 2 2 fun e v => 1 ≤ v && v ≤ stationPipelines[fieldAt e 0 1]?.getD 0,
      wordIn 4 100 1000000, wordIn 8 100 1000000, halfIn 12 100 1000, spareBytes 14 2]
  | 0x03 =>
    [byteIn 0 0 3, byteIn 1 0 7, spareBytes 2 2,
      dep 4 4 fun e v => (depthBounds (fieldAt e 0 1)).1 ≤ v && v ≤ (depthBounds (fieldAt e 0 1)).2]
  | 0x04 => [byteIn 0 0 1, byteIn 1 2 16, spareBytes 2 2]
  | 0x10 =>
    [halfIn 0 0 1023, byteIn 2 0 7, spare 3 7 2, byteIn 6 1 255, byteIn 7 1 64]
  | 0x11 =>
    [halfIn 0 0 1023, dep 2 2 fun e v => fieldAt e 0 2 ≤ v && v ≤ 1023, byteIn 4 0 7, spare 5 7 1, spareBytes 6 2,
      twField 8, spareBytes 20 4]
  | 0x12 =>
    [halfIn 0 0 1023, spareBytes 3 1]
      ++ (List.range 8).flatMap fun g => [halfIn (4 + 4 * g) 0 1023, halfIn (6 + 4 * g) 0 1023]
  | 0x13 =>
    let periodic := fun (e : List Byte) => fieldAt e 1 1 == 1
    [byteIn 0 0 63, byteIn 1 0 5, dep 2 2 fun _ v => v == 0 || (2000 ≤ v && v ≤ 7200), halfIn 4 1 100, byteIn 6 0 200,
      byteIn 7 1 50, byteIn 8 0 100, dep 9 1 fun _ v => v ≤ 16 || (32 ≤ v && v ≤ 159), halfIn 10 1 1000,
      dep 12 4 fun e v => !periodic e || (2560 ≤ v && v ≤ 2560000000), dep 20 4 fun e v => !periodic e || 1 ≤ v,
      halfIn 24 0 3600, spareBytes 26 2, spareBytes 28 4]
  | 0x14 => [halfIn 0 0 1023, spareBytes 2 2]
  | 0x15 =>
    [byteIn 0 0 127, byteIn 1 0 2, byteIn 2 1 100, byteIn 3 1 100, spare 4 7 1, spareBytes 5 3, spareBytes 20 4]
  | _ => []

/-- Fields of the entries of the converter, time, interpolator, Slalom, acquisition and compression tables. -/
def middleFields (typ : Nat) : List Field :=
  match typ with
  | 0x20 => [halfIn 0 0 1023, spare 2 7 2, byteIn 3 16 24, byteIn 4 0 4, byteIn 5 1 255, halfIn 6 1 65535]
  | 0x21 => [byteIn 0 0 234, spare 1 7 4, spareBytes 5 1]
  | 0x28 =>
    let signed := fun (off bound : Nat) => dep off 4 fun _ v => (ofTwos 32 v).natAbs ≤ bound
    [byteIn 0 0 2, spare 1 7 5, halfIn 2 10 1000, halfIn 4 100 10000, byteIn 6 1 16, byteIn 7 1 60, halfIn 8 1 3600,
      halfIn 10 1 1000, signed 12 327680000, signed 16 3276800, halfIn 20 1 10000, halfIn 22 1 10000, halfIn 24 10 1000,
      byteIn 26 0 24, byteIn 27 0 24, byteIn 28 4 100, byteIn 29 4 100, byteIn 30 0 100, spareBytes 31 1]
  | 0x29 => [halfIn 0 0 1023, spare 2 7 1, byteIn 3 8 255, halfIn 4 16 2048]
  | 0x30 =>
    [byteIn 0 0 15, byteIn 1 1 16, spare 2 7 2, spareBytes 3 1, spareBytes 6 2, spareBytes 8 8]
      ++ (List.range 16).flatMap gateFields
  | 0x32 =>
    [spare 0 7 4, byteIn 1 1 255, halfIn 2 1 25600, wordIn 8 2560 640000000, halfIn 12 1 0xFFE, halfIn 14 1 500,
      halfIn 16 2 1000, spareBytes 18 2, spareBytes 20 4]
  | 0x39 =>
    [halfIn 0 0 16383, halfIn 2 1 16384, byteIn 4 0 1, byteIn 5 1 16, spareBytes 6 2, spareBytes 8 8]
  | 0x40 =>
    [halfIn 0 0 1023, halfIn 2 0 1023, spare 7 7 1]
      ++ (List.range 4).flatMap fun k => [rg (8 + k) 1 3 0 0 11, rg (8 + k) 1 7 4 0 11]
  | _ => []

/-- Fields of the entries of the sections of the remaining chapters. -/
def farFields (typ : Nat) : List Field :=
  match typ with
  | 0x48 => [rg 0 2 14 14 0 0, rg 2 2 14 14 0 0]
  | 0x49 =>
    let hold := fun (e : List Byte) => bit (fieldAt e 2 1) 5
    [rg 0 2 11 0 0 0xFFE, rg 0 2 15 12 0 0, spare 2 7 6, dep 3 1 fun e v => if hold e then v == 0 else 1 ≤ v,
      halfIn 4 1 65535, dep 6 1 fun e v => if hold e then v == 0 else 1 ≤ v, spareBytes 7 1]
  | 0x4A => [rg 0 2 11 0 1 0xFFE, rg 0 2 15 12 0 0, spare 2 7 4, spareBytes 3 1]
  | 0x50 =>
    [byteIn 0 0 7, rg 1 1 2 0 0 4, spare 1 7 5, halfIn 2 5 1000, halfIn 4 10 10000, halfIn 6 10 10000, byteIn 8 16 40,
      byteIn 9 0 15, byteIn 10 0 30, byteIn 11 1 255, byteIn 12 0 5, spareBytes 13 3]
  | 0x58 =>
    [byteIn 0 0 2, byteIn 1 0 3, spare 2 7 6, byteIn 3 1 6, wordIn 4 1 0xFFFFFFFE, wordIn 8 1 0xFFFFFFFE, halfIn 12 1 600,
      byteIn 14 1 16, spareBytes 15 1, halfIn 16 2 256, spareBytes 18 2, wordIn 20 1024 1048576, spareBytes 24 8]
  | 0x60 => [wordIn 0 1 65536, wordIn 4 1 65536, spare 8 7 3, spareBytes 9 7]
  | 0x61 =>
    [byteIn 0 0 4, spareBytes 1 1, dep 2 2 fun e v => (faultCounts (fieldAt e 0 1)).1 ≤ v && v ≤ (faultCounts (fieldAt e 0 1)).2,
      wordIn 4 1 86400000]
  | 0x68 => [spare 0 7 6, spareBytes 1 1, halfIn 2 1 4096, spareBytes 4 12]
  | 0x6A =>
    [byteIn 0 0 31, byteIn 1 2 10, dep 2 2 fun e v => quantityIndex (fieldAt e 1 1) v, wordIn 8 1 0xFFFFFFFF, spareBytes 16 4]
  | _ => []

/-- Fields of the sections whose `entry_size` is 0, by ascending position. -/
def oddAreas (typ count : Nat) : List Area :=
  let single := fun (fields : List Field) => (⟨0, 288, 1, false, fields⟩ : Area)
  match typ with
  | 0x05 =>
    [single [byteIn 16 0 3, spare 17 7 1, halfIn 18 200 1100, halfIn 20 1 3600, byteIn 22 10 200, spareBytes 23 1,
        wordIn 24 10 100000, spareBytes 28 4],
      ⟨32, 16, 4, true, [spareBytes 1 1, halfIn 2 1 1024, wordIn 4 0 5000000,
        dep 8 2 fun _ v => (1 ≤ v && v ≤ 4000) || v == 0xFFFF, halfIn 12 0 1100, spareBytes 14 2]⟩]
  | 0x31 => [⟨8208, 32, count, true, (List.range 16).map fun i => dep (2 * i) 2 fun _ v => v ≤ 1023 || v == 0xFFFF⟩]
  | 0x38 =>
    [single [spare 16 7 1, byteIn 17 0 63, halfIn 18 16 32768, halfIn 20 32 65535, halfIn 22 1024 32768, halfIn 24 1088 49152,
        halfIn 26 1024 65535, wordIn 28 0 262143, spareBytes 32 32],
      ⟨64, 1, count, true, [rg 0 1 3 0 0 8, spare 0 7 6]⟩]
  | 0x4B =>
    [single ([rg 16 2 11 0 1 0xFFE, rg 16 2 15 12 0 0, byteIn 18 0 1, spareBytes 19 1, wordIn 20 2560 25600000, halfIn 24 16 4096,
      halfIn 26 16 65535, halfIn 28 16 65535, halfIn 30 16 65535, halfIn 32 16 65535, halfIn 34 16 4096, halfIn 36 0 4096,
      spareBytes 38 2, spareBytes 40 24]),
      ⟨64, 512, 1, false, [dep 0 512 fun _ v => !bit v 0 && !bit v 4095]⟩]
  | 0x69 =>
    [single [spare 16 7 2, byteIn 17 1 100, byteIn 18 1 100, byteIn 19 1 64, wordIn 20 1000 50000, wordIn 24 0 86400,
        halfIn 28 100 65535, byteIn 30 0 32, byteIn 31 1 64, halfIn 32 1 4096, byteIn 34 1 16, spareBytes 35 29],
      ⟨64, 8, 64, false, [spare 1 7 1, spareBytes 2 6]⟩,
      ⟨576, 4, 1024, false, [rg 2 2 15 1 0 0]⟩]
  | 0x70 => [single [spare 16 7 2, spareBytes 17 1, halfIn 18 1 60, spareBytes 20 12]]
  | _ => []

/-- Every area of a section with so many entries. -/
def areasOf (typ count : Nat) : List Area :=
  let size := (entrySizeOf typ).getD 0
  if size = 0 then oddAreas typ count
  else [⟨16, size, count, true, frontFields typ ++ middleFields typ ++ farFields typ⟩]

/-- The first field of a section outside its range, and with it `entry_count` outside its own. -/
def outOfRange (typ lo hi : Nat) (bs : List Byte) : Found :=
  countBetween lo hi bs <|> (areasOf typ (entryCount bs)).findSome? (·.found bs)

/-- The same of a section whose `entry_count` another check tests. -/
def fieldsOut (typ : Nat) (bs : List Byte) : Found := (areasOf typ (entryCount bs)).findSome? (·.found bs)

/-! ### Checks of one section -/

/-- A check of one section: its code, the status on failure, and what it finds. -/
structure SectCheck where
  code : Nat
  status : Status
  test : List Byte → Found

/-- A table of so many entries, each with its index in front (checks 0x0100, 0x0110 and their kind). -/
def tableIs (typ count size : Nat) (bs : List Byte) : Found :=
  countBetween count count bs <|> indexed 16 ((entrySizeOf typ).getD 0) count size true bs

/-- R76: `thr_timing[g]` is lower than `thr_trigger[g]`. -/
def thresholdOrder : List Byte → Found := fun bs =>
  firstEntry 36 bs fun _ e =>
    ((List.range 8).find? fun g => fieldAt e (6 + 4 * g) 2 ≤ fieldAt e (4 + 4 * g) 2).map fun g => 4 + 4 * g

/-- R85: entries stand in non-decreasing order of `at`. -/
def scheduleOrder : List Byte → Found := fun bs =>
  firstEntry 24 bs fun i e =>
    failAt 8 (i != 0 && (timeWordAt e 8).fineCount < (timeWordAt bs (16 + 24 * (i - 1) + 8)).fineCount)

/-- R82: the phase and the length of a periodic gate are below its period. -/
def gateOrder : List Byte → Found := fun bs =>
  firstEntry 32 bs fun _ e =>
    if fieldAt e 1 1 != 1 then none
    else failAt 16 (fieldAt e 12 4 ≤ fieldAt e 16 4) <|> failAt 20 (fieldAt e 12 4 ≤ fieldAt e 20 4)

/-- Binary32 fields of an entry are finite. -/
def allFinite (stride first n : Nat) : List Byte → Found := fun bs =>
  firstEntry stride bs fun _ e => ((List.range n).find? fun k => !f32Finite (fieldAt e (first + 4 * k) 4)).map (first + 4 * ·)

/-- Eighths of a microsecond that the sequencer's entries last together, with conversions of so many (R117). -/
def passEighths (conversion : Nat) (bs : List Byte) : Nat :=
  ((List.range (entryCount bs)).map fun i =>
    let e := sliceBytes bs (16 + 8 * i) 8
    8 * fieldAt e 2 2 + (fieldAt e 4 1 + 1) * conversion + 8 * fieldAt e 6 2).sum

/-- Inputs 208 to 224 appear in the sequencer. -/
def sensorsRead (bs : List Byte) : Bool :=
  (List.range 17).all fun k => (List.range (entryCount bs)).any fun i => fieldAt bs (16 + 8 * i) 1 == 208 + k

/-- A gate of a course fails a test, given the course's entry, the gate's number and its bytes. -/
def firstGate (bs : List Byte) (test : List Byte → Nat → List Byte → Option Nat) : Found :=
  firstEntry 656 bs fun _ e => (List.range 16).findSome? fun g =>
    (test e g (sliceBytes e (16 + 40 * g) 40)).map (16 + 40 * g + ·)

/-- R191: the gates a gate in use leads to are in use. -/
def gateTargets : List Byte → Found := fun bs =>
  firstGate bs fun e g x =>
    let n := fieldAt e 1 1
    if n ≤ g then none
    else failAt 32 (n ≤ fieldAt x 32 1 && fieldAt x 32 1 != 16) <|> failAt 33 (n ≤ fieldAt x 33 1)

/-- R191: gates not in use are all 0. -/
def gatesZero : List Byte → Found := fun bs => firstGate bs fun e g x => failAt 0 (fieldAt e 1 1 ≤ g && x.any (· != 0))

/-- A timeout is later than the first rise that counts. -/
def gateTimes : List Byte → Found := fun bs =>
  firstGate bs fun e g x => failAt 24 (g < fieldAt e 1 1 && fieldAt x 28 4 != 0 && fieldAt x 28 4 ≤ fieldAt x 24 4)

/-- An enabled course has a gate that completes it. -/
def courseEnds : List Byte → Found := fun bs =>
  firstEntry 656 bs fun _ e =>
    failAt 2 (bit (fieldAt e 2 1) 0 && !((List.range (fieldAt e 1 1)).any fun g => fieldAt e (48 + 40 * g) 1 == 16))

/-- The role and the group of a lane (R208). -/
def laneOf (e : List Byte) (n : Nat) : Nat × Nat := (bits (fieldAt e 4 1) (2 * n + 1) (2 * n), bits (fieldAt e 5 1) (2 * n + 1) (2 * n))

/-- R208: lanes of one group have one role, Up lanes lie in one group, no role is 3. -/
def laneRoles : List Byte → Found := fun bs =>
  firstEntry 24 bs fun _ e =>
    let pairs := (List.range 4).flatMap fun a => (List.range 4).map fun b => (laneOf e a, laneOf e b)
    failAt 4 (pairs.any fun (a, b) =>
      a.1 == 3 || (a.2 == b.2 && a.1 != b.1) || (a.1 == 1 && b.1 == 1 && a.2 != b.2))

/-- `auto_arm` needs `authority`, and BUSY must outlive its repeat. -/
def armRules : List Byte → Found := fun bs =>
  firstEntry 24 bs fun _ e =>
    failAt 0 (bit (fieldAt e 0 1) 1 && !bit (fieldAt e 0 1) 0) <|> failAt 16 (fieldAt e 16 2 ≤ fieldAt e 14 2)

/-- Each level's `fire_cap` fits it. -/
def fireCaps : List Byte → Found := fun bs =>
  ((List.range 4).find? fun l =>
    let cap := fieldAt bs (36 + 16 * l) 4
    if l = 3 then cap != 0 else cap == 0 || fireCeiling l < cap).map fun l => (36 + 16 * l, some l)

/-- A cap falls from a level to the next. -/
def capFalls (bs : List Byte) (off size none_ level : Nat) : Bool :=
  let at_ := fun l => fieldAt bs (32 + 16 * l + off) size
  at_ (level + 1) != none_ && (at_ level == none_ || at_ (level + 1) < at_ level)

/-- Caps do not fall from a lower level to a higher one. -/
def capOrder : List Byte → Found := fun bs =>
  (List.range 3).findSome? fun l =>
    if capFalls bs 4 4 0 l then some (52 + 16 * l, some (l + 1))
    else if capFalls bs 8 2 0xFFFF l then some (56 + 16 * l, some (l + 1))
    else none

/-- No port has the role Up-A or Store. -/
def noWayUp (bs : List Byte) : Bool :=
  (List.range (entryCount bs)).all fun p => fieldAt bs (17 + 4 * p) 1 != 2 && fieldAt bs (17 + 4 * p) 1 != 4

/-- `mask` sets a bit of a non-maskable or reserved source (R435, R438). -/
def maskBad (bs : List Byte) : Bool :=
  ([1536, 1537, 1600, 1601, 1792] ++ (List.range 32).map (2016 + ·)).any fun n => bit (fieldAt bs (32 + n / 8) 1) (n % 8)

/-- The checks of one section of the chapters up to acquisition, in ascending code. -/
def nearChecks (typ : Nat) : List SectCheck :=
  match typ with
  | 0x01 => [⟨0x0178, .badImage, fun bs => whole (noWayUp bs)⟩]
  | 0x05 =>
    [⟨0x01D0, .badImage, fun bs => countBetween 4 4 bs <|> indexed 32 16 4 1 true bs⟩, ⟨0x01D1, .outOfRange, fieldsOut 0x05⟩,
      ⟨0x01D2, .badImage, fireCaps⟩, ⟨0x01D3, .badImage, capOrder⟩]
  | 0x10 => [⟨0x0100, .badImage, tableIs 0x10 1024 2⟩, ⟨0x0101, .outOfRange, fieldsOut 0x10⟩]
  | 0x11 => [⟨0x0103, .outOfRange, outOfRange 0x11 0 4096⟩, ⟨0x0104, .badImage, scheduleOrder⟩]
  | 0x12 =>
    [⟨0x0100, .badImage, tableIs 0x12 1024 2⟩, ⟨0x0101, .outOfRange, fieldsOut 0x12⟩, ⟨0x0102, .badImage, thresholdOrder⟩]
  | 0x13 => [⟨0x0100, .badImage, tableIs 0x13 64 1⟩, ⟨0x0101, .outOfRange, fieldsOut 0x13⟩, ⟨0x0105, .badImage, gateOrder⟩]
  | 0x14 =>
    [⟨0x0100, .badImage, tableIs 0x14 1024 2⟩, ⟨0x0101, .outOfRange, fieldsOut 0x14⟩, ⟨0x0107, .badImage, allFinite 52 4 12⟩]
  | 0x15 =>
    [⟨0x0101, .outOfRange, outOfRange 0x15 0 128⟩, ⟨0x0107, .badImage, allFinite 24 8 3⟩,
      ⟨0x0108, .badImage, fun bs => firstEntry 24 bs fun i _ => failAt 0 (repeated bs 24 0 1 i)⟩]
  | 0x20 => [⟨0x0110, .badImage, tableIs 0x20 1024 2⟩, ⟨0x0111, .outOfRange, fieldsOut 0x20⟩]
  | 0x21 =>
    [⟨0x0111, .outOfRange, outOfRange 0x21 1 512⟩, ⟨0x0113, .badImage, fun bs => whole (!sensorsRead bs)⟩,
      ⟨0x0114, .badImage, fun bs => whole (800000 < passEighths 125 bs || 8000000 < passEighths 2000 bs)⟩]
  | 0x28 =>
    [⟨0x0120, .badImage, countBetween 1 1⟩, ⟨0x0121, .outOfRange, fieldsOut 0x28⟩,
      ⟨0x0122, .badImage, fun bs => firstEntry 32 bs fun _ e => failAt 4 (fieldAt e 4 2 ≤ fieldAt e 2 2)⟩]
  | 0x29 => [⟨0x0130, .badImage, tableIs 0x29 1024 2⟩, ⟨0x0131, .outOfRange, fieldsOut 0x29⟩]
  | 0x30 =>
    [⟨0x0140, .badImage, tableIs 0x30 16 1⟩, ⟨0x0141, .outOfRange, fieldsOut 0x30⟩, ⟨0x0142, .badImage, gateTargets⟩,
      ⟨0x0143, .badImage, gatesZero⟩, ⟨0x0144, .badImage, gateTimes⟩, ⟨0x0145, .badImage, courseEnds⟩]
  | 0x31 =>
    [⟨0x0141, .outOfRange, outOfRange 0x31 1 1024⟩, ⟨0x0147, .badImage, fun bs => whole (bit (fieldAt bs 16 1) 0)⟩]
  | 0x32 =>
    [⟨0x0141, .outOfRange, outOfRange 0x32 1 1⟩, ⟨0x0148, .badImage, laneRoles⟩, ⟨0x0149, .badImage, armRules⟩]
  | _ => []

/-- The checks of one section of the chapters from acquisition on, in ascending code. -/
def farChecks (typ : Nat) : List SectCheck :=
  match typ with
  | 0x38 =>
    [⟨0x0150, .badImage, countBetween 1024 1024⟩, ⟨0x0151, .outOfRange, fieldsOut 0x38⟩,
      ⟨0x0155, .badImage, fun bs =>
        if fieldAt bs 20 2 ≤ fieldAt bs 18 2 then some (20, none)
        else if fieldAt bs 24 2 ≤ fieldAt bs 22 2 then some (24, none) else none⟩]
  | 0x39 => [⟨0x0151, .outOfRange, fieldsOut 0x39⟩, ⟨0x0152, .badImage, countBetween 1 1⟩]
  | 0x40 =>
    [⟨0x0160, .badImage, tableIs 0x40 1024 2⟩, ⟨0x0161, .outOfRange, fieldsOut 0x40⟩,
      ⟨0x0162, .badImage, fun bs => firstEntry 12 bs fun _ e => failAt 2 (fieldAt e 0 2 < fieldAt e 2 2)⟩,
      ⟨0x0163, .badImage, fun bs => firstEntry 12 bs fun _ e =>
        failAt 6 (fieldAt e 2 2 == fieldAt e 0 2 && fieldAt e 6 1 != 0)⟩]
  | 0x48 => [⟨0x0170, .badImage, countBetween 4096 4096⟩, ⟨0x0171, .outOfRange, fieldsOut 0x48⟩]
  | 0x49 => [⟨0x0171, .outOfRange, outOfRange 0x49 0 8192⟩]
  | 0x4A => [⟨0x0171, .outOfRange, outOfRange 0x4A 0 4094⟩]
  | 0x4B => [⟨0x0170, .badImage, countBetween 1 1⟩, ⟨0x0171, .outOfRange, fieldsOut 0x4B⟩]
  | 0x50 =>
    [⟨0x0180, .badImage, tableIs 0x50 8 1⟩, ⟨0x0181, .outOfRange, fieldsOut 0x50⟩,
      ⟨0x0182, .badImage, fun bs => firstEntry 16 bs fun _ e => failAt 4 (10 * fieldAt e 4 2 ≤ fieldAt e 2 2 + 50)⟩]
  | 0x58 => [⟨0x0190, .badImage, countBetween 1 1⟩, ⟨0x0191, .outOfRange, fieldsOut 0x58⟩]
  | 0x60 => [⟨0x01A0, .badImage, countBetween 1 1⟩, ⟨0x01A1, .outOfRange, fieldsOut 0x60⟩]
  | 0x61 => [⟨0x01A0, .badImage, tableIs 0x61 5 1⟩, ⟨0x01A1, .outOfRange, fieldsOut 0x61⟩]
  | 0x68 => [⟨0x01E0, .badImage, countBetween 1 1⟩, ⟨0x01E1, .outOfRange, fieldsOut 0x68⟩]
  | 0x69 =>
    [⟨0x01E0, .badImage, fun bs => countBetween 1 1 bs <|> indexed 64 8 64 1 false bs⟩, ⟨0x01E1, .outOfRange, fieldsOut 0x69⟩]
  | 0x6A => [⟨0x01E1, .outOfRange, outOfRange 0x6A 0 32⟩]
  | 0x70 =>
    [⟨0x01B0, .outOfRange, outOfRange 0x70 1 1⟩,
      ⟨0x01B1, .badImage, fun bs => if maskBad bs then some (32, none) else none⟩]
  | _ => []

/-- The checks of one section of a type, in ascending code. -/
def sectChecks (typ : Nat) : List SectCheck := nearChecks typ ++ farChecks typ

end Sys2Proof.Machine
end

