-- ==== Sys2Proof/Machine/MapCheck.lean ====
section
/-! DEFINITION. The checks of a piste-map image in a slot, in the order of R49, and the place of the first that fails
(R32 to R50). -/

namespace Sys2Proof.Machine

/-! ### The image (R32 to R36) -/

/-- An entry of the section directory (R35). -/
structure DirEntry where
  index : Nat
  typ : Nat
  inst : Nat
  off : Nat
  len : Nat
  crc : Nat
  deriving DecidableEq, Repr

/-- A failed check and where it failed (R50). -/
structure MapFail where
  check : Nat
  status : Status
  /-- 255 for the header or the whole image -/
  dir : Nat
  inst : Nat
  typ : Nat
  offset : Nat
  entry : Option Nat
  deriving DecidableEq, Repr

/-- The 16 bytes of R50. -/
def MapFail.bytes (x : MapFail) : List Byte :=
  leBytes 2 x.check ++ leBytes 1 x.dir ++ leBytes 1 x.inst ++ leBytes 2 x.typ ++ zeros 2 ++ leBytes 4 x.offset
    ++ leBytes 4 (x.entry.getD 0xFFFFFFFF)

/-- A section with its directory entry. -/
structure Part where
  dir : DirEntry
  bytes : List Byte

/-- A check that fails in the header or over the whole image. -/
def headFail (check : Nat) (st : Status) (offset : Nat) : MapFail := ⟨check, st, 255, 0, 0, offset, none⟩

/-- A check that fails at a directory entry, at an offset of the image. -/
def dirFail (check : Nat) (st : Status) (x : DirEntry) (offset : Nat) : MapFail :=
  ⟨check, st, x.index, x.inst, x.typ, offset, none⟩

/-- A check that fails at a place in a section. -/
def partFail (check : Nat) (st : Status) (p : Part) (at_ : Nat × Option Nat) : MapFail :=
  ⟨check, st, p.dir.index, p.dir.inst, p.dir.typ, p.dir.off + at_.1, at_.2⟩

/-- The directory entries as the 1,024 bytes of the directory spell them. -/
def directoryOf (bs : List Byte) : List DirEntry :=
  (List.range 64).map fun i =>
    let e := sliceBytes bs (16 * i) 16
    ⟨i, fieldAt e 0 2, fieldAt e 2 1, fieldAt e 4 4, fieldAt e 8 4, fieldAt e 12 4⟩

/-- An owner section (R38). -/
def isOwner (typ : Nat) : Bool := 0x7F00 ≤ typ && typ ≤ 0x7FFF

/-- What the checks read: the flash, the slot's base, the header and the directory. -/
structure Image where
  flash : List Host.Cell
  base : Nat
  head : List Byte
  table : List Byte

/-- The image in a slot. -/
def imageOf (f : List Host.Cell) (slot : Nat) : Image :=
  ⟨f, mapBase slot, flashBytes f (mapBase slot) 256, flashBytes f (mapBase slot + 256) 1024⟩

/-- `image_length` (R33). -/
def Image.length (x : Image) : Nat := fieldAt x.head 12 4

/-- `section_count` (R33). -/
def Image.count (x : Image) : Nat := fieldAt x.head 21 1

/-- The entries in use. -/
def Image.dirs (x : Image) : List DirEntry := (directoryOf x.table).take x.count

/-- The bytes of a section. -/
def Image.part (x : Image) (e : DirEntry) : Part := ⟨e, flashBytes x.flash (x.base + e.off) e.len⟩

/-- The first of several checks that fails. -/
def firstFail (l : List (Option MapFail)) : Option MapFail := l.findSome? id

/-- A check of the header that fails where a test holds. -/
def headTest (check : Nat) (st : Status) (offset : Nat) (bad : Bool) : Option MapFail :=
  if bad then some (headFail check st offset) else none

/-! ### Checks 0x0001 to 0x000E -/

/-- `magic` of an image. -/
def mapMagic : List Byte := textBytes "PELSORPM"

/-- Checks 0x0001 to 0x0007 on the header, for a schema minor that the control firmware supports. -/
def headerFail (x : Image) (minor : Nat) : Option MapFail :=
  let num := fieldAt x.head
  firstFail [
    headTest 0x0001 .badImage 0 (x.head.take 8 != mapMagic),
    headTest 0x0002 .badImage 10 (num 10 2 != 256),
    headTest 0x0003 .badCrc 0 (num 252 4 != crc32c (x.head.take 252)),
    headTest 0x0004 .incompatible 8 (num 9 1 != 1),
    headTest 0x0005 .incompatible 8 (minor < num 8 1),
    headTest 0x0006 .incompatible 16 (!bit (num 16 4) Config.stepping.toNat),
    headTest 0x0007 .badImage 12 (x.length < 1344 || mapSize < x.length || x.length % 64 != 0)]

/-- Check 0x0008, by ascending position. DEDUCED (log entry 3): the ranges that R9 gives the time word `build_time` and its
reserved bytes are tested here, since no other check names the field. -/
def rangeFail (x : Image) : Option MapFail :=
  let num := fieldAt x.head
  let spare := fun (off n : Nat) => headTest 0x0008 .outOfRange off (num off n != 0)
  firstFail ([
    headTest 0x0008 .outOfRange 20 (3 < num 20 1),
    headTest 0x0008 .outOfRange 21 (x.count < 1 || 64 < x.count),
    spare 22 2, headTest 0x0008 .outOfRange 32 (127 < num 32 1),
    headTest 0x0008 .outOfRange 33 (2559999999 < num 33 4), spare 42 2, spare 46 2, spare 52 68, spare 224 28]
    ++ x.dirs.map fun e =>
      if fieldAt x.table (16 * e.index + 3) 1 != 0 then some (dirFail 0x0008 .outOfRange e (256 + 16 * e.index + 3)) else none)

/-- The end of the section in front of an entry; 1,280 in front of the first. -/
def endBefore (l : List DirEntry) (i : Nat) : Nat :=
  match i with
  | 0 => 1280
  | k + 1 => (l[k]?).elim 1280 fun e => e.off + e.len

/-- Check 0x000A: alignment, order, length, and the entries not in use. -/
def placementFail (x : Image) : Option MapFail :=
  (directoryOf x.table).findSome? fun e =>
    let o := 256 + 16 * e.index
    if e.index < x.count then
      if e.off % 64 != 0 || e.off < endBefore x.dirs e.index then some (dirFail 0x000A .badImage e (o + 4))
      else if e.len < 16 || 8387328 < e.len || x.length < e.off + e.len then some (dirFail 0x000A .badImage e (o + 8))
      else none
    else if (sliceBytes x.table (16 * e.index) 16).any (· != 0) then some (dirFail 0x000A .badImage e o)
    else none

/-- Check 0x000B: the CRC of each section. -/
def crcFail (parts : List Part) : Option MapFail :=
  parts.findSome? fun p => if crc32c p.bytes != p.dir.crc then some (dirFail 0x000B .badCrc p.dir p.dir.off) else none

/-- The digest of an image (R34). -/
def mapDigest (x : Image) : List Byte := sha256 (x.head.take 128 ++ flashBytes x.flash (x.base + 1280) (x.length - 1280))

/-- Checks 0x000C to 0x000E. -/
def signatureFail (x : Image) : Option MapFail :=
  match (keyRing x.flash).keys.find? fun k => keyIdOf k == fieldAt x.head 120 8 with
  | none => some (headFail 0x000C .verifyFailed 120)
  | some k =>
    let dg := sliceBytes x.head 128 32
    if mapDigest x != dg then some (headFail 0x000D .verifyFailed 128)
    else if !edVerify k dg (sliceBytes x.head 160 64) then some (headFail 0x000E .verifyFailed 160)
    else none

/-! ### Checks 0x000F to 0x0013 -/

/-- Check 0x000F on one section. -/
def preambleFail (p : Part) : Option MapFail :=
  let bad := fun (off : Nat) => some (partFail 0x000F .badImage p (off, none))
  let num := fieldAt p.bytes
  if isOwner p.dir.typ then none
  else if (entrySizeOf p.dir.typ).isNone then some (dirFail 0x000F .badImage p.dir (256 + 16 * p.dir.index))
  else if num 0 2 != p.dir.typ then bad 0
  else if num 2 1 != p.dir.inst then bad 2
  else if num 3 1 != 1 then bad 3
  else if num 6 2 != 0 then bad 6
  else if num 12 4 != 0 then bad 12
  else none

/-- Check 0x0010 on one section. DESIGN CHOICE (log entry 10): it also reports an `entry_size` that is not that of the section's
type while the length agrees with it; no check of R49 names that case. -/
def lengthFail (p : Part) : Option MapFail :=
  match entrySizeOf p.dir.typ with
  | none => none
  | some n =>
    if fieldAt p.bytes 4 2 != n then some (partFail 0x0010 .badImage p (4, none))
    else if p.dir.len != sectionLength p.dir.typ (entryCount p.bytes) then
      some (dirFail 0x0010 .badImage p.dir (256 + 16 * p.dir.index + 8))
    else none

/-- The map that the sections of an image make (R51). -/
def mapOf (x : Image) (slot : Nat) (parts : List Part) : PisteMap :=
  { slot := slot, mapId := fieldAt x.head 24 8, level := fieldAt x.head 20 1, margin := fieldAt x.head 44 2
    sects := (parts.filter fun p => !isOwner p.dir.typ).map fun p => ⟨p.dir.typ, p.dir.inst, p.bytes⟩ }

/-- Every number that the elements of a table hold in a field. -/
def fieldOfAll (m : Option PisteMap) (typ stride off size : Nat) : List Nat :=
  (List.range (mapCount m typ 0)).map fun e => mapNum m typ 0 (16 + stride * e + off) size 0

/-- The instances of a type that R37 requires: linearisation of the gain steps in use (R86), regions of interest of the
courses that fire (R209), lift wheels of the ports in use, the store table with a Store port, and instance 0 of every type
that is not optional. -/
def requiredOf (m : Option PisteMap) (typ : Nat) : List Nat :=
  match typ with
  | 0x14 =>
    let steps := fieldOfAll m 0x10 8 2 1 ++ fieldOfAll m 0x11 24 4 1
    (List.range 8).filter fun g => steps.contains g
  | 0x39 => (List.range (min 16 (mapCount m 0x30 0))).filter fun c =>
      mapBits m 0x30 0 (16 + 656 * c + 2) 1 0 0 0 == 1 || mapNum m 0x30 0 (16 + 656 * c + 4) 2 0 != 0
  | 0x48 => (List.range 8).filter fun p => [1, 2, 3].contains (portRole m p)
  | 0x58 => if (portOfRole m 4).isSome then [0] else []
  | 0x15 | 0x31 | 0x70 => []
  | _ => [0]

/-- Check 0x0011: instances within their range, none twice, none missing, the store table only with a Store port. Which failure
it names where there are several, the spec leaves open: a section that is there before one that is missing, and of several
missing ones the first by type and then by instance (log entry 10). -/
def presenceFail (dirs : List DirEntry) (m : Option PisteMap) : Option MapFail :=
  let present := dirs.findSome? fun e =>
    let o := 256 + 16 * e.index
    let top := if isOwner e.typ then 15 else highestInstance e.typ
    let twice := !isOwner e.typ && (dirs.take e.index).any fun x => x.typ == e.typ && x.inst == e.inst
    if top < e.inst then some (dirFail 0x0011 .badImage e (o + 2))
    else if twice || (e.typ == 0x58 && (portOfRole m 4).isNone) then some (dirFail 0x0011 .badImage e o)
    else none
  let missing := (sectionTypes.flatMap fun t => (requiredOf m t).map (t, ·)).find? fun (t, i) =>
    !(dirs.any fun e => e.typ == t && e.inst == i)
  present <|> missing.map fun (t, i) => ⟨0x0011, .badImage, 255, i, t, 0, none⟩

/-- R39: one Up-A and one Up-B at most, no Up-B without Up-A, Store on P6 and P7 alone. -/
def portRules (bs : List Byte) : Found :=
  countBetween 8 8 bs <|> firstEntry 4 bs fun i e =>
    let r := fieldAt e 1 1
    let withA := (List.range 8).any fun k => fieldAt bs (17 + 4 * k) 1 == 2
    failAt 1 (((r == 2 || r == 3) && repeated bs 4 1 1 i) || (r == 3 && !withA) || (r == 4 && i < 6))

/-- R40: one entry for each station, no monitor unit twice. -/
def stationRules (bs : List Byte) : Found :=
  countBetween 11 11 bs <|> firstEntry 16 bs fun i e =>
    failAt 0 (repeated bs 16 0 1 i) <|> failAt 1 (fieldAt e 1 1 != 255 && repeated bs 16 1 1 i)

/-- R43: the entries that the crossings and the ports in use require, each once, and no other. -/
def crossingRules (m : Option PisteMap) (bs : List Byte) : Found :=
  let wanted := fun c i => if c == 2 then [1, 2, 3].contains (portRole m i) else i == 0
  let all := [(0, 0), (1, 0), (3, 0)] ++ ((List.range 8).filter (wanted 2)).map (2, ·)
  let have_ := fun (c, i) => (List.range (entryCount bs)).any fun k =>
    fieldAt bs (16 + 8 * k) 1 == c && fieldAt bs (17 + 8 * k) 1 == i
  (firstEntry 8 bs fun i e =>
    failAt 1 (!wanted (fieldAt e 0 1) (fieldAt e 1 1)) <|> failAt 0 (repeated bs 8 0 2 i)) <|> whole (!all.all have_)

/-- R44: one rotation for each class, of clients of the class, each with a turn. -/
def rotationRules (m : Option PisteMap) (bs : List Byte) : Found :=
  countBetween 2 2 bs <|> firstEntry 20 bs fun i e =>
    let clients := if fieldAt e 0 1 == 0 then 3 else 7
    let turns := (e.drop 4).take (fieldAt e 1 1)
    let store := fieldAt e 0 1 == 1 && (portOfRole m 4).isNone
    let right := turns.all (fun t => t.toNat < clients) && ((e.drop 4).drop (fieldAt e 1 1)).all (· == 0)
      && (List.range clients).all fun c => (turns.any fun t => t.toNat == c) != (store && c == 4)
    failAt 0 (repeated bs 20 0 1 i) <|> failAt 4 (!right)

/-- Check 0x0013 on one section. -/
def ownRules (m : Option PisteMap) (p : Part) : Option MapFail :=
  (match p.dir.typ with
    | 0x01 => portRules p.bytes
    | 0x02 => stationRules p.bytes
    | 0x03 => crossingRules m p.bytes
    | 0x04 => rotationRules m p.bytes
    | _ => none).map (partFail 0x0013 .badImage p)

/-- Check 0x0012 on one section. -/
def ownRange (p : Part) : Option MapFail :=
  if p.dir.typ ≤ 0x04 then (fieldsOut p.dir.typ p.bytes).map (partFail 0x0012 .outOfRange p) else none

/-- The single-section checks of one section, in ascending code. -/
def sectionFail (p : Part) : Option MapFail :=
  (sectChecks p.dir.typ).findSome? fun c => (c.test p.bytes).map (partFail c.code c.status p)

/-! ### Cross-section checks -/

/-- A cross-section check over the sections of one type. -/
def crossOver (parts : List Part) (typ check : Nat) (test : Part → Found) : Option MapFail :=
  (parts.filter (·.dir.typ == typ)).findSome? fun p => (test p).map (partFail check .badImage p)

/-- A half of a chair: its address, VC and `used` bit, transmit first (R270). -/
def chairHalf (e : List Byte) (rx : Bool) : Nat × Nat × Bool :=
  let w := fieldAt e (if rx then 2 else 0) 2
  (bits w 11 0, bits w 13 12, bit w 15)

/-- A partner is named and not routed to the port (check 0x0021). -/
def unrouted (m : Option PisteMap) (port address : Nat) : Bool := address != 0 && address != 0xFFF && !routedTo m address port

/-- Check 0x0021 on a lift wheel. -/
def wheelRouted (m : Option PisteMap) (p : Part) : Found :=
  firstEntry 4 p.bytes fun _ e =>
    let bad := fun rx => (chairHalf e rx).2.2 && unrouted m p.dir.inst (chairHalf e rx).1
    failAt 0 (bad false) <|> failAt 2 (bad true)

/-- Check 0x0021 on the credit table: a grant on a Down port names a partner routed to it. -/
def creditRouted (m : Option PisteMap) (p : Part) : Found :=
  firstEntry 8 p.bytes fun k _ =>
    let (g, hold) := creditEntry m k
    failAt 0 (unrouted m g.port g.address || (!hold && portRole m g.port == 1 && !routedTo m g.address g.port))

/-- Slow-corner cycle time of a station at a level (R41). -/
def slowCorner (station level : Nat) : Nat :=
  let row := [[1200, 1040, 920, 800], [1800, 1560, 1380, 1200], [1500, 1300, 1150, 1000], [2400, 2080, 1840, 1600],
    [4500, 3900, 3450, 3000], [2100, 1820, 1610, 1400], [3000, 2600, 2300, 2000], [2700, 2340, 2070, 1800],
    [2700, 2340, 2070, 1800], [3600, 3120, 2760, 2400], [6000, 5200, 4600, 4000]][station]?.getD []
  row[level]?.getD 0

/-- Check 0x0022 on the fabric stations (R42). -/
def stationMargins (level : Nat) (p : Part) : Found :=
  firstEntry 16 p.bytes fun _ e =>
    let req := fieldAt e 4 4
    let slow := fieldAt e 8 4
    let margin : Int := 1000 * ((req : Int) - slow) / (req : Int)
    failAt 8 (slow < slowCorner (fieldAt e 0 1) level) <|> failAt 12 ((fieldAt e 12 2 : Int) != margin || margin < 100)

/-- Check 0x0022: every station's margin, then the header's. -/
def marginFail (m : PisteMap) (parts : List Part) : Option MapFail :=
  crossOver parts 0x02 0x0022 (stationMargins m.level)
    <|> headTest 0x0022 .badImage 44 ((fieldOfAll (some m) 0x02 16 12 2).min? != some m.margin)

/-- The monitor input of a temperature source, if it names one. -/
def sourceInput (src : Nat) : Option Nat := if 32 ≤ src then some (src - 32) else none

/-- The input that MON converts for a temperature source (R82, R113). -/
def sourcePoint (src : Nat) : Nat := if 32 ≤ src then src - 32 else 208 + src

/-- The words of a gate in use that name patterns the map does not hold (check 0x0146). -/
def patternMissing (m : Option PisteMap) (w : Nat) : Bool :=
  bits w 31 28 == 4 && (m.bind (·.sect? 0x31 (bits w 27 16))).isNone

/-- Check 0x0146 on the course table. -/
def gatePatterns (m : Option PisteMap) (p : Part) : Found :=
  firstGate p.bytes fun e g x =>
    if fieldAt e 1 1 ≤ g then none else [0, 4, 8, 12, 20].find? fun o => patternMissing m (fieldAt x o 4)

/-- `avg` of a pixel in the acquisition table (R242). -/
def avgOf (m : Option PisteMap) (p : Nat) : Nat := mapBits m 0x38 0 (64 + p) 1 3 0 0

/-- Check 0x0153 on an instance: `samples` is a multiple of 2^avg of every pixel it can select. -/
def samplesFit (m : Option PisteMap) (c : Nat) : Bool :=
  (List.range 1024).all fun p => !selectable m c p || samplesOf m c % 2 ^ avgOf m p == 0

/-- R271: an owner that a port's role allows for a half of a chair. -/
def ownerAllowed (m : Option PisteMap) (port : Nat) (rx : Bool) (address vc : Nat) : Bool :=
  match portRole m port, rx with
  | 2, false | 3, false => address == 0 || address == 0xFFF
  | 2, true | 3, true => (address == 0 || address == 0xFFF) && vc == 0
  | 1, false => address == 0xFFF && vc == 0
  | 1, true => address == 0xFFF || routedTo m address port
  | _, _ => false

/-- Check 0x0172 on a lift wheel. -/
def wheelOwners (m : Option PisteMap) (p : Part) : Found :=
  firstEntry 4 p.bytes fun _ e =>
    let bad := fun rx =>
      let (a, v, used) := chairHalf e rx
      used && !ownerAllowed m p.dir.inst rx a v
    failAt 0 (bad false) <|> failAt 2 (bad true)

/-- The first byte of the first field of a wheel that differs from another wheel (checks 0x0173, 0x01C0). -/
def wheelDiffers (m : Option PisteMap) (other : Nat) (p : Part) : Found :=
  firstEntry 4 p.bytes fun i e =>
    [0, 2].findSome? fun o =>
      let a := fieldAt e o 2
      let b := mapNum m 0x48 other (16 + 4 * i + o) 2 0
      if a == b then none else some (if bits a 11 0 != bits b 11 0 then o else o + 1)

/-- Check 0x0174 on the routing table. -/
def routingRules (m : Option PisteMap) (p : Part) : Found :=
  firstEntry 4 p.bytes fun i e =>
    let address := fun (k : Nat) => bits (fieldAt p.bytes (16 + 4 * k) 2) 11 0
    failAt 0 (i != 0 && address i ≤ address (i - 1)) <|> failAt 2 (portRole m (bits (fieldAt e 2 1) 2 0) != 1)

/-- A transmit chair carries a stream that is sent under passes: its VC (R277). -/
def passedVc (m : Option PisteMap) (port : Nat) (e : List Byte) : Option Nat :=
  let (a, v, used) := chairHalf e false
  if used && ((portRole m port == 2 && a == 0) || (portRole m port == 1 && a == 0xFFF && firstPort m port == port)) then some v
  else none

/-- The credit table holds a hold entry for a stream. -/
def holdsFor (m : Option PisteMap) (port vc : Nat) : Bool :=
  (List.range (mapCount m 0x49 0)).any fun k =>
    let (g, hold) := creditEntry m k
    hold && g.address == 0 && g.port == port && g.vc == vc

/-- Some transmit chair of a port carries the stream of a VC that is sent under passes. -/
def carries (m : Option PisteMap) (port vc : Nat) : Bool :=
  match m.bind (·.sect? 0x48 port) with
  | none => false
  | some bs => (List.range (entryCount bs)).any fun i => passedVc m port (sliceBytes bs (16 + 4 * i) 4) == some vc

/-- Check 0x0175: entries that repeat, streams without a hold entry, hold entries without a stream, grants to pass-mode
partners. -/
def creditFail (m : Option PisteMap) (parts : List Part) : Option MapFail :=
  let entries := fun (test : Nat → Grant × Bool → Option Nat) =>
    crossOver parts 0x49 0x0175 fun p => firstEntry 8 p.bytes fun k _ => test k (creditEntry m k)
  let same := fun (x y : Grant × Bool) =>
    x.2 == y.2 && x.1.address == y.1.address && x.1.port == y.1.port && x.1.vc == y.1.vc
  firstFail [
    entries fun k x => failAt 0 ((List.range k).any fun j => same (creditEntry m j) x),
    crossOver parts 0x48 0x0175 fun p => firstEntry 4 p.bytes fun _ e =>
      match passedVc m p.dir.inst e with
      | some v => failAt 0 (!holdsFor m p.dir.inst v)
      | none => none,
    entries fun _ x => failAt 2 (x.2 && !(x.1.address == 0 && carries m x.1.port x.1.vc)),
    entries fun _ x => failAt 0 (!x.2 && portRole m x.1.port == 1 && (route m x.1.address).any (·.2))]

/-- Chain buffers that the grants, the pass queues and the markers take (R297). -/
def grantedBuffers (m : Option PisteMap) : Nat :=
  ((newGrants m []).map fun g => grantReserve g.passes).sum + passBuffers m + 4

/-- Chain buffers that the grants and the pass queues leave to the local pool (R297). -/
def localShare (m : Option PisteMap) : Int := 8192 - Int.ofNat (grantedBuffers m)

/-- An origin may be expected: the module itself or a build-mode partner (check 0x0177). -/
def mayExpect (m : Option PisteMap) (a : Nat) : Bool := a == selfAddress m || (route m a).any (!·.2)

/-- Check 0x0177 on the event-building table. -/
def expectRules (m : Option PisteMap) : Found :=
  if selfAddress m != mapNum m 0x32 0 28 2 0 then some (16, none)
  else if (List.range 4096).any fun a => bit (mapNum m 0x4B 0 (64 + a / 8) 1 0) (a % 8) && !mayExpect m a then some (64, none)
  else none

/-- The Store ports that a layout uses (R372). -/
def layoutPorts (layout : Nat) : List Nat := match layout with | 0 => [6] | 1 => [7] | _ => [6, 7]

/-- A field of an entry rejected by a check. -/
def entryTest (parts : List Part) (typ check stride off : Nat) (bad : List Byte → Bool) : Option MapFail :=
  crossOver parts typ check fun p => firstEntry stride p.bytes fun _ e => failAt off (bad e)

/-- The cross-section checks in ascending code (R49). DESIGN CHOICE (log entry 10): within one code, 0x0021 tests every lift wheel
before the credit table whatever their directory order, and 0x0175 goes from one to the other; the spec gives no order there. -/
def crossFail (pm : PisteMap) (parts : List Part) : Option MapFail :=
  let m := some pm
  let selected := (List.range (mapCount m 0x21 0)).map fun i => mapNum m 0x21 0 (16 + 8 * i) 1 0
  firstFail [
    crossOver parts 0x48 0x0020 fun p => if [1, 2, 3].contains (portRole m p.dir.inst) then none else some (2, none),
    crossOver parts 0x48 0x0021 (wheelRouted m),
    crossOver parts 0x49 0x0021 (creditRouted m),
    marginFail pm parts,
    entryTest parts 0x13 0x0106 32 9 fun e => (sourceInput (fieldAt e 9 1)).any fun i => inputMode m i == 0,
    entryTest parts 0x21 0x0112 8 0 fun e => fieldAt e 0 1 < 128 && inputMode m (fieldAt e 0 1) == 0,
    entryTest parts 0x13 0x0115 32 9 fun e => !selected.contains (sourcePoint (fieldAt e 9 1)),
    entryTest parts 0x28 0x0123 32 0 fun e =>
      (fieldAt e 0 1 == 0 && !bit (fieldAt e 1 1) 3) || (fieldAt e 0 1 == 1 && (!bit (fieldAt e 1 1) 4 || !hasUp m)),
    crossOver parts 0x30 0x0146 (gatePatterns m),
    crossOver parts 0x39 0x0153 fun p => if samplesFit m p.dir.inst then none else some (18, some 0),
    crossOver parts 0x39 0x0154 fun p => if rawSize m p.dir.inst (avgOf m) ≤ 1048576 then none else some (18, some 0),
    crossOver parts 0x48 0x0172 (wheelOwners m),
    crossOver parts 0x48 0x0173 fun p =>
      match portRole m p.dir.inst, portOfRole m 2 with
      | 3, some a => wheelDiffers m a p
      | _, _ => none,
    crossOver parts 0x4A 0x0174 (routingRules m),
    creditFail m parts,
    crossOver parts 0x4B 0x0176 fun _ => if localShare m < 512 then some (36, none) else none,
    crossOver parts 0x4B 0x0177 fun _ => expectRules m,
    entryTest parts 0x58 0x0192 32 1 fun e =>
      (List.range 8).any fun p => (portRole m p == 4) != (layoutPorts (fieldAt e 1 1)).contains p,
    entryTest parts 0x58 0x0193 32 0 fun e => fieldAt e 0 1 ≤ 1 && !hasUp m,
    entryTest parts 0x58 0x0194 32 0 fun e => fieldAt e 0 1 == 1 && !((portOfRole m 2).any (holdsFor m · 3)),
    crossOver parts 0x48 0x01C0 fun p =>
      if firstPort m p.dir.inst != p.dir.inst then wheelDiffers m (firstPort m p.dir.inst) p else none,
    entryTest parts 0x4A 0x01C1 4 2 fun e =>
      bit (fieldAt e 2 1) 3 && (twinPort m (bits (fieldAt e 2 1) 2 0)).isSome,
    crossOver parts 0x6A 0x01E2 fun p => firstEntry 20 p.bytes fun i e =>
      failAt 0 ((fieldOfAll m 0x02 16 1 1).contains (fieldAt e 0 1) || repeated p.bytes 20 0 1 i),
    crossOver parts 0x69 0x01E3 fun p =>
      if (fieldOfAll m 0x10 8 7 1).any fun b => 16383 < b + fieldAt p.bytes 30 1 + fieldAt p.bytes 31 1 then some (30, none)
      else none]

/-! ### The whole check (R49) -/

/-- The checks that need no section: 0x0001 to 0x000A. -/
def frameFail (x : Image) (minor : Nat) : Option MapFail :=
  headerFail x minor <|> rangeFail x <|> headTest 0x0009 .badCrc 256 (fieldAt x.head 48 4 != crc32c x.table)
    <|> placementFail x

/-- The checks on the sections of an image whose directory is sound, and on the map they make. -/
def bodyFail (x : Image) (m : PisteMap) (parts : List Part) : Option MapFail :=
  let typed := parts.filter fun p => !isOwner p.dir.typ
  crcFail parts <|> signatureFail x <|> parts.findSome? preambleFail <|> parts.findSome? lengthFail
    <|> presenceFail x.dirs (some m) <|> typed.findSome? ownRange <|> typed.findSome? (ownRules (some m))
    <|> typed.findSome? sectionFail <|> crossFail m typed

/-- Every check of R49 on a slot, in order: the first that fails, or the map. -/
def checkMap (f : List Host.Cell) (slot minor : Nat) : Except MapFail PisteMap :=
  let x := imageOf f slot
  match frameFail x minor with
  | some e => .error e
  | none =>
    let parts := x.dirs.map x.part
    let m := mapOf x slot parts
    match bodyFail x m parts with
    | some e => .error e
    | none => .ok m

end Sys2Proof.Machine
end

