-- ==== Sys2Proof/Machine/Firmware.lean ====
section
/-! DEFINITION. Firmware images, their activation, trial and roll-back, and the completion of flash operations (R546 to
R565). -/

namespace Sys2Proof.Machine

/-! ### Images (R551 to R553) -/

/-- `magic` of a firmware image. -/
def fwMagic : List Byte := textBytes "PELSORFW"

/-- The release key that a header names, among the at most 4 in ROM (R552). -/
def releaseKey (id : Nat) : Option (List Byte) := (Config.releaseKeys.take 4).find? fun k => keyIdOf k == id

/-- The digest of an image (R552). -/
def fwDigest (f : List Host.Cell) (base len : Nat) : List Byte :=
  sha256 (flashBytes f base 256 ++ flashBytes f (base + 512) (len - 512))

/-- The checks of R553 on a slot, in their order: the first that fails, with its status. -/
def checkImage (f : List Host.Cell) (image slot : Nat) : Option (Nat × Status) :=
  let base := fwBase image slot
  let hd := flashBytes f base 512
  let len := fieldAt hd 16 4
  if hd.take 8 != fwMagic then some (0x0301, .badImage)
  else if fieldAt hd 508 4 != crc32c (hd.take 508) then some (0x0302, .badCrc)
  else if fieldAt hd 8 2 != 1 then some (0x0303, .incompatible)
  else if fieldAt hd 10 1 != image then some (0x0304, .badImage)
  else if len < 768 || fwSize image < len || len % 256 != 0 || fieldAt hd 11 1 < 1 || 16 < fieldAt hd 11 1 then
    some (0x0305, .badImage)
  else if !bit (fieldAt hd 20 4) Config.stepping.toNat then some (0x0306, .incompatible)
  else
    match releaseKey (fieldAt hd 256 8) with
    | none => some (0x0307, .verifyFailed)
    | some k =>
      if fwDigest f base len != sliceBytes hd 264 32 then some (0x0308, .verifyFailed)
      else if !edVerify k (sliceBytes hd 264 32) (sliceBytes hd 296 64) then some (0x0309, .verifyFailed)
      else none

/-- A version lies in one of the compatibility ranges of a header (R555). -/
def compatWith (hd : List Byte) (version : Nat) : Bool :=
  (List.range (fieldAt hd 11 1)).any fun i => fieldAt hd (64 + 8 * i) 4 ≤ version && version ≤ fieldAt hd (68 + 8 * i) 4

/-- A control slot and a lane slot form a tested pairing (R555). -/
def testedPairing (f : List Host.Cell) (ctrl lane : Nat) : Bool :=
  let c := flashBytes f (fwBase 0 ctrl) 512
  let l := flashBytes f (fwBase 1 lane) 512
  (checkImage f 0 ctrl).isNone && (checkImage f 1 lane).isNone && compatWith c (fieldAt l 12 4)
    && compatWith l (fieldAt c 12 4)

/-- `schema_minor` of a control slot (R551). -/
def schemaMinor (f : List Host.Cell) (ctrl : Nat) : Nat := fieldAt (flashBytes f (fwBase 0 ctrl) 512) 24 1

/-- A slot that a record names is locked (R559). -/
def BootRecord.names (r : BootRecord) (image slot : Nat) : Bool :=
  if image = 0 then r.ctrlSlot == slot || r.prevCtrl == slot else r.laneSlot == slot || r.prevLane == slot

/-- A firmware slot is locked: the record in force names it, or the one that is being written (R559). -/
def State.fwLocked (s : State) (image slot : Nat) : Bool :=
  (bootRecord s.flash).any (·.names image slot) || s.recordAhead.names image slot

/-- A waiting command holds a firmware slot (R421). -/
def State.fwHeld (s : State) (image slot : Nat) : Bool := s.dev.flashHeld (fwBase image slot) (fwSize image)

/-- Mark a slot verified, or not (R554). -/
def Dev.markVerified (d : Dev) (image slot : Nat) (v : Bool) : Dev :=
  d.modFw fun x => { x with verified := modAt x.verified (2 * image + slot) fun _ => v }

/-- An image and a slot that exist. -/
def fwSlot (image slot : Nat) : Bool := image ≤ 1 && slot ≤ 1

/-- Seconds of the trial in this boot; 0 outside a trial, and until the reset that starts the pair on trial, which counts
the boot (R556, R557, R560). -/
def State.trialSeconds (s : State) : Nat :=
  if (bootRecord s.flash).any (fun r => r.trial && 1 ≤ r.trialBoots) && s.dev.sys.imagesStarted then
    (s.dev.sys.ticks - s.dev.fw.started) / ticksPerSecond
  else 0

/-! ### Completion of flash operations (R546) -/

/-- What a write of the module's own that has completed leads to: the events of R563; a roll-back at the time limit resets
the module as `SYS.RESET` kind 0 does (R557). -/
def Dev.ownWritten (d : Dev) (f : List Host.Cell) (w : OwnWrite) (seconds : Nat) : Dev :=
  match w, bootRecord f with
  | .boot (.activate _ _) _, some r =>
    d.raise 1856 0 [evNat r.ctrlSlot, evNat r.ctrlVersion, evNat r.laneSlot, evNat r.laneVersion]
  | .boot .confirm _, some r => d.raise 1858 0 [evNat r.ctrlVersion, evNat r.laneVersion, evNat seconds]
  | .boot .rollBack _, some r =>
    let d := d.raise 1859 0 [evNat 0, evNat r.ctrlSlot, evNat r.laneSlot]
    { d with sys := { d.sys with resetDue := some (2, usTicks 200) } }
  | .correction v, _ => d.raise 1547 0 [.real (f32OfFrac v 1000)]
  | _, _ => d

/-- The first step of what is under way has completed as it should: the next follows, or the operation ends (R546,
R547). -/
def State.stepDone (s : State) (seconds : Nat) : State :=
  match s.dev.fw.busy with
  | .idle => s
  | .own =>
    let rest := s.dev.fw.ownSteps.drop 1
    if !rest.isEmpty then s.onDev (·.modFw fun x => { x with ownSteps := rest })
    else
      match s.dev.fw.own with
      | [] => s
      | w :: ws =>
        s.onDev fun d => w.settle s.flash
          ((d.modFw fun x => { x with own := ws, ownSteps := [], busy := .idle }).ownWritten s.flash w seconds)
  | .host =>
    match s.dev.fw.jobs with
    | [] => s
    | j :: js =>
      if 1 < j.steps.length then
        s.onDev (·.modFw fun x => { x with jobs := { j with steps := j.steps.drop 1 } :: js, busy := .idle })
      else
        let s := s.onDev (·.modFw fun x => { x with jobs := js, busy := .idle })
        match j.then_ with
        | .answer => s.onDev (·.finish j.ctx .ok [])
        | .unlock => s.onDev (·.modFw fun x => { x with own := x.own ++ [.keys .clear (some j.ctx)] })

/-- A read-back that differs ends the command with VERIFY_FAILED and event 1860 (R546). -/
def State.stepFailed (s : State) (offset : Nat) (erase : Bool) : State :=
  let s := match s.dev.fw.busy with
    | .idle => s
    | .own =>
      match s.dev.fw.own with
      | [] => s
      | w :: ws => s.onDev fun d =>
        (d.modFw fun x => { x with own := ws, ownSteps := [], busy := .idle }).finishOpt w.ctx .verifyFailed []
    | .host =>
      match s.dev.fw.jobs with
      | [] => s
      | j :: js => s.onDev fun d => (d.modFw fun x => { x with jobs := js, busy := .idle }).finish j.ctx .verifyFailed []
  s.onDev (·.raiseLimited 1860 0 0 [evNat offset, evNat (b2n erase)])

/-- FLASH_OPERATION_DONE: the erase or program under way completes, but for bytes that the device has left otherwise, and is
read back (R546). -/
def execFlashOperationDone (wrong : List FlashFault) (s : State) : Host.Outcome State Fault Refusal :=
  .next (match s.dev.fw.present with
    | none => s
    | some x =>
      let seconds := s.trialSeconds
      let f := spoil x wrong (x.apply s.flash)
      let s : State := { s with flash := f }
      (match firstDifference x f with
      | none => s.stepDone seconds
      | some o => s.stepFailed o (match x with | .erase _ => true | .program _ _ => false)).kick)

/-- TRIAL_TIME_LIMIT: a pair on trial has run for 600 s; the module writes a roll-back record (R557). -/
def execTrialTimeLimit (s : State) : Host.Outcome State Fault Refusal :=
  .next (if 600 ≤ s.trialSeconds && s.recordAhead.trial then s.ownWrite (.boot .rollBack none) else s)

/-! ### Commands (R565) -/

/-- `FW.STATUS`. -/
def fwStatusKind : CmdKind := ⟨0x0E00, false, anyState⟩

/-- The 32 bytes of `FW.STATUS` (R462). -/
def fwStatusData (s : State) : List Byte :=
  let r := (bootRecord s.flash).getD ⟨0, 0, 0, 0, 0, false, 0, 0, 0, 0, TimeWord.zero⟩
  leBytes 1 r.ctrlSlot ++ leBytes 1 (b2n r.trial) ++ leBytes 1 r.trialBoots ++ zeros 1 ++ leBytes 4 (slotVersion s.flash 0 0)
    ++ leBytes 4 (slotVersion s.flash 0 1) ++ leBytes 1 r.laneSlot ++ leBytes 1 (b2n r.trial) ++ zeros 2
    ++ leBytes 4 (slotVersion s.flash 1 0) ++ leBytes 4 (slotVersion s.flash 1 1) ++ leBytes 2 (saturate 16 s.trialSeconds)
    ++ zeros 6

/-- FW_STATUS. -/
def execFwStatus (h : CmdHeader) (s : State) : Host.Outcome State Fault Refusal :=
  .next (hostRun (.fwStatus h) fwStatusKind h (fun _ s => (s, .done .ok (fwStatusData s))) s)

/-- `FW.ERASE`. -/
def fwEraseKind : CmdKind := ⟨0x0E01, false, flashStates⟩

/-- The sectors of a region of the flash. -/
def sectorsOf (base size : Nat) : List Nat := (List.range (size / sectorBytes)).map (base / sectorBytes + ·)

/-- Erase a slot that is not locked (R559); answered on completion. -/
def fwEraseEff (image slot : Nat) : Effect := fun c s =>
  if !fwSlot image slot then (s, .done .outOfRange [])
  else if s.fwLocked image slot then (s, .done .locked [])
  else if s.fwHeld image slot then (s, .done .wrongState [])
  else
    ((s.onDev (·.markVerified image slot false)).hostJob
      ⟨c, (sectorsOf (fwBase image slot) (fwSize image)).map .erase, .answer⟩, .wait)

/-- FW_ERASE. -/
def execFwErase (h : CmdHeader) (image fwSlot : Nat) (s : State) : Host.Outcome State Fault Refusal :=
  .next (hostRun (.fwErase h image fwSlot) fwEraseKind h (fwEraseEff image fwSlot) s)

/-- `FW.WRITE`. -/
def fwWriteKind : CmdKind := ⟨0x0E02, false, flashStates⟩

/-- Program bytes of a slot: the checks of R545 in their order; answered on completion. -/
def fwWriteEff (image slot offset : Nat) (data : List Byte) : Effect := fun c s =>
  let a := fwBase image slot + offset
  if !fwSlot image slot || data.length < 1 || 1016 < data.length || fwSize image < offset + data.length then
    (s, .done .outOfRange [])
  else if s.fwLocked image slot then (s, .done .locked [])
  else if s.fwHeld image slot then (s, .done .wrongState [])
  else if !isBlank s.flash a data.length then (s, .done .notErased [])
  else ((s.onDev (·.markVerified image slot false)).hostJob ⟨c, programSteps a data, .answer⟩, .wait)

/-- FW_WRITE. -/
def execFwWrite (h : CmdHeader) (image fwSlot offset : Nat) (data : List Byte) (s : State) : Host.Outcome State Fault Refusal :=
  .next (hostRun (.fwWrite h image fwSlot offset data) fwWriteKind h (fwWriteEff image fwSlot offset data) s)

/-- `FW.VERIFY`. -/
def fwVerifyKind : CmdKind := ⟨0x0E03, false, flashStates⟩

/-- Check a slot and mark it verified (R553, R554). -/
def fwVerifyEff (image slot : Nat) : Effect := fun _ s =>
  if !fwSlot image slot then (s, .done .outOfRange [])
  else if s.fwHeld image slot then (s, .done .wrongState [])
  else
    match checkImage s.flash image slot with
    | some (code, st) => (s, .done st (leBytes 4 code))
    | none => (s.onDev (·.markVerified image slot true), .done .ok (leBytes 4 (slotVersion s.flash image slot)))

/-- FW_VERIFY. -/
def execFwVerify (h : CmdHeader) (image fwSlot : Nat) (s : State) : Host.Outcome State Fault Refusal :=
  .next (hostRun (.fwVerify h image fwSlot) fwVerifyKind h (fwVerifyEff image fwSlot) s)

/-- `FW.ACTIVATE`. -/
def fwActivateKind : CmdKind := ⟨0x0E04, false, flashStates⟩

/-- A slot operand that names a slot is verified (R556). -/
def Dev.fwNamed (d : Dev) (image slot : Nat) : Bool := slot == 255 || getD d.fw.verified (2 * image + slot) false

/-- The minor number of the schema of the map in a slot (R33). -/
def mapMinor (f : List Host.Cell) (slot : Nat) : Nat := fieldAt (flashBytes f (mapBase slot + 8) 1) 0 1

/-- The checks of R556 in their order, then the record of the trial; answered on completion. -/
def fwActivateEff (ctrlSlot laneSlot : Nat) : Effect := fun c s =>
  let legal := fun (n : Nat) => n ≤ 1 || n == 255
  let r := (BootChange.activate ctrlSlot laneSlot).apply s.recordAhead
  if !legal ctrlSlot || !legal laneSlot || (ctrlSlot == 255 && laneSlot == 255) then (s, .done .outOfRange (zeros 4))
  else if s.recordAhead.trial then (s, .done .wrongState (zeros 4))
  else if !(s.dev.fwNamed 0 ctrlSlot && s.dev.fwNamed 1 laneSlot) then (s, .done .wrongState (zeros 4))
  else if !testedPairing s.flash r.ctrlSlot r.laneSlot then (s, .done .incompatible (leBytes 4 0x0310))
  else if r.bootMap ≤ 3 && schemaMinor s.flash r.ctrlSlot < mapMinor s.flash r.bootMap then
    (s, .done .incompatible (leBytes 4 0x0311))
  else (s.ownWrite (.boot (.activate ctrlSlot laneSlot) (some c)), .wait)

/-- FW_ACTIVATE. -/
def execFwActivate (h : CmdHeader) (ctrlSlot laneSlot : Nat) (s : State) : Host.Outcome State Fault Refusal :=
  .next (hostRun (.fwActivate h ctrlSlot laneSlot) fwActivateKind h (fwActivateEff ctrlSlot laneSlot) s)

/-- `FW.CONFIRM`. -/
def fwConfirmKind : CmdKind := ⟨0x0E05, false, workStates⟩

/-- A roll-back record that has not been begun: the limit applies no longer once the trial is confirmed (R564). -/
def Dev.withdrawRollBack (d : Dev) : Dev :=
  let pending := fun (w : OwnWrite) => match w with | .boot .rollBack _ => false | _ => true
  if d.fw.ownSteps.isEmpty then d.modFw fun x => { x with own := x.own.filter pending }
  else d.modFw fun x => { x with own := x.own.take 1 ++ (x.own.drop 1).filter pending }

/-- The record that confirms the pair on trial; answered on completion (R558). -/
def fwConfirmEff : Effect := fun c s =>
  let s' := s.onDev (·.withdrawRollBack)
  if s'.recordAhead.trial then (s'.ownWrite (.boot .confirm (some c)), .wait) else (s, .done .wrongState [])

/-- FW_CONFIRM. -/
def execFwConfirm (h : CmdHeader) (s : State) : Host.Outcome State Fault Refusal :=
  .next (hostRun (.fwConfirm h) fwConfirmKind h fwConfirmEff s)

end Sys2Proof.Machine
end

