-- ==== Sys2Proof/Machine/Link.lean ====
section
/-! DEFINITION. The link layer of a port: parcels, sequences, acknowledgement, replay, chairs, alignment blocks
(R268 to R273, R322, R337 to R353, R477 to R479). -/

namespace Sys2Proof.Machine

/-! ### Parcels (R337 to R339, R346) -/

/-- The 4 bytes of an acknowledgement item (R346). -/
def AckItem.bytes (a : AckItem) : List Byte :=
  leBytes 2 (a.seq + 4096 * b2n a.valid) ++ leBytes 1 (a.nakId + 16 * b2n a.nak) ++ zeros 1

/-- The item that 4 bytes spell. -/
def ackOf (bs : List Byte) : AckItem :=
  let w := fieldAt bs 0 2
  let n := fieldAt bs 2 1
  ⟨bits w 11 0, bit w 12, bits n 3 0, bit n 4⟩

/-- The bytes of a parcel before its CRC (R337, R338). -/
def Held.body (h : Held) : List Byte :=
  leBytes 6 (h.typ + 16 * b2n h.poisoned + 32 * b2n h.fst + 2 ^ 8 * h.seq + 2 ^ 20 * h.partner + 2 ^ 32 * h.vc
    + 2 ^ 34 * h.payload.length) ++ h.payload ++ zeros (54 - h.payload.length)

/-- The 64 bytes of a parcel (R337). -/
def Held.bytes (h : Held) : List Byte := h.body ++ leBytes 4 (crc32c h.body)

/-- The 64 bytes of a parcel that is sent with an inverted CRC (R413). -/
def Held.badBytes (h : Held) : List Byte := h.body ++ leBytes 4 (crc32c h.body ^^^ 0xFFFFFFFF)

/-- An idle parcel with an acknowledgement item (R339, R347). -/
def idleParcel (a : AckItem) : Held := ⟨0, 0, 0, 0, false, false, a.bytes, 0, none⟩

/-- The parcel that 64 bytes spell; `owner` takes the chair in which it came. -/
def parcelOf (bs : List Byte) (chair : Nat) : Held × Nat :=
  let h := fieldAt bs 0 6
  let len := bits h 39 34
  (⟨bits h 3 0, bits h 19 8, bits h 31 20, bits h 33 32, bit h 5, bit h 4, sliceBytes bs 6 (min len 54), chair, none⟩, len)

/-- The parcel CRC of 64 bytes holds (R337). -/
def parcelOk (bs : List Byte) : Bool := bs.length == 64 && fieldAt bs 60 4 == crc32c (bs.take 60)

/-! ### Replay and acknowledgement (R348 to R352) -/

/-- A replay of the port is counted against lanes: a lane that reaches its window raises event 1676, and the port leaves
with cause 4 (R352, R406, R412). -/
def Dev.replayFault (d : Dev) (p : Nat) (qs : List Nat) : Dev :=
  let (d, hit) := qs.foldl (fun (x : Dev × Bool) q =>
    let l := 4 * p + q
    let (d, reached) := x.1.occurrence 1 l
    if reached then (d.raise 1676 0 [evNat l, evNat p, evNat (d.inWindow 1 (d.faultTimes 1 l))], true) else (d, x.2)) (d, false)
  if hit then d.leave p 4 else d

/-- The lanes a replay counts against: those with an uncorrectable codeword in the failed parcel, else all four (R352). -/
def faultLanes (bad : List Nat) : List Nat := if bad.isEmpty then [0, 1, 2, 3] else bad

/-- Base: the oldest unacknowledged sequence (R349). -/
def LinkTx.base (t : LinkTx) : Nat := (t.next + 4096 - t.held.length) % 4096

/-- Replay from base, with event 1776 and its cause, 0 nak, 1 timeout (R350, R351, R364). -/
def Dev.replayFrom (d : Dev) (p cause : Nat) : Dev :=
  let t := (d.linkPort p).tx
  let d := d.modTx p fun t => { t with replay := if t.held.isEmpty then none else some 0, stillSince := some d.sys.ticks }
  d.raiseLimited 1776 0 (2 * p + cause) [evNat p, evNat t.base, evNat t.held.length, evNat cause]

/-- A record's last parcel is acknowledged on a port (R296). -/
def Dev.ackRecord (d : Dev) (p rid : Nat) : Dev :=
  let one := fun (q : QRec) => if q.rid == rid && !q.acked.contains p then { q with acked := q.acked ++ [p] } else q
  let on := fun (t : TxStream) => { t with items := t.items.map fun i => ⟨i.recs.map one⟩ }
  let pass := fun (x : PassParcel) => if x.rid == rid && !x.acked.contains p then { x with acked := x.acked ++ [p] } else x
  d.modMrg fun m => { m with up := m.up.map on, down := m.down.map on, pass := m.pass.map fun q => q.map pass }

/-- Parcels that are acknowledged leave the replay buffer (R349). -/
def Dev.releaseParcels (d : Dev) (p n : Nat) : Dev :=
  let t := (d.linkPort p).tx
  let gone := t.held.take n
  let d := (d.endStall p).modTx p fun t => { t with
    held := t.held.drop n, stillSince := if t.held.length ≤ n then none else some d.sys.ticks
    replay := match t.replay with
      | some k => if n ≤ k then (if k - n < t.held.length - n then some (k - n) else none)
                  else if n < t.held.length then some 0 else none
      | none => none }
  (gone.foldl (fun d h =>
    match h.record with
    | some (rid, true) => d.ackRecord p rid
    | _ => d) d).releaseItems.drainAll

/-- An acknowledgement item is taken (R349); a new `nak_id` at the tick of a timeout starts no second replay (R365). -/
def Dev.takeAck (d : Dev) (p : Nat) (a : AckItem) : Dev :=
  let t := (d.linkPort p).tx
  let diff := (a.seq + 4096 - t.base) % 4096
  let d :=
    if !a.valid then d
    else if diff < t.held.length then d.releaseParcels p (diff + 1)
    else if diff = 4095 then d
    else d.raiseLimited 1778 0 p [evNat p, evNat a.seq, evNat t.base, evNat t.held.length]
  if a.nak && a.nakId != t.lastNak && t.timeoutAt == some d.sys.ticks then d.modTx p fun t => { t with lastNak := a.nakId }
  else if a.nak && a.nakId != t.lastNak then
    let d := d.modLink p fun l => { l with
      tx := { l.tx with lastNak := a.nakId }, counters := { l.counters with replaysNak := (l.counters.replaysNak + 1) % 2 ^ 64 } }
    d.replayFrom p 0
  else d

/-! ### From the lanes to a parcel (R304, R305, R308, R344) -/

/-- One lane's quarter of a chair: its 128 bits after correction, the outcome of each codeword that holds some of them, and the
number of the first (R308). -/
structure QuarterIn where
  bits : List Bool
  words : List FecWord
  first : Nat
  deriving DecidableEq, Repr

/-- What a lane has received in a chair, with its polarity put right and, where FEC is active, corrected (R304, R308). -/
def Lane.quarterIn (l : Lane) (stage : Nat) (fec : Bool) (chair : Nat) (x : LaneQuarter) : QuarterIn :=
  if fec then
    let at_ := 128 * (chair + 1)
    let k := at_ / 5140
    let ws := x.words.zipIdx.map fun w => fecDecode (codewordSymbols (k + w.2)) (w.1.map (polarisedSymbol stage l.inverted))
    ⟨((symbolBits (ws.flatMap (·.symbols))).drop (at_ % 5140)).take 128, ws, k⟩
  else ⟨lineBits (polarised stage l.inverted x.bytes), [], 0⟩

/-- The codewords whose last message bit lies in a chair's quarter: they are counted with it (R326). -/
def QuarterIn.ended (x : QuarterIn) (chair : Nat) : List FecWord :=
  let until_ := 128 * (chair + 2)
  (x.words.zipIdx.filter fun w => min (5140 * (x.first + w.2 + 1)) rotationBits ≤ until_).map (·.1)

/-- The codewords of a lane are counted; the uncorrectable ones raise lane event 2 (R326, R334). -/
def Dev.countFec (d : Dev) (l stage : Nat) (ws : List FecWord) : Dev :=
  let bad := ws.countP (·.uncorrectable)
  let d := d.modLane l fun n => { n with counters := { n.counters with
    fecCodewords := (n.counters.fecCodewords + ws.length) % 2 ^ 64
    fecCorrectedCw := (n.counters.fecCorrectedCw + ws.countP fun w => w.corrected != 0) % 2 ^ 64
    fecCorrectedSym := (n.counters.fecCorrectedSym + (ws.map (·.corrected)).sum) % 2 ^ 64
    fecUncorrectable := (n.counters.fecUncorrectable + bad) % 2 ^ 64 } }
  if bad = 0 then d else d.laneEvent l 2 0 [evNat stage, evNat bad]

/-- The 64 bytes of a chair out of its four lanes, and the lanes on which a codeword of it was uncorrectable: each quarter
corrected, then descrambled from its lane's block counter (R305, R308, R344). -/
def Dev.chairIn (d : Dev) (p chair : Nat) (qs : List LaneQuarter) : Dev × List Byte × List Nat :=
  let x := d.port p
  (List.range 4).foldl (fun (y : Dev × List Byte × List Nat) q =>
    let l := y.1.lane (4 * p + q)
    let r := l.quarterIn x.stage x.fec chair ((qs[q]?).getD ⟨[], []⟩)
    let bytes := lineBytes 16 (scrambleQuarter l.align.counter q chair r.bits)
    (y.1.countFec (4 * p + q) x.stage (r.ended chair), y.2.1 ++ bytes, if r.words.any (·.uncorrectable) then y.2.2 ++ [q] else y.2.2))
    (d, [], [])

/-- What opens a nak episode (R348, R352). -/
inductive NakCause where
  | crc | full | gap
  deriving DecidableEq, Repr

/-- A nak episode opens, unless one is open (R348); a CRC failure and a gap count a replay (R352). -/
def Dev.openNak (d : Dev) (p : Nat) (cause : NakCause) (bad : List Nat) : Dev :=
  if (d.linkPort p).rx.ack.nak then d
  else
    let d := d.modRx p fun r => { r with
      ack := { r.ack with nak := true, nakId := (r.ack.nakId + 1) % 16 }
      ackChanged := some (r.ackChanged.getD d.sys.ticks) }
    if cause == .full then d else d.replayFault p (faultLanes bad)

/-! ### Receiving (R348) -/

/-- The next expected parcel is accepted (R348): malformed ones are delivered at once, the others pass the crossing. -/
def Dev.acceptParcel (d : Dev) (p : Nat) (h : Held) (len : Nat) : Dev :=
  let d := d.modRx p fun r => { r with
    expected := (r.expected + 1) % 4096, ack := { r.ack with seq := h.seq, valid := true, nak := false }
    ackChanged := some (r.ackChanged.getD d.sys.ticks) }
  if malformed h len then d.deliverParcel p h len
  else
    let d := (d.modRx p fun r => { r with crossing := r.crossing ++ [h] }).drainTest
    d.drainCrossing p (d.linkPort p).rx.crossing.length

/-- The 64 bytes of a chair of a direction that is up, with the lanes on which FEC failed in it (R348). The receiver reads table
entries for an expected parcel; a damaged one poisons it (R59). -/
def Dev.takeParcel (d : Dev) (p chair : Nat) (bs : List Byte) (bad : List Nat) (upsets : List Upset) : Dev :=
  if !parcelOk bs then
    let d := (d.modLink p fun l => { l with counters := { l.counters with crcFailures := (l.counters.crcFailures + 1) % 2 ^ 64 } })
    (d.notePoisoned 5).openNak p .crc bad
  else
    let (h, len) := parcelOf bs chair
    if h.typ = 0 then (if malformed h len then d.deliverParcel p h len else d.takeAck p (ackOf h.payload))
    else
      let r := (d.linkPort p).rx
      let diff := (h.seq + 4096 - r.expected) % 4096
      if diff = 0 then
        let (d, hurt) := d.readUpsets 4 upsets
        let h := { h with poisoned := h.poisoned || hurt }
        if r.crossing.length < crossingDepth d.map.active 2 p 8192 then d.acceptParcel p h len else d.openNak p .full bad
      else if 2048 ≤ diff then
        d.modLink p fun l => { l with counters := { l.counters with duplicates := (l.counters.duplicates + 1) % 2 ^ 64 } }
      else d.openNak p .gap bad

/-- A chair received on the lanes of a locked direction: its codewords are counted, and a direction that is up handles its
parcel (R308, R348). -/
def Dev.receiveParcel (d : Dev) (p chair : Nat) (qs : List LaneQuarter) (upsets : List Upset) : Dev :=
  let x := d.port p
  if x.rx != .locked then d
  else
    let (d, bs, bad) := d.chairIn p chair qs
    if x.step == .up then d.takeParcel p chair bs bad upsets else d

/-! ### Chairs (R272, R350, R477 to R479) -/

/-- What a chair of one port can carry. -/
inductive ChairUse where
  /-- the direction sends no chairs -/
  | silent
  | idle
  | resend (index : Nat)
  | lift
  /-- a new parcel can be taken -/
  | free
  /-- a new parcel cannot be taken: a replay or a full window -/
  | blocked
  deriving DecidableEq, Repr

/-- The transmit direction of a port that is up sends parcels (R328). -/
def Dev.sends (d : Dev) (p : Nat) : Bool :=
  let x := d.port p
  x.step == .up && (x.tx == .up || (x.tx == .asleep && x.txSleep.ackWait))

/-- A held parcel's owner has a chair of its VC in a transmit half (R350). -/
def ownerHasChair (m : Option PisteMap) (p : Nat) (h : Held) : Bool :=
  (List.range 4096).any fun i =>
    let c := halfChair m p i 0
    c.used && c.address == h.owner && c.vc == h.vc

/-- A chair may carry a parcel of a replay (R350). -/
def mayResend (m : Option PisteMap) (p : Nat) (c : HalfChair) (h : Held) : Bool :=
  c.used && ((c.vc == h.vc && (c.address == h.owner || !ownerHasChair m p h)) || (c.vc == 0 && h.typ == 2))

/-- What a chair of a port can carry, first of R272 and R350. A direction that is up before the port is sends idle parcels
(R316, R319). -/
def Dev.chairUse (d : Dev) (p chair : Nat) : ChairUse :=
  let x := d.port p
  let t := (d.linkPort p).tx
  let c := halfChair (d.txMap p) p chair 0
  if !d.sends p then (if x.tx == .align || x.tx == .up then .idle else .silent)
  else
    match t.replay with
    | some k =>
      match t.held[k]? with
      | some h => if mayResend (d.txMap p) p c h then .resend k else if c.used then .blocked else .idle
      | none => .idle
    | none =>
      if !c.used then .idle
      else if 2047 ≤ t.held.length then .blocked
      else if c.vc = 0 && !t.returns.isEmpty then .lift
      else .free

/-- The quarters of a chair go out on the four lanes, scrambled from the counter of the rotation's block and then, with FEC, into
the codeword under way (R305, R308, R344). -/
def LinkTx.quarters (t : LinkTx) (fec : Bool) (bs : List Byte) : LinkTx :=
  let c := (t.counter + 2 ^ 24 - 1) % 2 ^ 24
  (List.range 4).foldl (fun t q =>
    let bits := scrambleQuarter c q t.chair (lineBits (parcelQuarter bs q))
    let (out, held) := if fec then fecSend (getD t.fecBits q []) bits else (bits, [])
    { t with line := modAt t.line q fun _ => out, fecBits := modAt t.fecBits q fun _ => held }) { t with parcel := bs }

/-- Put the 64 bytes of a chair on the lanes of a port. -/
def Dev.putLine (d : Dev) (p : Nat) (bs : List Byte) : Dev := d.modTx p fun t => t.quarters (d.port p).fec bs

/-- The lanes of a port are at electrical idle for a chair. -/
def Dev.quietLine (d : Dev) (p : Nat) : Dev :=
  d.modTx p fun t => { t with parcel := [], line := Vector.replicate 4 [], fecBits := Vector.replicate 4 [] }

/-- An idle parcel with the present acknowledgement item (R347). -/
def Dev.putIdle (d : Dev) (p : Nat) : Dev :=
  let a := (d.linkPort p).rx.ack
  (d.putLine p (idleParcel a).bytes).modRx p fun r => { r with ackChanged := none }

/-- Where a sequence stands in a port's replay buffer of 128 KiB, 64 bytes for each of 2,048 (R391). How the buffer is laid out is
not stated (log entry 113). -/
def replayAddress (p seq : Nat) : Nat := 131072 * p + 64 * (seq % 2048)

/-- An injected fault of a port is taken by the next parcel it sends (R413). -/
def Dev.takePortInject (d : Dev) (p : Nat) : Dev × Bool :=
  if d.integ.portInjects.contains p then (d.modInteg fun g => { g with portInjects := g.portInjects.erase p }, true)
  else (d, false)

/-- A sequenced parcel goes out for the first time: it gets its sequence and is held in the replay buffer (R345, R349); an injected
fault inverts its CRC on the line (R413). -/
def Dev.sendParcel (d : Dev) (p : Nat) (h : Held) : Dev :=
  let h := { h with seq := (d.linkPort p).tx.next }
  let (d, inject) := (d.freshBytes 2 (replayAddress p h.seq) 64).takePortInject p
  let now := d.sys.ticks
  let d := d.modTx p fun t => { t with
    next := (t.next + 1) % 4096, held := t.held ++ [h]
    stillSince := some (t.stillSince.getD now)
    stalledSince := if 2047 ≤ t.held.length + 1 then some (t.stalledSince.getD now) else t.stalledSince
    stallFrom := if 2047 ≤ t.held.length + 1 && t.stalledSince.isNone then now else t.stallFrom }
  d.putLine p (if inject then h.badBytes else h.bytes)

/-- The 64 bytes of a parcel as its replay buffer gives them, sent with the poisoned flag and a CRC of their own (R27). -/
def poisonedParcel (bs : List Byte) : List Byte :=
  let body := (bs.take 60).set 0 ((bs[0]?.getD 0) ||| 0x10)
  body ++ leBytes 4 (crc32c body)

/-- The last 4 bytes of a parcel inverted: the CRC that an injected fault leaves (R413). -/
def invertCrc (bs : List Byte) : List Byte := bs.take 60 ++ (bs.drop 60).map fun b => ~~~ b

/-- The next parcel of a replay (R350), read from the port's replay buffer under R394: one with a damaged byte goes with the
poisoned flag (R27, R28, log entry 113). An injected fault inverts its CRC on the line (R413). -/
def Dev.resendParcel (d : Dev) (p k : Nat) : Dev :=
  match (d.linkPort p).tx.held[k]? with
  | none => d.putIdle p
  | some h =>
    let (d, l) := d.readArea 2 3 (h.bytes.zipIdx.map fun x => (replayAddress p h.seq + x.2, x.1))
    let bs := if anyBad l then poisonedParcel (l.map (·.1)) else h.bytes
    let d := if anyBad l && !h.poisoned then d.notePoisoned 4 else d
    let (d, inject) := d.takePortInject p
    (d.putLine p (if inject then invertCrc bs else bs)).modTx p fun t =>
      { t with replay := if k + 1 < t.held.length then some (k + 1) else none }

/-- A return item (R280). -/
def returnBytes (r : ReturnItem) : List Byte := leBytes 2 (r.address + 4096 * r.vc) ++ leBytes 2 r.count

/-- The items of the next lift-pass parcel (R280): up to 13, or one alone that goes on to a pass-mode partner. -/
def nextReturns (l : List ReturnItem) : List ReturnItem :=
  match l with
  | [] => []
  | r :: rest => if r.alone then [r] else r :: (rest.take 12).takeWhile (!·.alone)

/-- A lift-pass parcel (R280). -/
def Dev.sendLift (d : Dev) (p chair : Nat) : Dev :=
  let items := nextReturns (d.linkPort p).tx.returns
  let c := halfChair (d.txMap p) p chair 0
  let d := d.modTx p fun t => { t with returns := t.returns.drop items.length }
  d.sendParcel p ⟨2, 0, 0, 0, false, false, (items.map returnBytes).flatten, c.address, none⟩

/-- A new parcel that waits for a chair: the key of its stream, its parcel without sequence, the record it begins, and
whether the members that have not joined the stream may join with it (R479). -/
structure NewParcel where
  key : Nat
  parcel : Held
  rid : Nat
  /-- it comes from a pass queue -/
  pass : Bool
  boundary : Bool
  /-- it goes under passes (R277) -/
  passes : Bool
  deriving DecidableEq, Repr

/-- The record of a stream that is sent next: the one under way, or the first not yet sent on some port that carries
the stream (R288, R479), of those that may be sent. The second part is the number of its parcels sent. -/
def TxStream.nextRec (t : TxStream) (carry : List Nat) (pick : QRec → Bool) : Option (QRec × Nat) :=
  let all := t.items.flatMap (·.recs)
  match t.cursor with
  | some (rid, n) => (all.find? (·.rid == rid)).map fun q => (q, n)
  | none => (all.find? fun q => pick q && carry.any fun p => !q.carriers.contains p).map fun q => (q, 0)

/-- A record of an upward queue may be sent on the Up ports: all but those whose VC STORE forwards (R384). -/
def Dev.upSendable (d : Dev) (vc : Nat) (q : QRec) : Bool := q.fromStore || !d.storeForwards vc

/-- The bytes of a record from one on, as its reader finds them in its chain buffers; the second part says that one of them is
damaged (R26, R28, R258, R394). -/
def Dev.readRecord (d : Dev) (reader : Nat) (q : QRec) (first n : Nat) : Dev × List Byte × Bool :=
  let bytes := sliceBytes q.bytes first n
  if q.chain.isEmpty then (d, bytes, false)
  else
    let (d, l) := d.readArea 1 reader (bytes.zipIdx.map fun b => (chainAddress q.chain (first + b.2), b.1))
    let (out, bad) := (l.map (·.1), anyBad l)
    let len := q.bytes.length
    let left := (List.range q.chain.length).filter fun j =>
      first < min (4088 * (j + 1)) len && min (4088 * (j + 1)) len ≤ first + n
    let (d, bad) := left.foldl (fun (x : Dev × Bool) j =>
      (chainTail q.chain len j).zipIdx.foldl (fun (x : Dev × Bool) b =>
        let (d, _, bad) := x.1.readData 1 (4096 * (q.chain[j]?.getD 0) + 4088 + b.2) reader b.1.toNat
        (d, x.2 || bad)) x) (d, bad)
    (d, out, bad)

/-- A record of the queues by its number. -/
def Dev.findRec (d : Dev) (rid : Nat) : Option QRec :=
  ((d.mrg.up.toList ++ d.mrg.down.toList).flatMap fun t => t.items.flatMap (·.recs)).find? (·.rid == rid)

/-- Parcel n of a record in merge memory (R285). -/
def recordParcel (q : QRec) (n partner vc owner : Nat) : Held :=
  ⟨1, 0, partner, vc, n == 0, q.damaged, sliceBytes q.bytes (54 * n) 54, owner, some (q.rid, n + 1 == parcelsOf q.bytes.length)⟩

/-- The key under which a port's members join the stream of a partner passed on (R479). -/
def PassParcel.key (x : PassParcel) (vc : Nat) : Nat := 16 + 4 * x.partner + vc

/-- The members, up and not left behind, that a key's parcels go on: those that have joined the stream, or all. -/
def Dev.joinedOf (d : Dev) (members : List Nat) (key : Nat) : List Nat :=
  let j := members.filter fun p => (d.linkPort p).tx.joined.contains key
  if j.isEmpty then members else j

/-- The next parcel of a pass queue: the first that some member carrying its stream has not sent (R294, R296). -/
def Dev.nextPass (d : Dev) (members : List Nat) (vc : Nat) : Option PassParcel :=
  (getD d.mrg.pass vc []).find? fun x => (d.joinedOf members (x.key vc)).any fun p => !x.carriers.contains p

/-- The new parcel that waits for the owner of a chair on the members of a pair (R271, R272). -/
def Dev.newParcel (d : Dev) (p : Nat) (members : List Nat) (c : HalfChair) : Option NewParcel :=
  let m := d.map.active
  let self := fun (q : QRec) => selfAddress (d.itemMap q.old)
  if !c.used then none
  else if ownPair m p then
    if c.address = 0xFFF then
      (d.nextPass members c.vc).map fun x =>
        ⟨x.key c.vc, ⟨1, 0, x.partner, c.vc, x.fst, x.poisoned, x.payload, 0xFFF, some (x.rid, true)⟩, x.rid, true, x.fst, false⟩
    else
      ((d.upStream c.vc).nextRec (d.joinedOf members c.vc) (d.upSendable c.vc)).map fun (q, n) =>
        ⟨c.vc, recordParcel q n (self q) c.vc c.address, q.rid, false, n == 0, true⟩
  else
    ((getD d.mrg.down (firstPort m p) ⟨[], none, none⟩).nextRec (d.joinedOf members 0) fun _ => true).map fun (q, n) =>
      ⟨0, recordParcel q n (bits (fieldAt q.bytes 4 2) 11 0) 0 c.address, q.rid, false, n == 0, true⟩

/-- A port may be waiting with something to send: for `auto_wake` (R331). -/
def Dev.somethingWaits (d : Dev) (p : Nat) : Bool :=
  let m := d.map.active
  !(d.linkPort p).tx.returns.isEmpty ||
    (if ownPair m p then
      ((List.range 4).any fun v => (d.nextPass [p] v).isSome) || ((List.range 4).any fun v => ((d.upStream v).nextRec [p] (d.upSendable v)).isSome)
    else ((getD d.mrg.down (firstPort m p) ⟨[], none, none⟩).nextRec [p] fun _ => true).isSome)

/-- The record a parcel belongs to takes note of the ports that carry it, and its stream of the parcels sent. -/
def TxStream.advance (ports : List Nat) (rid : Nat) (t : TxStream) : TxStream :=
  let one := fun (q : QRec) => if q.rid == rid then { q with carriers := q.carriers ++ ports.filter fun p => !q.carriers.contains p } else q
  let n := match t.cursor with | some (_, n) => n + 1 | none => 1
  let total := ((t.items.flatMap (·.recs)).find? (·.rid == rid)).map fun q => parcelsOf q.bytes.length
  { t with items := t.items.map (fun i => ⟨i.recs.map one⟩), cursor := if total.all fun k => k ≤ n then none else some (rid, n) }

/-- Move on in the stream a new parcel came from. -/
def Dev.advanceStream (d : Dev) (p : Nat) (ports : List Nat) (c : HalfChair) (x : NewParcel) : Dev :=
  let m := d.map.active
  let carry := fun (y : PassParcel) =>
    if y.rid == x.rid then { y with carriers := y.carriers ++ ports.filter fun p => !y.carriers.contains p } else y
  if x.pass then d.modMrg fun g => { g with pass := modAt g.pass c.vc (List.map carry) }
  else if ownPair m p then d.modUp c.vc (TxStream.advance ports x.rid)
  else d.modMrg fun g => { g with down := modAt g.down (firstPort m p) (TxStream.advance ports x.rid) }

/-- Which parcel of its record a new parcel is: as many as the stream has sent of it. -/
def Dev.parcelIndex (d : Dev) (x : NewParcel) : Nat :=
  ((d.mrg.up.toList ++ d.mrg.down.toList).findSome? fun t => t.cursor.bind fun c => if c.1 == x.rid then some c.2 else none).getD 0

/-- A parcel of the pass queues by its number. -/
def Dev.findPass (d : Dev) (rid : Nat) : Option PassParcel := d.mrg.pass.toList.flatten.find? (·.rid == rid)

/-- The payload of a pass-queue parcel as the transmit feed reads it; the second part says that a byte is damaged. -/
def Dev.readPass (d : Dev) (y : PassParcel) (payload : List Byte) : Dev × List Byte × Bool :=
  let (d, l) := (d.takeTurn 1 3 (macroAt (4096 * y.buf))).readArea 1 3
    (payload.zipIdx.map fun b => (passAddress y.buf y.slot + b.2, b.1))
  (d, l.map (·.1), anyBad l)

/-- The transmit feed reads a new parcel out of merge memory in its turn (R22, R28): a damaged byte goes as read, in a parcel with
its poisoned flag; so does a parcel for which a table word was damaged (R59). -/
def Dev.readParcel (d : Dev) (x : NewParcel) (n : Nat) (tables : List Upset) : Dev × Held :=
  let (d, hurt) := d.readUpsets 3 tables
  let (d, payload, bad) := match if x.pass then none else d.findRec x.rid with
    | some q => (d.takeTurns 1 3 (chainMacros ((q.chain.drop (54 * n / 4088)).take 1))).readRecord 3 q (54 * n) 54
    | none =>
      match d.findPass x.rid with
      | some y => d.readPass y x.parcel.payload
      | none => (d, x.parcel.payload, false)
  if bad || hurt then (d.notePoisoned 4, { x.parcel with payload := payload, poisoned := true }) else (d, x.parcel)

/-- A new parcel goes out in step on its members (R277, R477, R479). -/
def Dev.sendNew (d : Dev) (p : Nat) (ports : List Nat) (c : HalfChair) (x : NewParcel) (h : Held) : Dev :=
  let d := ports.foldl (fun d q =>
    let d := d.sendParcel q h
    let d := d.modTx q fun t => { t with joined := if t.joined.contains x.key then t.joined else t.joined ++ [x.key], blockedSince := none }
    if x.passes then d.modHold q c.vc fun h => { h with count := h.count - 1 } else d) d
  d.advanceStream p ports c x

/-- A member rejoins once its window has room and no replay is outstanding (R478). -/
def Dev.rejoin (d : Dev) (p : Nat) : Dev :=
  let t := (d.linkPort p).tx
  if t.leftBehind && t.replay.isNone && t.held.length < 2047 then
    d.modTx p fun t => { t with leftBehind := false, blockedSince := none, joined := [] }
  else d

/-- What each member's chair carries of its own: a replay, a lift pass or an idle parcel (R272, R350). -/
def Dev.ownUse (d : Dev) (chair : Nat) (p : Nat) : Dev :=
  match d.chairUse p chair with
  | .silent => (if d.somethingWaits p then d.autoWakes p else d).quietLine p
  | .resend k => d.resendParcel p k
  | .lift => d.sendLift p chair
  | _ => d.putIdle p

/-- The chair of a port and of the other member of its pair (R272, R477). A new parcel goes only where every member it
goes on can take it; the others' chairs carry what is their own. -/
def Dev.chairTransmit (d : Dev) (p chair : Nat) (upsets : List Upset) : Dev :=
  let tables := upsets.filter (·.cls == 3)
  let d := d.applyUpsets (upsets.filter (·.cls != 3))
  let pair := pairOf d.map.active p
  let d := pair.foldl (fun d q => (d.rejoin q).modTx q fun t => { t with chair := chair }) d
  let members := pair.filter fun q => d.portUp q && !d.leftBehind q
  let c := halfChair (d.txMap (members.head?.getD p)) p chair 0
  match d.newParcel p members c with
  | none => pair.foldl (fun d q => d.ownUse chair q) d
  | some x =>
    let j := d.joinedOf members x.key
    let ports := if x.boundary then members else j
    let stuck := ports.filter fun q => match d.chairUse q chair with
      | .blocked | .silent | .resend _ => true
      | _ => false
    let held := !x.passes || ports.all fun q => 1 ≤ d.holdCount q c.vc
    if ports.isEmpty || !held then pair.foldl (fun d q => d.ownUse chair q) d
    else if ports.all fun q => d.chairUse q chair == .free then
      let (d, h) := d.readParcel x (d.parcelIndex x) tables
      let d := (pair.filter fun q => !ports.contains q).foldl (fun d q => d.ownUse chair q) d
      d.sendNew p ports c x h
    else
      let now := d.sys.ticks
      let d := if stuck.length < ports.length then
          stuck.foldl (fun d q => d.modTx q fun t => { t with blockedSince := some (t.blockedSince.getD now) }) d
        else d
      pair.foldl (fun d q => d.ownUse chair q) d

/-- CHAIR_TRANSMIT: a chair of a port's transmit half, and of the other member of its pair; the words of merge memory
that the read for it meets upset. -/
def execChairTransmit (port chair : Nat) (upsets : List Upset) (s : State) : Host.Outcome State Fault Refusal :=
  .next (s.onDev (·.chairTransmit port chair upsets))

/-- A member that has kept the pair from sending for longer than its `relock_time` is left behind (R478). -/
def Dev.memberLeftBehind (d : Dev) (p : Nat) : Dev :=
  let t := (d.linkPort p).tx
  if d.portUp p && !t.leftBehind && (t.blockedSince.any fun s => s + relockTicks d.map.active p < d.sys.ticks) then
    let d := d.modTx p fun t => { t with leftBehind := true, joined := [] }
    (d.raise 1804 0 [evNat p, evNat t.held.length]).releaseItems.drainAll
  else d

/-- MEMBER_LEFT_BEHIND. -/
def execMemberLeftBehind (port : Nat) (s : State) : Host.Outcome State Fault Refusal :=
  .next (s.onDev (·.memberLeftBehind port))

/-! ### Alignment blocks (R276, R342, R343) -/

/-- The swap marker has left a port's transmit feed (R276): no item formed before it is on its way to the port any more, and every
parcel that the port is to send of those in its queues has been sent for the first time. -/
def Dev.markerLeft (d : Dev) (p : Nat) : Bool :=
  let own := ownPair d.map.active p
  let sent := fun (vc : Nat) (q : QRec) => !q.old || q.carriers.contains p || (own && !d.upSendable vc q)
  let whole := fun (t : TxStream) (vc : Nat) =>
    t.items.all fun i => i.recs.all fun q => sent vc q && (!q.old || t.cursor.all fun c => c.1 != q.rid)
  if own then
    !d.markerInCmp && !d.markerInFramer && d.mrg.waiting.all (fun w => !w.old)
      && (d.mrg.up.toList.zipIdx.all fun t => whole t.1 t.2)
      && d.mrg.events.all (fun e => e.recs.all fun q => !q.old)
      && d.mrg.pass.toList.all fun l => l.all fun x => !x.old || x.carriers.contains p
  else whole (getD d.mrg.down (firstPort d.map.active p) ⟨[], none, none⟩) 0

/-- The quarter of an alignment block on lane q (R343). -/
def blockQuarter (q counter : Nat) (wheelGen wake : Bool) (ack : AckItem) : List Byte :=
  let b := leBytes 4 0xCC330FF0 ++ ack.bytes ++ leBytes 1 (q + 4 * b2n wheelGen + 8 * b2n wake) ++ leBytes 3 counter
  b ++ leBytes 4 (crc32c b)

/-- The 256 ns of clock pattern before a wake burst's block (R330): 1, 1, 0, 0 repeated in NRZ, the levels 0, 0, 3, 3 repeated in
PAM4. With FEC its symbols are no whole number, and how many are sent is open. -/
def clockPattern (stage : Nat) (fec : Bool) : List Bool :=
  let n := 256 * laneRate stage
  if isPam4 stage then
    (List.range (if fec then Config.clockSymbols stage else n / 2)).flatMap fun i => pam4Pair (if i % 4 < 2 then 0 else 3)
  else (List.range n).map fun i => i % 4 < 2

/-- A block goes out on the four lanes (R305, R308, R330): with FEC the rotation's last codeword ends before it and its first one
begins with it; a wake burst has its clock pattern ahead. -/
def LinkTx.blockLine (t : LinkTx) (stage : Nat) (fec wake : Bool) (block : List Byte) : LinkTx :=
  (List.range 4).foldl (fun t q =>
    let bits := lineBits (parcelQuarter block q)
    let last := if fec then fecFlush (getD t.fecBits q []) else []
    let ahead := if wake then clockPattern stage fec else []
    { t with line := modAt t.line q fun _ => last ++ ahead ++ bits, fecBits := modAt t.fecBits q fun _ => if fec then bits else [] })
    { t with block := block }

/-- An alignment block leaves: the new transmit half comes into force with a toggled wheel-generation bit once the
marker has left (R276), and the block carries the acknowledgement item (R347). -/
def Dev.sendBlock (d : Dev) (p : Nat) (wake : Bool) : Dev :=
  let l := d.linkPort p
  let toggle := l.tx.oldWheel && d.markerLeft p
  let gen := l.tx.wheelGen != toggle
  let quarters := (List.range 4).flatMap fun q => blockQuarter q l.tx.counter gen wake l.rx.ack
  let x := d.port p
  let d := d.modTx p fun t => { t.blockLine x.stage x.fec wake quarters with
    oldWheel := t.oldWheel && !toggle, wheelGen := gen, counter := (t.counter + 1) % 2 ^ 24 }
  d.modRx p fun r => { r with ackChanged := none }

/-- The direction is up from this block: at the end of the chairlift, or of a wake with port event 3 (R319, R330). -/
def Dev.directionUp (d : Dev) (p : Nat) : Dev :=
  let x := d.port p
  if !x.upDue then d
  else
    let d := d.modPort p fun x => { x with
      tx := .up, upDue := false
      txSleep := { x.txSleep with waking := false, wakeAt := none, wakeKey := noWakeKey } }
    let late := match x.txSleep.wakeAt with | some w => evNat (d.globalNow - w) | none => evNone
    let d := if x.txSleep.waking then d.portEvent p 3 [evNat 0, evNat 1, evNat x.txSleep.episode, evNat x.txSleep.bursts, late] else d
    d.decideStep p

/-- ALIGNMENT_BLOCK_SEND: a rotation of a transmit direction begins; the block after the acknowledgement of a sleep is its last
(R328, R353). -/
def execAlignmentBlockSend (port : Nat) (s : State) : Host.Outcome State Fault Refusal :=
  .next (s.onDev fun d =>
    let x := d.port port
    if x.tx == .align || x.tx == .up || (x.tx == .asleep && x.txSleep.ackWait) then
      let d := (d.directionUp port).sendBlock port false
      if x.tx == .asleep && x.txSleep.acked then d.fallAsleep port else d
    else d)

/-- WAKE_KEY_DUE: W has come by the module's time word; burst 0 (R330). -/
def execWakeKeyDue (port : Nat) (s : State) : Host.Outcome State Fault Refusal :=
  .next (s.onDev fun d =>
    let x := d.port port
    if x.tx == .asleep && !x.txSleep.ackWait && (x.txSleep.wakeAt.any fun w => w ≤ d.globalNow) then
      (d.modPort port fun x => { x with
        tx := .align, txSleep := { x.txSleep with waking := true, bursts := 1, seen := none } }).sendBlock port true
    else d)

/-- WAKE_BURST: burst i, 10 µs × i after W, until `wake_seen` and up to 16 in all (R330). -/
def execWakeBurst (port : Nat) (s : State) : Host.Outcome State Fault Refusal :=
  .next (s.onDev fun d =>
    let x := d.port port
    let due := x.txSleep.wakeAt.any fun w => w + usTicks (10 * x.txSleep.bursts) ≤ d.globalNow
    if x.txSleep.waking && x.txSleep.seen.isNone && x.txSleep.bursts < 16 && due then
      (d.modPort port fun x => { x with txSleep := { x.txSleep with bursts := x.txSleep.bursts + 1 } }).sendBlock port true
    else d)

/-! ### Alignment lock (R322, R323, R329) -/

/-- A block's pattern and CRC are valid (R343). -/
def blockGood (b : LaneBlock) : Bool :=
  b.present && fieldAt b.bytes 0 4 == 0xCC330FF0 && fieldAt b.bytes 12 4 == crc32c (b.bytes.take 12)

/-- The block counter of a block. -/
def blockCounter (b : LaneBlock) : Nat := fieldAt b.bytes 9 3

/-- The search of one lane takes a block (R322); one that ends a wake burst begins the count anew (R329). -/
def AlignLane.search (a : AlignLane) (b : LaneBlock) : AlignLane :=
  if !(blockGood b) then { a with run := 0 }
  else if a.run = 0 || bit (fieldAt b.bytes 8 1) 3 then ⟨1, (blockCounter b), 0⟩
  else if b.spaced && (blockCounter b) = (a.counter + 1) % 2 ^ 24 then ⟨min 8 (a.run + 1), (blockCounter b), 0⟩
  else ⟨1, (blockCounter b), 0⟩

/-- Kind of a miss of a locked lane: 0 absent, 1 invalid CRC, 2 counter not one higher (R334). -/
def AlignLane.miss (a : AlignLane) (b : LaneBlock) : Option Nat :=
  if !b.present || fieldAt b.bytes 0 4 != 0xCC330FF0 then some 0
  else if !(blockGood b) then some 1
  else if (blockCounter b) = (a.counter + 1) % 2 ^ 24 then none
  else some 2

/-- A locked lane tests an expected block (R322). -/
def AlignLane.test (a : AlignLane) (b : LaneBlock) : AlignLane :=
  match a.miss b with
  | none => { a with counter := (blockCounter b), misses := 0 }
  | some _ => { a with counter := (a.counter + 1) % 2 ^ 24, misses := a.misses + 1 }

/-- The blocks of the four lanes with their numbers. -/
def laneBlocks (bs : List LaneBlock) : List (LaneBlock × Nat) := (bs.take 4).zipIdx

/-- A block as a lane reads it: with the polarity of its pair put right, and, once the lane is locked and FEC is active, after
correction; the search reads the uncorrected stream (R304, R322). -/
def Dev.laneBlock (d : Dev) (p q : Nat) (word : List Nat) (b : LaneBlock) : LaneBlock :=
  let x := d.port p
  let l := d.lane (4 * p + q)
  if x.fec && x.rx == .locked then
    let w := fecDecode 514 (word.map (polarisedSymbol x.stage l.inverted))
    { b with bytes := lineBytes 16 ((symbolBits w.symbols).take 128) }
  else { b with bytes := polarised x.stage l.inverted b.bytes }

/-- A locked lane tests the block: after four misses in a row it loses lock, with lane event 0, which the second part says. -/
def Dev.testLane (d : Dev) (p q : Nat) (b : LaneBlock) : Dev × Bool :=
  let l := 4 * p + q
  let a := (d.lane l).align
  let a' := a.test b
  if 4 ≤ a'.misses then
    let d := d.modLane l fun n => { n with
      align := ⟨0, 0, 0⟩, counters := { n.counters with lockLosses := (n.counters.lockLosses + 1) % 2 ^ 32 } }
    (d.laneEvent l 0 ((a.miss b).getD 0) [evNat (d.port p).stage, evNat ((a.miss b).getD 0)], true)
  else (d.modLane l fun n => { n with align := a' }, false)

/-- The lanes of a locked direction test the block; the second part says that one has lost lock. -/
def Dev.testLanes (d : Dev) (p : Nat) (bs : List LaneBlock) : Dev × Bool :=
  (laneBlocks bs).foldl (fun (x : Dev × Bool) b =>
    let r := x.1.testLane p b.2 b.1
    (r.1, x.2 || r.2)) (d, false)

/-- The receive direction of a port is up: so is the port, or the partner has announced it in the decide step (R319). -/
def LanePort.receivesUp (x : LanePort) : Bool :=
  x.step == .up || (x.step == .decide && x.received.tx == 3 && x.received.stage == x.stage)

/-- A direction that has lost lock searches again at the same stage: one that is up in a relock (R323). -/
def Dev.lockLost (d : Dev) (p : Nat) : Dev :=
  if (d.port p).receivesUp then d.modPort p fun x => { x with rx := .training, relock := true, relockAt := d.sys.ticks }
  else d.modPort p fun x => { x with rx := .passed, step := .align, commit := none }

/-- All four lanes are locked with equal block counters; where the counters differ, all search again (R322). -/
def Dev.lockState (d : Dev) (p : Nat) : Dev × Bool :=
  let ls := [0, 1, 2, 3].map fun q => (d.lane (4 * p + q)).align
  if ls.all fun a => a.run == 8 then
    if ls.all fun a => some a.counter == ls.head?.map (·.counter) then (d, true)
    else (d.modLanes p fun _ n => { n with align := ⟨0, 0, 0⟩ }, false)
  else (d, false)

/-- A receive direction locks (R316, R323, R330). -/
def Dev.directionLocks (d : Dev) (p : Nat) : Dev :=
  let x := d.port p
  let d := d.modPort p fun x => { x with
    rx := .locked, relock := false, step := if x.step == .align then .decide else x.step
    since := if x.step == .align then d.sys.ticks else x.since
    rxSleep := { x.rxSleep with windowOpen := false, fullSearch := false } }
  let d := d.modTx p fun t => { t with stillSince := if t.held.isEmpty then none else some d.sys.ticks }
  if x.step == .align || x.step == .decide then d.decideStep p else d

/-- A receive direction searches: at the align step, in a relock, or for a wake burst (R316, R323, R329). -/
def LanePort.searches (x : LanePort) : Bool :=
  (x.step == .align && x.rx == .passed) || x.relock
    || (x.rx == .asleep && (x.rxSleep.windowOpen || x.rxSleep.fullSearch || x.rxSleep.wakeSeen))

/-- A search for a wake burst accepts a block found now: the seeded one only from W less `guard` to W and `guard` and 1 µs (R329). -/
def Dev.maySearch (d : Dev) (p : Nat) : Bool :=
  let x := d.port p
  let g : Int := guardTicks d.map.active p
  !(x.rx == .asleep && x.rxSleep.windowOpen && !x.rxSleep.wakeSeen) || (-g ≤ d.sinceWake p && d.sinceWake p ≤ g + usTicks 1)

/-- A lane of a searching direction takes a block: one that is locked already goes on testing (R322), but that a later wake burst
replaces a lock attempt (R329). -/
def Dev.searchLane (d : Dev) (p q : Nat) (b : LaneBlock) : Dev :=
  if (d.lane (4 * p + q)).align.run == 8 && !(blockGood b && bit (fieldAt b.bytes 8 1) 3) then (d.testLane p q b).1
  else d.modLane (4 * p + q) fun n => { n with align := n.align.search b }

/-- The lanes of a searching direction take the blocks found; a burst is detected with the first one (R329). -/
def Dev.searchLanes (d : Dev) (p : Nat) (bs : List LaneBlock) : Dev :=
  if !d.maySearch p then d
  else
  let d := (laneBlocks bs).foldl (fun d b => d.searchLane p b.2 b.1) d
  let d := if (d.port p).rx == .asleep && bs.any blockGood then
      d.modPort p fun x => { x with rxSleep := { x.rxSleep with wakeSeen := true } }
    else d
  let (d, locked) := d.lockState p
  if locked then d.directionLocks p else d

/-- A good block of a locked direction: its acknowledgement, its wheel-generation bit and its counter (R276, R343). -/
def Dev.takeBlock (d : Dev) (p : Nat) (b : LaneBlock) : Dev :=
  let gen := bit (fieldAt b.bytes 8 1) 2
  let d := d.modRx p fun r => { r with
    counter := (blockCounter b), oldWheel := r.oldWheel && gen == r.wheelGen, wheelGen := gen }
  if (d.port p).step == .up then d.takeAck p (ackOf (sliceBytes b.bytes 4 4)) else d

/-- The `lane` values that come with a block (R343). -/
def Dev.noteLaneValues (d : Dev) (p : Nat) (bs : List LaneBlock) : Dev :=
  (laneBlocks bs).foldl (fun d b =>
    if blockGood b.1 then d.modRx p fun r => { r with lanes := modAt r.lanes b.2 fun _ => bits (fieldAt b.1.bytes 8 1) 1 0 } else d) d

/-- An alignment block is due or found on the four lanes of a port (R322, R323, R343). -/
def Dev.blockReceived (d : Dev) (p : Nat) (found : List LaneBlock) (words : List (List Nat)) : Dev :=
  let x := d.port p
  let bs := (laneBlocks found).map fun b => d.laneBlock p b.2 (words.getD b.2 []) b.1
  if x.searches then (d.noteLaneValues p bs).searchLanes p bs
  else if x.rx == .locked then
    let d := d.noteLaneValues p bs
    let (d, lost) := d.testLanes p bs
    if lost then d.lockLost p
    else match bs.find? blockGood with
      | some b => d.takeBlock p b
      | none => d
  else d

/-- ALIGNMENT_BLOCK_RECEIVED: what the four lanes find, and, where FEC is active, the symbols of the codeword that each lane's block
begins, as received over the pair (R308). -/
def execAlignmentBlockReceived (port : Nat) (blocks : List LaneBlock) (words : List (List Nat)) (s : State) :
    Host.Outcome State Fault Refusal :=
  .next (s.onDev (·.blockReceived port blocks words))

/-! ### Timers -/

/-- Ticks of four rotations at a stage (R342, R351). -/
def stillTicks (stage : Nat) : Nat := dataTicks stage (4 * rotationBits)

/-- Parcels are held and base has not advanced for 4 rotations: replay, counted against all four lanes (R351, R352). -/
def Dev.replayTimeout (d : Dev) (p : Nat) : Dev :=
  let t := (d.linkPort p).tx
  if (d.port p).step == .up && (d.port p).rx == .locked && !t.held.isEmpty
      && t.stillSince.any fun x => x + stillTicks (d.port p).stage ≤ d.sys.ticks then
    let d := d.modLink p fun l => { l with
      tx := { l.tx with timeoutAt := some d.sys.ticks }
      counters := { l.counters with replaysTimeout := (l.counters.replaysTimeout + 1) % 2 ^ 64 } }
    (d.replayFrom p 1).replayFault p [0, 1, 2, 3]
  else d

/-- REPLAY_TIMEOUT. -/
def execReplayTimeout (port : Nat) (s : State) : Host.Outcome State Fault Refusal := .next (s.onDev (·.replayTimeout port))

/-- WINDOW_STALL: the window has been full for more than 1 ms (R364). -/
def execWindowStall (port : Nat) (s : State) : Host.Outcome State Fault Refusal :=
  .next (s.onDev fun d =>
    let t := (d.linkPort port).tx
    if t.stalledSince.any fun x => x + usTicks 1000 < d.sys.ticks then
      d.raiseLimited 1777 0 port [evNat port, evNat t.held.length]
    else d)

/-- WHEEL_SWITCH_TIMEOUT: 10 ms after E the new receive half applies in any case (R276). -/
def execWheelSwitchTimeout (port : Nat) (s : State) : Host.Outcome State Fault Refusal :=
  .next (s.onDev fun d =>
    if (d.linkPort port).tx.swapAt + usTicks 10000 ≤ d.sys.ticks then d.modRx port fun r => { r with oldWheel := false } else d)

/-- ACKNOWLEDGEMENT_WAITING: a changed acknowledgement has waited 100 µs for a sleeping direction (R353). -/
def execAcknowledgementWaiting (port : Nat) (s : State) : Host.Outcome State Fault Refusal :=
  .next (s.onDev fun d =>
    if (d.linkPort port).rx.ackChanged.any fun x => x + usTicks 100 ≤ d.sys.ticks then d.autoWakes port else d)

/-- A map becomes active: ports that are up keep their old wheels until the marker has left and the far end has
switched (R276); the others take the new ones. -/
def Dev.linkFromMap (d : Dev) : Dev :=
  let now := d.sys.ticks
  (List.range 8).foldl (fun d p =>
    let up := d.portUp p && d.map.old.isSome
    d.modLink p fun l => { l with
      tx := { l.tx with oldWheel := up, swapAt := now }, rx := { l.rx with oldWheel := up } }) d

/-- No port works with an old wheel. -/
def Dev.wheelsSettled (d : Dev) : Bool := d.link.toList.all fun l => !l.tx.oldWheel && !l.rx.oldWheel

/-! ### LANE.LINK_STATUS (R366) -/

/-- `LANE.LINK_STATUS`. -/
def laneLinkStatusKind : CmdKind := ⟨0x0908, false, upStates⟩

/-- The 64 bytes for a port. -/
def linkStatusPort (d : Dev) (p : Nat) : List Byte :=
  let l := d.linkPort p
  let c := l.counters
  let stall := c.stall + (if l.tx.stalledSince.isSome then d.sys.ticks - l.tx.stallFrom else 0)
  leBytes 2 l.rx.expected ++ leBytes 2 l.tx.base ++ leBytes 2 l.tx.held.length ++ leBytes 1 l.rx.ack.nakId
    ++ leBytes 1 l.tx.lastNak ++ leBytes 8 c.replaysNak ++ leBytes 8 c.replaysTimeout ++ leBytes 8 c.crcFailures
    ++ leBytes 8 c.duplicates ++ leBytes 8 c.malformed ++ leBytes 8 (ticksNs stall)
    ++ (l.rx.lanes.toList.map fun x => BitVec.ofNat 8 x) ++ leBytes 4 l.rx.counter

/-- The 40 bytes for a Schuss lane. -/
def linkStatusSchuss (x : SchussLane) : List Byte :=
  leBytes 1 (b2n x.delineated + 2 * b2n x.up) ++ zeros 1 ++ leBytes 2 x.farId ++ leBytes 8 x.sentCount
    ++ leBytes 8 x.receivedCount ++ leBytes 8 x.discardedCount ++ leBytes 4 x.tRt ++ leBytes 4 x.tauP
    ++ leBytes 4 (satSigned32 x.phase)

/-- The counters of a port cleared; a stall under way counts from now. -/
def LinkPort.clear (now : Nat) (l : LinkPort) : LinkPort :=
  { l with counters := ⟨0, 0, 0, 0, 0, 0⟩, tx := { l.tx with stallFrom := now } }

/-- The status of a port or of a Schuss lane; the clear flag clears its counters (R366). -/
def laneLinkStatusEff (target : Nat) (clear : Bool) : Effect := onDev fun _ _ d =>
  if target ≤ 7 then
    let now := d.sys.ticks
    (if clear then d.modLink target (LinkPort.clear now) else d, .done .ok (linkStatusPort d target))
  else
    match d.schussLane (target - 8) with
    | none => (d, .done .outOfRange [])
    | some x =>
      (if clear then d.modSchuss (target - 8) fun x => { x with sentCount := 0, receivedCount := 0, discardedCount := 0 } else d,
        .done .ok (linkStatusSchuss x))

/-- LANE_LINK_STATUS. -/
def execLaneLinkStatus (h : CmdHeader) (target : Nat) (clear : Bool) (s : State) : Host.Outcome State Fault Refusal :=
  .next (hostRun (.laneLinkStatus h target clear) laneLinkStatusKind h (laneLinkStatusEff target clear) s)

end Sys2Proof.Machine
end

