-- ==== Sys2Proof/Machine/Store.lean ====
section
/-! DEFINITION. STORE: the drives, the log of extents, checkpoints, forwarding and replay (R367 to R389). -/

namespace Sys2Proof.Machine

/-! ### The store table (R385) -/

/-- A field of the store table. -/
def storeField (m : Option PisteMap) (off n dflt : Nat) : Nat := mapNum m 0x0058 0 (16 + off) n dflt

/-- `layout` of the store table. -/
def storeLayout (m : Option PisteMap) : Nat := storeField m 1 1 0

/-- `fua`. -/
def storeFua (m : Option PisteMap) : Bool := bit (storeField m 2 1 0x2E) 5

/-- The drives a layout uses: 0 is P6, 1 is P7 (R372). -/
def layoutDrives (layout : Nat) : List Nat := if layout = 0 then [0] else if layout = 1 then [1] else [0, 1]

/-- The drives that hold extent slot s (R372). -/
def slotDrives (layout s : Nat) : List Nat :=
  if layout = 3 then [s % 2] else layoutDrives layout

/-- Byte offset in a drive's namespace of extent slot s (R372). -/
def slotOffset (layout s : Nat) : Nat := 65536 * (1 + if layout = 3 then s / 2 else s)

/-- Slots of a log that lie on a drive. -/
def slotsOn (layout drive count : Nat) : Nat :=
  if layout = 3 then (if drive = 0 then (count + 1) / 2 else count / 2) else count

/-- The namespaces are large enough for a log (R372). -/
def sizesHold (layout count : Nat) (size : Nat → Nat) : Bool :=
  let used := (layoutDrives layout).map fun v => 65536 * (1 + slotsOn layout v count)
  ((layoutDrives layout).all fun v => 65536 * (1 + slotsOn layout v count) ≤ size v) && used.sum ≤ 2 ^ 48

/-! ### Changing the store -/

/-- Change STORE. -/
def Dev.modStore (d : Dev) (f : StoreState → StoreState) : Dev := { d with store := f d.store }

/-- Change the counts of R389. -/
def Dev.countStore (d : Dev) (f : StoreCounters → StoreCounters) : Dev :=
  d.modStore fun s => { s with counters := f s.counters }

/-- A count of 64 bits moved on. -/
def add64 (n k : Nat) : Nat := (n + k) % 2 ^ 64

/-- A drive by number. -/
def Dev.drive (d : Dev) (v : Nat) : Drive := getD d.store.drives v Drive.initial

/-- Change a drive. -/
def Dev.modDrive (d : Dev) (v : Nat) (f : Drive → Drive) : Dev := d.modStore fun s => { s with drives := modAt s.drives v f }

/-- A drive is up (R369). -/
def Dev.driveUp (d : Dev) (v : Nat) : Bool := (d.drive v).phase == .up

/-! ### The bytes of the log (R373, R374, R383) -/

/-- ASCII text, as bytes. -/
def ascii (s : String) : List Byte := s.toList.map fun c => BitVec.ofNat 8 c.toNat

/-- A superblock (R373). -/
def superblock (layout member count logId : Nat) (t : TimeWord) : List Byte :=
  withCrc (ascii "PXSNOWSB" ++ leBytes 2 1 ++ leBytes 1 layout ++ leBytes 1 member ++ leBytes 4 count
    ++ leBytes 8 logId ++ twBytes t ++ zeros 24)

/-- A superblock is valid: step 1 of R382. -/
def superValid (bs : List Byte) : Bool :=
  bs.take 8 == ascii "PXSNOWSB" && fieldAt bs 8 2 == 1 && fieldAt bs 60 4 == crc32c (bs.take 60)

/-- A checkpoint (R383). -/
def checkpointBytes (gen logId head fwd off : Nat) (t : TimeWord) : List Byte :=
  withCrc (ascii "PXSNOWCP" ++ leBytes 8 gen ++ leBytes 8 logId ++ leBytes 8 head ++ leBytes 8 fwd ++ leBytes 2 off
    ++ zeros 2 ++ twBytes t ++ zeros 4)

/-- A checkpoint copy is valid for a log: step 2 of R382. -/
def checkpointValid (logId : Nat) (bs : List Byte) : Bool :=
  bs.take 8 == ascii "PXSNOWCP" && fieldAt bs 16 8 == logId && fieldAt bs 60 4 == crc32c (bs.take 60)

/-- Bytes of an extent's data region (R374). -/
def extentRoom : Nat := 65472

/-- The data region of an extent: record bytes, then poison entries (R374). -/
def Extent.region (x : Extent) : List Byte := x.data ++ x.poison.flatMap fun e => leBytes 2 e.1 ++ leBytes 2 e.2

/-- The 65,536 bytes of an extent (R374). -/
def Extent.bytes (x : Extent) (logId : Nat) : List Byte :=
  let hd := ascii "SNOWPACK" ++ leBytes 8 x.seq ++ leBytes 8 logId ++ leBytes 2 x.data.length
    ++ leBytes 2 (x.firstRecord.getD 0xFFFF) ++ leBytes 1 x.poison.length ++ leBytes 1 (b2n x.early) ++ zeros 2
    ++ leBytes 6 x.firstKey ++ zeros 2 ++ twBytes x.sealed_ ++ leBytes 4 (crc32c x.region) ++ zeros 4
  withCrc hd ++ x.region ++ zeros (extentRoom - x.region.length)

/-- What is wrong with an extent as read: nothing, 0 its header, 1 `data_crc`, 2 overwritten (R382, R387). -/
def extentFault (logId seq : Nat) (bs : List Byte) : Option Nat :=
  let region := sliceBytes bs 64 (fieldAt bs 24 2 + 4 * fieldAt bs 28 1)
  if bs.take 8 != ascii "SNOWPACK" || fieldAt bs 60 4 != crc32c (bs.take 60) || fieldAt bs 16 8 != logId then some 0
  else if fieldAt bs 8 8 != seq then some 2
  else if fieldAt bs 52 4 != crc32c region then some 1
  else none

/-! ### Commands to the drives (R370 to R373) -/

/-- The namespace of a drive (R385). -/
def storeNsid (m : Option PisteMap) (v : Nat) : Nat := storeField m (4 + 4 * v) 4 1

/-- Byte offset of a structure of the head region: the superblock at 0 and again at 12,288, the checkpoint copies at 4,096 and at
8,192 (R373). -/
def headOffset (checkpoint : Bool) (copy : Nat) : Nat :=
  if checkpoint then (if copy = 0 then 4096 else 8192) else if copy = 0 then 0 else 12288

/-- Where a command reads or writes in a namespace: offset and length (R372, R373). -/
def StoreOp.place (layout count : Nat) : StoreOp → Nat × Nat
  | .readSuper c | .writeSuper c => (headOffset false c, 4096)
  | .readCheckpoint c | .writeCheckpoint c => (headOffset true c, 4096)
  | .readScan n | .readLog _ n | .readFind n | .writeExtent n => (slotOffset layout (n % count), 65536)
  | .flush | .admin _ => (0, 0)

/-- The command for an operation: a checkpoint is written with Force Unit Access, the rest when `fua` is set (R370, R383). -/
def StoreOp.verb (fua : Bool) : StoreOp → NvmeVerb
  | .writeCheckpoint _ => .write true
  | .writeSuper _ | .writeExtent _ => .write fua
  | .flush => .flush
  | .admin _ => .admin
  | _ => .read

/-- The bytes that a Write carries: a structure with the rest of its 4 KiB 0, or an extent (R373, R374, R383). -/
def Dev.opData (d : Dev) (v : Nat) (op : StoreOp) : List Byte :=
  let s := d.store
  let padded := fun (bs : List Byte) => bs ++ zeros (4096 - bs.length)
  match op with
  | .writeSuper _ => padded (superblock (storeLayout d.map.active) v s.extentCount s.logId d.now)
  | .writeCheckpoint _ =>
    padded (checkpointBytes (if s.format.isSome then s.gen else s.gen + 1) s.logId s.head s.fwdSeq s.fwdOffset d.now)
  | .writeExtent n => ((s.sealed_.find? (·.seq == n)).map fun x => x.bytes s.logId).getD []
  | _ => []

/-- Give a drive a command (R370), after so many failures of it. -/
def Dev.submitAgain (d : Dev) (v : Nat) (op : StoreOp) (tries : Nat) : Dev :=
  let m := d.map.active
  let (offset, length) := op.place (storeLayout m) d.store.extentCount
  let data := d.opData v op
  let now := d.sys.ticks
  d.modDrive v fun x => { x with
    cmds := x.cmds ++ [⟨x.nextId, op, op.verb (storeFua m), storeNsid m v, offset, length, data, now, false, tries⟩]
    nextId := (x.nextId + 1) % 2 ^ 32 }

/-- Give a drive a command. -/
def Dev.submit (d : Dev) (v : Nat) (op : StoreOp) : Dev := d.submitAgain v op 0

/-- The drive a slot is read from: the first of its drives that is up. -/
def Dev.readDrive (d : Dev) (seq : Nat) : Option Nat :=
  (slotDrives (storeLayout d.map.active) (seq % d.store.extentCount)).find? fun v => d.driveUp v

/-- Read an extent from the drive that holds it. -/
def Dev.submitRead (d : Dev) (seq : Nat) (op : StoreOp) : Dev :=
  match d.readDrive seq with
  | some v => d.submit v op
  | none => d

/-! ### Staging slots (R376, R394) -/

/-- Bytes in class 2 of a staging slot: the four slots are the replay buffers of P6 and P7 (R376, R391). -/
def slotAddress (k : Nat) : Nat := 786432 + 65536 * k

/-- The staging slots in use. -/
def StoreState.slots (s : StoreState) : List Nat :=
  s.cur.toList.map (·.slot) ++ s.sealed_.map (·.slot) ++ s.forward.slot.toList ++ s.replay.slot.toList

/-- Staging slots in use (R376). -/
def StoreState.slotsUsed (s : StoreState) : Nat := s.slots.length

/-- The first free staging slot. -/
def StoreState.freeSlot (s : StoreState) : Option Nat := [0, 1, 2, 3].find? fun k => !s.slots.contains k

/-- Bytes are copied into a staging slot with their code words as they stand in merge memory (R376). -/
def Dev.copyWords (d : Dev) (rid begun n slot offset : Nat) : Dev :=
  let at_ := slotAddress slot + offset
  let d := d.freshBytes 2 at_ n
  match d.findRec rid with
  | none => d
  | some q =>
    if q.chain.isEmpty then d
    else
      (List.range n).foldl (fun d i =>
        let x := d.remapped 1 (chainAddress q.chain (begun + i))
        let w := memRead d.integ.mem (memKey x.1 x.2)
        d.modInteg fun g => { g with mem := memWrite g.mem (memKey 2 (at_ + i)) w }) d

/-- A staging slot is read whole: the bytes as read of what was written there, and the places of the damaged ones (R394). -/
def Dev.readSlot (d : Dev) (slot reader : Nat) (bytes : List Byte) : Dev × List Byte × List Nat :=
  let (d, l) := d.readArea 2 reader (bytes.zipIdx.map fun b => (slotAddress slot + b.2, b.1))
  (d, l.map (·.1), (l.zipIdx.filter (·.1.2)).map (·.2))

/-- The runs of a rising list of places: first place and length. -/
def runsOf : List Nat → List (Nat × Nat)
  | [] => []
  | a :: rest =>
    match runsOf rest with
    | (b, n) :: more => if a + 1 = b then (a, n + 1) :: more else (a, 1) :: (b, n) :: more
    | [] => [(a, 1)]

/-! ### Readers (R375, R384) -/

/-- The record bytes of an extent, each with whether it is damaged, on the drive (R375) or in the staging slot. -/
def extentBytes (bs : List Byte) (all : Bool) (hurt : List Nat) : List (Byte × Bool) :=
  let n := fieldAt bs 24 2
  let poison := (List.range (fieldAt bs 28 1)).map fun i =>
    (fieldAt bs (64 + n + 4 * i) 2, fieldAt bs (64 + n + 4 * i + 2) 2)
  (sliceBytes bs 64 n).zipIdx.map fun x => (x.1, all || hurt.contains (64 + x.2) || poison.any fun e => e.1 ≤ x.2 && x.2 < e.1 + e.2)

/-- The position so many bytes on in the log, with the record bytes of the extents from the first on (R374): the end of an
extent is the start of the next. -/
def advancePos (s o n : Nat) : List Nat → (Nat × Nat) × List Nat
  | [] => ((s, o + n), [])
  | l :: ls => if o + n < l then ((s, o + n), l :: ls) else advancePos (s + 1) 0 (o + n - l) ls

/-- Cut the whole records off the front of a reader's bytes: a damaged one is poisoned (R375); where no length can be
located the rest is skipped. Records that start behind the last extent of the range are left (R384). -/
def LogReader.cut (r : LogReader) : Nat → LogReader
  | 0 => r
  | n + 1 =>
    if r.last < r.start.1 then { r with buf := [], offset := none }
    else if r.buf.length < 6 then r
    else
      let bs := r.buf.map (·.1)
      let len := fieldAt bs 2 4
      if len < 36 || 1048576 < len then { r with buf := [], offset := none, skipped := r.skipped + 1 }
      else if r.buf.length < len then r
      else
        let own := r.buf.take len
        let bytes := own.map (·.1)
        let bytes := if own.any (·.2) && !bytesPoisoned bytes then poisonBytes bytes else bytes
        let (here, lens) := advancePos r.start.1 r.start.2 len r.lens
        ({ r with buf := r.buf.drop len, start := here, lens := lens, out := r.out ++ [(bytes, here.1, here.2)] } : LogReader).cut n

/-- The reader takes an extent (R384): a valid one, or one whose `data_crc` alone is bad, whose records are poisoned. One
whose header is bad is skipped, with what was begun. -/
def LogReader.take (r : LogReader) (fault : Option Nat) (bs : List Byte) (hurt : List Nat) : LogReader :=
  let r := { r with reading := false, seq := r.seq + 1 }
  match fault with
  | some 0 | some 2 => { r with buf := [], offset := none, skipped := r.skipped + 1 }
  | _ =>
    let got := extentBytes bs fault.isSome hurt
    let first := fieldAt bs 26 2
    if r.buf.isEmpty then
      let o := r.offset.getD first
      if o = 0xFFFF then r
      else
        let r := { r with buf := got.drop o, start := (r.seq - 1, o), lens := [got.length], offset := some 0 }
        r.cut r.buf.length
    else
      let r := { r with buf := r.buf ++ got, lens := r.lens ++ [got.length] }
      r.cut r.buf.length

/-- A reader has nothing more to read or to give. -/
def LogReader.done (r : LogReader) : Bool := r.active && !r.reading && r.out.isEmpty && r.last < r.seq && r.buf.isEmpty

/-- A reader whose whole records have been copied needs its slot no more. -/
def LogReader.freed (r : LogReader) : LogReader := if !r.reading && r.out.isEmpty then { r with slot := none } else r

/-- A record of the log joins the VC3 queue in the local pool, where there is room for it (R384). -/
def Dev.joinRead (d : Dev) (bytes : List Byte) : Option Dev :=
  let t := d.upStream 3
  let live := d.portUp ((portOfRole d.map.active 2).getD 8) || d.portUp ((portOfRole d.map.active 3).getD 8)
  if live && t.items.length < upItems d.map.active 3 && chainBuffers bytes.length ≤ d.localFree then
    let (d, q) := d.newRec 4 bytes (fieldAt bytes 10 6) .loc
    some ((d.noteSent (Rec.ofBytes bytes)).joinItem 3 [{ q with fromStore := true, taken := true }]).1
  else none

/-- Whole records of the forward reader join the queue in order. -/
def Dev.forwardOut (d : Dev) : Nat → Dev
  | 0 => d
  | n + 1 =>
    match d.store.forward.out with
    | [] => d
    | (bytes, s, o) :: rest =>
      let rid := d.mrg.nextRid
      match d.joinRead bytes with
      | none => d
      | some d =>
        (d.modStore fun x => { x with forward := { x.forward with out := rest }, fwdOut := x.fwdOut ++ [(rid, s, o)] }).forwardOut n

/-- Whole records of the replay reader join the queue in order. -/
def Dev.replayOut (d : Dev) : Nat → Dev
  | 0 => d
  | n + 1 =>
    match d.store.replay.out with
    | [] => d
    | (bytes, _, _) :: rest =>
      match d.joinRead bytes with
      | none => d
      | some d =>
        let d := d.countStore fun c => { c with replayed := add64 c.replayed 1 }
        (d.modStore fun x => { x with replay := { x.replay with out := rest, sent := x.replay.sent + 1 } }).replayOut n

/-- The forward position advances past each record whose item has been released (R384). -/
def Dev.advanceForward (d : Dev) : Nat → Dev
  | 0 => d
  | n + 1 =>
    match d.store.fwdOut with
    | [] => d
    | (rid, s, o) :: rest =>
      if (d.upStream 3).items.any fun i => i.recs.any (·.rid == rid) then d
      else
        let d := d.countStore fun c => { c with forwarded := add64 c.forwarded 1 }
        (d.modStore fun x => { x with fwdOut := rest, fwdSeq := s, fwdOffset := o }).advanceForward n

/-- A replay has ended: event 1481 (R384, R387). -/
def Dev.endReplay (d : Dev) : Dev :=
  let r := d.store.replay
  let first := d.store.replayFirst
  (d.modStore fun x => { x with replay := LogReader.idle }).raiseLimited 1481 0 0 [evNat first, evNat r.last, evNat r.sent, evNat r.skipped]

/-- The forward reader reads its next extent into a free staging slot (R384). -/
def Dev.readForward (d : Dev) : Dev :=
  let f := d.store.forward
  match d.store.freeSlot with
  | some k =>
    if d.store.opened && d.store.mode = 1 && !f.reading && f.out.isEmpty && f.seq < d.store.head then
      (d.modStore fun x => { x with forward := { x.forward with slot := some k, reading := true } }).submitRead f.seq
        (.readLog false f.seq)
    else d
  | none => d

/-- The replay reads its next extent into a free staging slot, or ends (R384). -/
def Dev.readReplay (d : Dev) : Dev :=
  let r := d.store.replay
  if !r.active then d
  else if r.done then d.endReplay
  else if !r.reading && r.out.isEmpty then
    if d.store.head ≤ r.seq then d.endReplay
    else match d.store.freeSlot with
      | some k =>
        (d.modStore fun x => { x with replay := { x.replay with slot := some k, reading := true } }).submitRead r.seq
          (.readLog true r.seq)
      | none => d
  else d

/-- The readers go on: records join the queue, and the next extents are read, for forwarding before the replay (R384). -/
def Dev.runReaders (d : Dev) : Dev :=
  let d := (d.forwardOut d.store.forward.out.length).replayOut d.store.replay.out.length
  let d := d.advanceForward d.store.fwdOut.length
  let d := d.modStore fun x => { x with forward := x.forward.freed, replay := x.replay.freed }
  d.readForward.readReplay

/-- The forward reader starts at the forward position. -/
def Dev.startForward (d : Dev) : Dev :=
  d.modStore fun x => { x with
    forward := { LogReader.idle with active := true, seq := x.fwdSeq, last := 2 ^ 64, offset := some x.fwdOffset }, fwdOut := [] }

/-- The forward position is that of the first record of an extent, once its header is read (R381, R383). -/
def StoreState.forwardFrom (s : StoreState) (seq : Nat) (fault : Option Nat) (bs : List Byte) : StoreState :=
  let first := fieldAt bs 26 2
  if s.forward.offset.isNone && s.fwdOut.isEmpty && first != 0xFFFF && (fault.isNone || fault == some 1) then
    { s with fwdSeq := seq, fwdOffset := first }
  else s

/-! ### Writing (R376 to R381) -/

/-- The tail of the log (R382). -/
def StoreState.tail (s : StoreState) : Nat := s.head - s.extentCount

/-- Records are marked as taken by STORE (R379). -/
def Dev.markTaken (d : Dev) (rids : List Nat) : Dev :=
  let one := fun (q : QRec) => if rids.contains q.rid then { q with taken := true } else q
  d.modMrg fun m => { m with up := m.up.map fun t => { t with items := t.items.map fun i => ⟨i.recs.map one⟩ } }

/-- Extents complete on every drive, from the oldest on, are taken (R379). -/
def Dev.takeExtents (d : Dev) : Nat → Dev
  | 0 => d
  | n + 1 =>
    match d.store.sealed_ with
    | [] => d
    | x :: rest =>
      if x.drives.isEmpty && (x.flushed || storeFua d.map.active) then
        let d := d.countStore fun c => { c with written := add64 c.written 1, bytes := add64 c.bytes x.data.length }
        let d := d.modStore fun s => { s with
          sealed_ := rest, head := x.seq + 1, copied := s.copied.filter fun r => !x.ends.contains r
          fwdSeq := if s.mode = 1 then s.fwdSeq else x.seq + 1, fwdOffset := if s.mode = 1 then s.fwdOffset else 0 }
        (d.markTaken x.ends).takeExtents n
      else d

/-- A slot that is to be overwritten holds an extent that has not been forwarded (R381). -/
def StoreState.unforwarded (s : StoreState) : Bool := s.extentCount ≤ s.next && s.fwdSeq ≤ s.next - s.extentCount

/-- The forward position moves past extents that are overwritten: event 1478 (R381). The offset of its record is known once the
extent's header is read, and 0 until then (DESIGN CHOICE, log entry 115). -/
def Dev.loseUnforwarded (d : Dev) : Dev :=
  let s := d.store
  let lost := s.next - s.extentCount + 1 - s.fwdSeq
  let d := d.countStore fun c => { c with lostUnforwarded := add64 c.lostUnforwarded lost }
  let d := d.modStore fun s => { s with
    fwdSeq := s.next - s.extentCount + 1, fwdOffset := 0, fwdOut := []
    forward := { LogReader.idle with active := true, seq := s.next - s.extentCount + 1, last := 2 ^ 64 } }
  d.raiseLimited 1478 0 0 [evNat lost]

/-- The map that STORE works by: the old one until every record ahead of the swap marker has been copied (R25, R388). -/
def Dev.storeMap (d : Dev) : Option PisteMap :=
  let ahead := d.markerInCmp || d.markerInFramer || d.mrg.waiting.any (·.old)
    || d.mrg.up.toList.any fun t => t.items.any fun i => i.recs.any fun q => q.old && !q.taken && !d.store.copied.contains q.rid
  if d.map.old.isSome && ahead then d.map.old else d.map.active

/-- Seal the extent being assembled and submit its Write: its header and what follows its data are written into the slot (R374,
R377). A change of `mode`, `vc_mask` or `full_policy` acts here, once
the swap marker has passed STORE (R388); forwarding begins at the forward position (R384). -/
def Dev.sealNow (d : Dev) (x : Extent) (early : Bool) : Dev :=
  let s := d.store
  let m := d.storeMap
  let d := if s.unforwarded then d.loseUnforwarded else d
  let drives := (slotDrives (storeLayout d.map.active) (s.next % s.extentCount)).filter fun v => d.driveUp v
  let x := { x with seq := s.next, early := early, sealed_ := d.now, drives := drives }
  let d := if early then d.countStore fun c => { c with early := add64 c.early 1 } else d
  let was := s.mode
  let d := d.freshBytes 2 (slotAddress x.slot) 64
  let used := 64 + x.data.length
  let d := d.freshBytes 2 (slotAddress x.slot + used) (65536 - used)
  let d := d.modStore fun s => { s with
    cur := none, next := s.next + 1, sealed_ := s.sealed_ ++ [x]
    mode := storeField m 0 1 0, vcMask := bits (storeField m 2 1 0x2E) 3 0, fullPolicy := b2n (bit (storeField m 2 1 0x2E) 4) }
  let d := if was ≠ 1 && d.store.mode = 1 then d.startForward else d
  drives.foldl (fun d v => d.submit v (.writeExtent x.seq)) d

/-- Seal the extent, unless `full_policy` 1 holds it back: storing pauses, with event 1479 (R381). -/
def Dev.seal (d : Dev) (early : Bool) : Dev :=
  match d.store.cur with
  | none => d
  | some x =>
    if d.store.fullPolicy = 1 && d.store.unforwarded then
      if d.store.paused.isSome then d
      else
        let now := d.sys.ticks
        (d.modStore fun s => { s with paused := some (now, early) }).raiseLimited 1479 0 0 [evNat d.store.fwdSeq]
    else
      let d := match d.store.paused with
        | some (t, _) => (d.modStore fun s => { s with paused := none }).raiseLimited 1483 0 0 [evNat ((d.sys.ticks - t) / 2560000)]
        | none => d
      d.sealNow x early

/-- An extent with nothing in it. -/
def Extent.empty (slot : Nat) : Extent := ⟨slot, 0, [], none, 0, [], false, TimeWord.zero, [], [], [], false, false⟩

/-- Take what fits of a record into an extent. The second part is what is left of it. -/
def Extent.fill (x : Extent) (rid : Nat) (bytes : List Byte) (key begun : Nat) : Extent × List Byte :=
  let n := min bytes.length (extentRoom - x.data.length)
  let first := if begun != 0 || n = 0 then x.firstRecord else some (x.firstRecord.getD x.data.length)
  let rest := bytes.drop n
  ({ x with
      data := x.data ++ bytes.take n, firstRecord := first
      firstKey := if x.firstRecord.isNone && first.isSome then key else x.firstKey
      ends := if rest.isEmpty then x.ends ++ [rid] else x.ends
      parts := if n = 0 then x.parts else x.parts ++ [(rid, begun, x.data.length, n)] }, rest)

/-- Move copied bytes into extents, sealing each that is full and one whose seal was held back, as far as there are staging slots
(R376, R377, R381). -/
def Dev.fillExtents (d : Dev) : Nat → Dev
  | 0 => d
  | n + 1 =>
    match d.store.cur with
    | some x =>
      if extentRoom ≤ x.data.length || d.store.paused.isSome then
        let d := d.seal (d.store.paused.any (·.2))
        if d.store.paused.isSome then d else d.fillExtents n
      else
        match d.store.feed with
        | [] => d
        | (rid, bytes, key, begun) :: rest =>
          let at_ := 64 + x.data.length
          let (x, left) := x.fill rid bytes key begun
          ((d.copyWords rid begun (bytes.length - left.length) x.slot at_).modStore fun s => { s with
            cur := some x, feed := if left.isEmpty then rest else (rid, left, key, begun + bytes.length - left.length) :: rest }).fillExtents n
    | none =>
      match d.store.freeSlot with
      | some k => if d.store.feed.isEmpty then d else (d.modStore fun s => { s with cur := some (Extent.empty k) }).fillExtents n
      | none => d

/-- The first item of a queue that STORE has still to copy. -/
def Dev.toCopy (d : Dev) (vc : Nat) : Option Item :=
  (d.upStream vc).items.find? fun i => i.recs.any fun q => !q.taken && !d.store.copied.contains q.rid

/-- The next item in the rotation of the VCs (R376). -/
def Dev.nextCopy (d : Dev) : Option (Nat × Item) :=
  ([0, 1, 2, 3].map fun k => (d.store.turn + k) % 4).findSome? fun v =>
    if bit d.store.vcMask v then (d.toCopy v).map fun i => (v, i) else none

/-- Copy items whole, one per turn, into staging slots (R376). -/
def Dev.copyItems (d : Dev) : Nat → Dev
  | 0 => d
  | n + 1 =>
    if !d.store.feed.isEmpty || d.store.paused.isSome || d.store.cur.isNone && d.store.freeSlot.isNone then d
    else match d.nextCopy with
      | none => d
      | some (v, i) =>
        let d := d.modStore fun s => { s with
          turn := (v + 1) % 4, copied := s.copied ++ i.recs.map (·.rid)
          feed := i.recs.map fun q => (q.rid, q.bytes, q.key, 0) }
        let d := d.takeTurns 1 4 (i.recs.flatMap fun q => chainMacros q.chain)
        (d.fillExtents ((i.recs.map (·.bytes.length)).sum + 8)).copyItems n

/-- Items that count as taken at once: every one while the store is offline for writing, which pass into `unstored`,
and those of a VC outside `vc_mask` (R379, R380). -/
def Dev.takeAtOnce (d : Dev) : Dev :=
  if !hasStore d.map.active then d
  else
    let off := !d.storeOnline
    let vcs := (List.range 4).filter fun v => off || !bit d.store.vcMask v
    let items := vcs.flatMap fun v => (d.upStream v).items.filter fun i => i.recs.any fun q => !q.taken
    let d := d.markTaken (items.flatMap fun i => i.recs.map (·.rid))
    if off then d.countStore fun c => { c with unstored := add64 c.unstored items.length } else d

/-! ### Checkpoints (R377, R383) -/

/-- The drives of the layout that are up. -/
def Dev.upDrives (d : Dev) : List Nat := (layoutDrives (storeLayout d.map.active)).filter fun v => d.driveUp v

/-- A checkpoint is under way. -/
def StoreState.cpBusy (s : StoreState) : Bool := s.cp != .idle

/-- The checkpoint is written once the extents sealed for it are complete, and flushed where `fua` is clear (R377, R383). A Flush
speaks for the extents whose Writes had completed when it was submitted (R379). -/
def Dev.stepCheckpoint (d : Dev) : Dev :=
  match d.store.cp with
  | .extents below =>
    if d.store.sealed_.all fun x => below ≤ x.seq || x.drives.isEmpty then
      let vs := d.upDrives
      if storeFua d.map.active then
        (vs.foldl (fun d v => d.submit v (.writeCheckpoint (1 - d.store.copy))) d).modStore fun s => { s with cp := .write vs }
      else
        let d := d.modStore fun s => { s with sealed_ := s.sealed_.map fun x => { x with flushing := x.drives.isEmpty } }
        (vs.foldl (fun d v => d.submit v .flush) d).modStore fun s => { s with cp := .flush vs }
    else d
  | _ => d

/-- The open extent is sealed early, where it holds something (R377). -/
def Dev.sealEarly (d : Dev) : Dev := if d.store.cur.any fun x => !x.data.isEmpty then d.seal true else d

/-- Begin a checkpoint: the open extent is sealed early (R377). -/
def Dev.beginCheckpoint (d : Dev) : Dev :=
  if d.store.cpBusy then d
  else
    let d := d.sealEarly
    (d.modStore fun s => { s with cp := .extents s.next, cpDue := false }).stepCheckpoint

/-- A checkpoint is asked for while the log is open: where one is being written, the extent is sealed all the same and another
checkpoint follows (R377, R388). -/
def Dev.askCheckpoint (d : Dev) : Dev :=
  if !d.storeOnline then d
  else if d.store.cpBusy then d.sealEarly.modStore fun s => { s with cpDue := true }
  else d.beginCheckpoint

/-- The checkpoint is written on every drive (R383). -/
def Dev.checkpointDone (d : Dev) : Dev :=
  let gen := d.store.gen + 1
  let waiting := d.store.cpWaiting
  let d := d.modStore fun s => { s with cp := .idle, gen := gen, copy := 1 - s.copy, cpWaiting := [], cpAt := d.sys.ticks }
  let d := d.countStore fun c => { c with checkpoints := add64 c.checkpoints 1 }
  let d := waiting.foldl (fun d c => d.finish c .ok (leBytes 8 gen)) d
  if d.store.cpDue then d.beginCheckpoint else d

/-- What STORE does of itself: copying, sealing, taking, checkpoints and reading go on as far as they can. -/
def Dev.storeTurn (d : Dev) : Dev :=
  if !hasStore d.map.active then d
  else
    let d := d.takeAtOnce
    let d := if d.storeOnline then (d.fillExtents 64).copyItems 64 else d
    let d := d.takeExtents d.store.sealed_.length
    let d := d.stepCheckpoint
    d.runReaders.releaseItems

/-! ### Opening (R382) -/

/-- Step 1 and 2 of R382: read the superblocks and the checkpoints of every drive of the layout. -/
def Dev.openLog (d : Dev) : Dev :=
  let vs := layoutDrives (storeLayout d.map.active)
  if vs.all fun v => d.driveUp v then
    let d := d.modStore fun s => { s with opened := false, openStep := .heads, heads := [], scanned := 0 }
    vs.foldl (fun d v =>
      [StoreOp.readSuper 0, .readSuper 1, .readCheckpoint 0, .readCheckpoint 1].foldl (fun d op => d.submit v op) d) d
  else d

/-- The `STORE.FORMAT` under way is answered: its new `log_id`, or NOT_READY where the log did not open. -/
def Dev.answerFormat (d : Dev) (ok : Bool) : Dev :=
  match d.store.format with
  | none => d
  | some c =>
    let id := d.store.logId
    let d := d.modStore fun s => { s with format := none }
    if ok then d.finish c .ok (leBytes 8 id) else d.finish c .notReady []

/-- The log stays closed: event 1475 with the step (R382, R387). -/
def Dev.openFailed (d : Dev) (v step : Nat) : Dev :=
  let d := d.modStore fun s => { s with opened := false, openStep := .idle, heads := [] }
  (d.answerFormat false).raiseLimited 1475 0 (4 * v + step) [evNat (6 + v), evNat step]

/-- The log is open: event 1474 (R382). -/
def Dev.logOpened (d : Dev) : Dev :=
  let m := d.map.active
  let d := d.modStore fun s => { s with
    opened := true, openStep := .idle, heads := [], next := s.head, cur := none, sealed_ := [], feed := [], copied := []
    paused := none, cp := .idle, cpDue := false, cpAt := d.sys.ticks
    mode := storeField m 0 1 0, vcMask := bits (storeField m 2 1 0x2E) 3 0, fullPolicy := b2n (bit (storeField m 2 1 0x2E) 4) }
  let s := d.store
  (d.startForward.answerFormat true).raiseLimited 1474 0 0 [evNat s.head, evNat s.tail, evNat s.fwdSeq, evNat s.scanned]

/-- The next extent of the scan (R382). -/
def Dev.scanNext (d : Dev) : Dev :=
  if storeField d.map.active 20 4 65536 ≤ d.store.scanned then d.logOpened
  else d.submitRead d.store.head (.readScan d.store.head)

/-- An extent of the scan has been read: step 3 and 4 of R382. -/
def Dev.scanned (d : Dev) (seq : Nat) (bs : List Byte) : Dev :=
  if (extentFault d.store.logId seq bs).isNone then
    (d.modStore fun s => { s with head := seq + 1, scanned := s.scanned + 1 }).scanNext
  else d.logOpened

/-- The first valid superblock of a drive, of copy 0 and then copy 1 (R382). -/
def StoreState.superOf (s : StoreState) (v : Nat) : Option (List Byte) :=
  [0, 1].findSome? fun c => (s.heads.find? fun h => h.1 == v && h.2.1 == .readSuper c && superValid h.2.2).map (·.2.2)

/-- The valid checkpoint copies of a log, with their copy (R382). -/
def StoreState.checkpointsOf (s : StoreState) (logId : Nat) : List (Nat × List Byte) :=
  s.heads.filterMap fun h =>
    match h.2.1 with
    | .readCheckpoint c => if checkpointValid logId h.2.2 then some (c, h.2.2) else none
    | _ => none

/-- Every head has been read: steps 1 and 2 of R382, then the scan. -/
def Dev.judgeHeads (d : Dev) : Dev :=
  let layout := storeLayout d.map.active
  let vs := layoutDrives layout
  let s := d.store
  match vs.head?.bind s.superOf with
  | none => d.openFailed (vs.head?.getD 0) 1
  | some ref =>
    let id := fieldAt ref 16 8
    let count := fieldAt ref 12 4
    let bad := vs.find? fun v =>
      match s.superOf v with
      | none => true
      | some b => fieldAt b 10 1 != layout || fieldAt b 11 1 != v || fieldAt b 16 8 != id || fieldAt b 12 4 != count
    match bad with
    | some v => d.openFailed v 1
    | none =>
      if !sizesHold layout count fun v => (d.drive v).bytes then d.openFailed (vs.head?.getD 0) 1
      else
        let cps := s.checkpointsOf id
        match (cps.map fun c => fieldAt c.2 8 8).max? with
        | none => d.openFailed (vs.head?.getD 0) 2
        | some g =>
          match cps.find? fun c => fieldAt c.2 8 8 == g with
          | none => d
          | some (copy, b) =>
            (d.modStore fun s => { s with
              openStep := .scan, logId := id, extentCount := count, head := fieldAt b 24 8, fwdSeq := fieldAt b 32 8
              fwdOffset := fieldAt b 40 2, gen := g, copy := copy, scanned := 0 }).scanNext

/-- A superblock or checkpoint has been read. -/
def Dev.headRead (d : Dev) (v : Nat) (op : StoreOp) (bs : List Byte) : Dev :=
  if d.store.openStep != .heads then d
  else
    let d := d.modStore fun s => { s with heads := s.heads ++ [(v, op, bs)] }
    if 4 * (layoutDrives (storeLayout d.map.active)).length ≤ d.store.heads.length then d.judgeHeads else d

/-! ### STORE.FIND (R389) -/

/-- The next extent of a bisection, or its answer. -/
def Dev.findStep (d : Dev) (f : FindJob) : Dev :=
  if f.low < f.high then
    (d.modStore fun s => { s with finds := s.finds ++ [f] }).submitRead ((f.low + f.high) / 2) (.readFind ((f.low + f.high) / 2))
  else if f.low < d.store.head then d.finish f.ctx .ok (leBytes 8 f.low)
  else d.finish f.ctx .outOfRange []

/-- A header has been read for the bisection that waits for it. -/
def Dev.findRead (d : Dev) (seq : Nat) (bs : List Byte) : Dev :=
  match d.store.finds.find? fun f => (f.low + f.high) / 2 == seq with
  | none => d
  | some f =>
    let d := d.modStore fun s => { s with finds := s.finds.erase f }
    if f.moment.le (timeWordAt bs 40) then d.findStep { f with high := seq } else d.findStep { f with low := seq + 1 }

/-! ### Drives come and go (R369, R371, R380) -/

/-- What was waiting for the log is answered NOT_READY once it closes. -/
def Dev.closeLog (d : Dev) : Dev :=
  let s := d.store
  let d := d.modStore fun s => { s with
    opened := false, openStep := .idle, cur := none, sealed_ := [], feed := [], copied := [], paused := none, cp := .idle
    cpWaiting := [], finds := [], forward := LogReader.idle, fwdOut := [] }
  let d := s.cpWaiting.foldl (fun d c => d.finish c .notReady []) d
  let d := s.finds.foldl (fun d f => d.finish f.ctx .notReady []) d
  let d := if s.replay.active then d.endReplay else d
  d.answerFormat false

/-- A Flush has completed on a drive (R379). -/
def Dev.flushDone (d : Dev) (v : Nat) : Dev :=
  match d.store.cp with
  | .flush vs =>
    let left := vs.filter (· != v)
    if left.isEmpty then
      let d := d.modStore fun s => { s with sealed_ := s.sealed_.map fun x => { x with flushed := x.flushed || x.flushing } }
      let d := d.takeExtents d.store.sealed_.length
      let ws := d.upDrives
      (ws.foldl (fun d v => d.submit v (.writeCheckpoint (1 - d.store.copy))) d).modStore fun s => { s with cp := .write ws }
    else d.modStore fun s => { s with cp := .flush left }
  | _ => d

/-- A checkpoint has been written on a drive (R383). -/
def Dev.checkpointWritten (d : Dev) (v : Nat) : Dev :=
  match d.store.cp with
  | .write vs =>
    let left := vs.filter (· != v)
    if left.isEmpty then d.checkpointDone else d.modStore fun s => { s with cp := .write left }
  | _ => d

/-- The reads that a lost drive owed a mirrored log are made on the other one (R380). -/
def Dev.readElsewhere (d : Dev) (v : Nat) (cmds : List NvmeCmd) : Dev :=
  cmds.foldl (fun d c =>
    match c.op with
    | .readLog _ _ | .readFind _ => d.submit v c.op
    | _ => d) d

/-- A checkpoint no longer waits for a drive. -/
def Dev.checkpointWithout (d : Dev) (v : Nat) : Dev :=
  match d.store.cp with
  | .flush _ => d.flushDone v
  | .write _ => d.checkpointWritten v
  | _ => d

/-- A drive is lost, for cause 0 no link, 1 reset limit, 2 write failure, 3 removal: the log degrades where the other
drive of a mirror is up, else the store is offline (R380, R387). -/
def Dev.driveLost (d : Dev) (v cause : Nat) : Dev :=
  let wasUp := d.driveUp v
  let owed := (d.drive v).cmds
  let d := d.modDrive v fun x => { x with phase := .waiting, polled := none, lost := true, cmds := [], todo := [], resets := [] }
  let d := d.raiseLimited 1473 0 (4 * v + cause) [evNat (6 + v), evNat cause]
  if !wasUp then d
  else if storeLayout d.map.active = 2 && d.driveUp (1 - v) && d.store.opened then
    let d := d.modStore fun s => { s with sealed_ := s.sealed_.map fun x => { x with drives := x.drives.filter (· != v) } }
    ((d.checkpointWithout v).readElsewhere (1 - v) owed).storeTurn
  else d.closeLog.storeTurn

/-- A drive of the layout is missing while the log is open on the other one (R380). -/
def Dev.degraded (d : Dev) : Bool :=
  d.store.opened && storeLayout d.map.active == 2 && !(d.driveUp 0 && d.driveUp 1)

/-- SPRS is sampled, at once and then every 100 ms: with a drive there SRST is asserted (R369). -/
def Dev.presencePoll (d : Dev) (v : Nat) (present : Bool) : Dev :=
  let now := d.sys.ticks
  let x := d.drive v
  if x.phase == .waiting && x.polled.all fun t => t + usTicks 100000 ≤ now then
    d.modDrive v fun x => { x with polled := some now, phase := if present then .reset else .waiting, since := now }
  else d

/-- DRIVE_PRESENCE_POLL: SPRS6 or SPRS7 is tested. -/
def execDrivePresencePoll (drive : Nat) (present : Bool) (s : State) : Host.Outcome State Fault Refusal :=
  .next (s.onDev (·.presencePoll drive present))

/-- SRST6 or SRST7 is asserted (R368, R369). -/
def Drive.srst (x : Drive) : Bool := x.phase == .reset

/-- SRST_RELEASE: 100 ms after SRST was asserted; link training starts (R369). -/
def execSrstRelease (drive : Nat) (s : State) : Host.Outcome State Fault Refusal :=
  .next (s.onDev fun d =>
    let x := d.drive drive
    if x.phase == .reset && x.since + usTicks 100000 ≤ d.sys.ticks then d.modDrive drive fun x => { x with phase := .training } else d)

/-- PCIE_LINK_UP: the link is up with a generation, at most `max_gen`, and a width, at most 4; the controller is enabled (R367,
R369). -/
def execPcieLinkUp (drive generation width : Nat) (s : State) : Host.Outcome State Fault Refusal :=
  .next (s.onDev fun d =>
    if (d.drive drive).phase == .training then
      let g := min generation (storeField d.map.active 3 1 6)
      d.modDrive drive fun x => { x with phase := .enabling, since := d.sys.ticks, generation := g, width := min width 4 }
    else d)

/-- PCIE_LINK_TIMEOUT: no link 1,100 ms after SRST was asserted (R369). -/
def execPcieLinkTimeout (drive : Nat) (s : State) : Host.Outcome State Fault Refusal :=
  .next (s.onDev fun d =>
    let x := d.drive drive
    if x.phase == .training && x.since + usTicks 1100000 ≤ d.sys.ticks then d.driveLost drive 0 else d)

/-- The controller, enabled 100 ms after the link came up, is ready (R369). -/
def Dev.controllerReady (d : Dev) (v : Nat) (identity : DriveIdentity) : Dev :=
  if (d.drive v).phase == .enabling && (d.drive v).since + usTicks 100000 ≤ d.sys.ticks then
    let now := d.sys.ticks
    d.modDrive v fun x => { x with phase := .settling, since := now, identity := identity }
  else d

/-- CONTROLLER_READY: the controller is ready, and what Identify will say of it and of the namespace. -/
def execControllerReady (drive : Nat) (identity : DriveIdentity) (s : State) : Host.Outcome State Fault Refusal :=
  .next (s.onDev (·.controllerReady drive identity))

/-- The admin commands of a bring-up, in order (R369, R370). -/
def bringUpOps (m : Option PisteMap) : List AdminOp :=
  let pairs := storeField m 14 1 4
  let depth := storeField m 16 2 64
  [.identifyController, .identifyNamespace, .setQueues pairs]
    ++ (List.range pairs).flatMap fun q => [.createCompletionQueue (q + 1) depth, .createSubmissionQueue (q + 1) depth]

/-- The admin queue, of depth 32, is given the bring-up's next command; after the last one the drive is up, with event 1472, and the
log opens once every drive of the layout is up (R369, R382). -/
def Dev.bringUpStep (d : Dev) (v : Nat) : Dev :=
  match (d.drive v).todo with
  | a :: _ => d.submit v (.admin a)
  | [] =>
    let m := d.map.active
    let d := d.modDrive v fun x => { x with
      phase := .up, lost := false, bytes := x.identity.size, queues := storeField m 14 1 4, depth := storeField m 16 2 64 }
    let x := d.drive v
    (d.raiseLimited 1472 0 v [evNat (6 + v), evNat x.generation, evNat x.width, evNat x.bytes]).openLog

/-- Ten milliseconds after its controller was ready the admin queue of a drive starts (R369). -/
def Dev.bringUp (d : Dev) (v : Nat) : Dev :=
  if (d.drive v).phase == .settling && (d.drive v).since + usTicks 10000 ≤ d.sys.ticks then
    let m := d.map.active
    (d.modDrive v fun x => { x with phase := .admin, todo := bringUpOps m }).bringUpStep v
  else d

/-- What R370 asks of a namespace and of a controller. -/
def identityFits (m : Option PisteMap) (x : DriveIdentity) : Bool :=
  (x.block == 512 || x.block == 4096) && !x.extras && storeField m 16 2 64 ≤ x.entries

/-- An admin command has completed. A bring-up goes on while its commands succeed and the namespace is one that R370 allows; where not,
the port stays where it is (DESIGN CHOICE, log entry 116). -/
def Dev.adminDone (d : Dev) (v : Nat) (a : AdminOp) (status : Nat) : Dev :=
  match a with
  | .abort _ => d
  | a =>
    let x := d.drive v
    if x.phase != .admin || x.todo.head? != some a || status ≠ 0 then d
    else if a = .identifyNamespace && !identityFits d.map.active x.identity then d
    else (d.modDrive v fun x => { x with todo := x.todo.drop 1 }).bringUpStep v

/-- DRIVE_REMOVED: SPRS shows that the drive of a Store port is gone. -/
def execDriveRemoved (drive : Nat) (s : State) : Host.Outcome State Fault Refusal :=
  .next (s.onDev fun d =>
    let x := d.drive drive
    if x.phase == .unused || x.phase == .waiting then d else d.driveLost drive 3)

/-! ### Completions (R371, R378, R379) -/

/-- Change a sealed extent. -/
def Dev.modExtent (d : Dev) (seq : Nat) (f : Extent → Extent) : Dev :=
  d.modStore fun s => { s with sealed_ := s.sealed_.map fun x => if x.seq == seq then f x else x }

/-- A poison entry joins an extent (R378); the sixteenth is widened to the end of the data region. Where there are sixteen, or the
region has no room for another, the last one is widened over the bytes as well; an extent without an entry that has no room for one
goes without (DESIGN CHOICE, log entry 130). -/
def Extent.addPoison (x : Extent) (off len : Nat) : Extent :=
  let full := 15 ≤ x.poison.length
  if x.poison.length < 16 && x.region.length + 4 ≤ extentRoom then
    { x with poison := x.poison ++ [(off, if full then x.data.length - off else len)] }
  else match x.poison.getLast? with
    | none => x
    | some (o, n) =>
      let a := min o off
      let b := if full then x.data.length else max (o + n) (off + len)
      { x with poison := x.poison.dropLast ++ [(a, b - a)] }

/-- A poison entry covers a place of the data region. -/
def Extent.covered (x : Extent) (off : Nat) : Bool := x.poison.any fun e => e.1 ≤ off && off < e.1 + e.2

/-- Damaged bytes of an extent are written as read, under a poison entry with event 1482 where there is room for one (R378). -/
def Dev.poisonExtent (d : Dev) (seq off len : Nat) : Dev :=
  let d := (d.modExtent seq fun x => x.addPoison off len).notePoisoned 6
  if d.store.sealed_.any fun x => x.seq == seq && x.covered off then
    (d.countStore fun c => { c with poison := add64 c.poison 1 }).raiseLimited 1482 0 0 [evNat seq, evNat off, evNat len]
  else d

/-- A part of an extent is copied again from merge memory, from a byte of the region on: the bytes as read, and a poison entry where
some of them are damaged there too (R378). -/
def Dev.recopyPart (d : Dev) (seq first last : Nat) (part : Nat × Nat × Nat × Nat) : Dev :=
  let (rid, begun, off, n) := part
  let a := max first off
  let b := min last (off + n)
  match d.findRec rid with
  | none => d
  | some q =>
    if b ≤ a then d
    else
      let (d, bytes, bad) := (d.takeTurns 1 4 (chainMacros q.chain)).readRecord 5 q (begun + (a - off)) (b - a)
      let d := d.modExtent seq fun x => { x with data := x.data.take a ++ bytes ++ x.data.drop b }
      if bad then d.poisonExtent seq a (b - a) else d

/-- A damaged range of a sealed extent, given from the start of its slot, is written again: its record bytes from merge memory, with
event 1477, the rest as STORE forms it (R378). -/
def Dev.recopyRange (d : Dev) (x : Extent) (r : Nat × Nat) : Dev :=
  let d := d.freshBytes 2 (slotAddress x.slot + r.1) r.2
  if r.1 + r.2 ≤ 64 || 64 + x.data.length ≤ r.1 then d
  else
    let d := d.raiseLimited 1477 0 0 [evNat x.seq, evNat (r.1 - 64)]
    x.parts.foldl (fun d p => d.recopyPart x.seq (r.1 - 64) (r.1 + r.2 - 64) p) d

/-- A drive has read a sealed extent from its slot for a Write, after the upsets it met there (R378, R394). Where it found damage,
each range is written again and the Write is submitted once more; the second part says so. -/
def Dev.readForWrite (d : Dev) (v seq : Nat) (upsets : List Upset) : Dev × Bool :=
  match d.store.sealed_.find? (·.seq == seq) with
  | none => (d, false)
  | some x =>
    let (d, _, hurt) := (d.applyUpsets upsets).readSlot x.slot 5 (x.bytes d.store.logId)
    if hurt.isEmpty then (d, false) else (((runsOf hurt).foldl (·.recopyRange x ·) d).submit v (.writeExtent seq), true)

/-- A drive has written an extent that it read into its staging slot, and STORE reads it there, after the upsets that the slot met:
the bytes as read, and the places of the damaged ones (R384, R394). -/
def Dev.readBack (d : Dev) (slot : Option Nat) (bs : List Byte) (upsets : List Upset) : Dev × List Byte × List Nat :=
  match slot with
  | none => (d, bs, [])
  | some k => ((d.freshBytes 2 (slotAddress k) 65536).applyUpsets upsets).readSlot k 5 bs

/-- The location a Write's event names: the extent, or none. -/
def StoreOp.seqItem : StoreOp → EvItem
  | .writeExtent s => evNat s
  | _ => evNone

/-- The operation is a Write. -/
def StoreOp.isWrite : StoreOp → Bool
  | .writeSuper _ | .writeCheckpoint _ | .writeExtent _ | .flush => true
  | _ => false

/-- The operation writes an extent. -/
def StoreOp.isExtent : StoreOp → Bool
  | .writeExtent _ => true
  | _ => false

/-- The operation writes to the head region (R373). -/
def StoreOp.isHead : StoreOp → Bool
  | .writeSuper _ | .writeCheckpoint _ => true
  | _ => false

/-- A Write has failed: it is retried up to two times, and the third failure loses the drive (R371). -/
def Dev.writeFailed (d : Dev) (v : Nat) (c : NvmeCmd) (status : Nat) : Dev :=
  let d := match c.op with
    | .writeCheckpoint _ => d.raiseLimited 1480 0 v [evNat (6 + v), evNat status]
    | _ => d
  let one := b2n c.op.isExtent
  if 3 ≤ c.tries + 1 then
    (d.countStore fun n => { n with failed := add64 n.failed one }).driveLost v 2
  else
    let d := d.countStore fun n => { n with retried := add64 n.retried one }
    let d := d.raiseLimited 1476 0 v [evNat (6 + v), c.op.seqItem, evNat status]
    d.submitAgain v c.op (c.tries + 1)

/-- The writes of a format have all completed: the log opens (R389). -/
def Dev.formatWritten (d : Dev) : Dev :=
  let busy := [0, 1].any fun v => (d.drive v).cmds.any fun c => c.op.isHead
  if d.store.format.isSome && !busy then d.openLog else d

/-- An invalid extent has been read (R384, R387). -/
def Dev.noteInvalid (d : Dev) (seq : Nat) (fault : Option Nat) : Dev :=
  match fault with
  | some c => d.raiseLimited 1484 0 c [evNat seq, evNat c]
  | none => d

/-- A command has completed without an error; a read that failed brings no bytes. -/
def Dev.completed (d : Dev) (v : Nat) (op : StoreOp) (bs : List Byte) (upsets : List Upset) : Dev :=
  match op with
  | .admin _ => d
  | .readSuper c => d.headRead v (.readSuper c) bs
  | .readCheckpoint c => d.headRead v (.readCheckpoint c) bs
  | .readScan seq => if d.store.openStep == .scan then d.scanned seq bs else d
  | .readFind seq => d.findRead seq bs
  | .readLog false seq =>
    if d.store.forward.reading && d.store.forward.seq = seq then
      let (d, bs, hurt) := d.readBack d.store.forward.slot bs upsets
      let fault := extentFault d.store.logId seq bs
      ((d.noteInvalid seq fault).modStore (·.forwardFrom seq fault bs)).modStore fun s => { s with
        forward := s.forward.take fault bs hurt }
    else d
  | .readLog true seq =>
    if d.store.replay.reading && d.store.replay.seq = seq then
      let (d, bs, hurt) := d.readBack d.store.replay.slot bs upsets
      let fault := extentFault d.store.logId seq bs
      (d.noteInvalid seq fault).modStore fun s => { s with replay := s.replay.take fault bs hurt }
    else d
  | .writeExtent seq => d.modExtent seq fun x => { x with drives := x.drives.filter (· != v) }
  | .flush => d.flushDone v
  | .writeCheckpoint _ => if d.store.format.isSome then d.formatWritten else d.checkpointWritten v
  | .writeSuper _ => d.formatWritten

/-- A command of a drive completes (R371, R378, R379). -/
def Dev.completion (d : Dev) (v id status : Nat) (bs : List Byte) (upsets : List Upset) : Dev :=
  match (d.drive v).cmds.find? (·.id == id) with
  | none => d
  | some c =>
    let d := d.modDrive v fun x => { x with cmds := x.cmds.filter (·.id != id) }
    let d :=
      match c.op with
      | .admin a => d.adminDone v a status
      | .writeExtent seq =>
        let (d, again) := d.readForWrite v seq upsets
        if again then d else if status ≠ 0 then d.writeFailed v c status else d.completed v c.op bs []
      | op =>
        if status ≠ 0 && op.isWrite then d.writeFailed v c status
        else d.completed v op (if status = 0 then bs else []) upsets
    d.storeTurn

/-- NVME_COMPLETION: a command completes with a status, with the bytes of a Read, and with the upsets that its staging slot met
before it was read. -/
def execNvmeCompletion (drive id status : Nat) (data : List Byte) (damage : List Upset) (s : State) :
    Host.Outcome State Fault Refusal :=
  .next (s.onDev (·.completion drive id status data damage))

/-- The operation is an Abort. -/
def StoreOp.isAbort : StoreOp → Bool
  | .admin (.abort _) => true
  | _ => false

/-- A controller is reset and every outstanding command is submitted again; the third reset within 60 s loses the drive (R371). -/
def Dev.resetController (d : Dev) (v : Nat) : Dev :=
  let now := d.sys.ticks
  let recent := (now :: (d.drive v).resets).filter fun r => now - r ≤ 60 * ticksPerSecond
  if 3 ≤ recent.length then d.driveLost v 1
  else d.modDrive v fun x => { x with
    resets := recent, cmds := (x.cmds.filter fun y => !y.op.isAbort).map fun y => { y with at_ := now, aborted := false } }

/-- Each command that has not completed 1 s after submission is aborted; an Abort that has not completed 100 ms after that resets the
controller (R371). -/
def Dev.nvmeTimeout (d : Dev) (v : Nat) : Dev :=
  let now := d.sys.ticks
  let cmds := (d.drive v).cmds
  if cmds.any fun c => c.op.isAbort && c.at_ + usTicks 100000 ≤ now then d.resetController v
  else
    let late := cmds.filter fun c => !c.op.isAbort && !c.aborted && c.at_ + ticksPerSecond ≤ now
    let d := d.modDrive v fun x => { x with
      cmds := x.cmds.map fun y => if late.any (·.id == y.id) then { y with aborted := true } else y }
    late.foldl (fun d c => d.submit v (.admin (.abort c.id))) d

/-- NVME_TIMEOUT. -/
def execNvmeTimeout (drive : Nat) (s : State) : Host.Outcome State Fault Refusal := .next (s.onDev (·.nvmeTimeout drive))

/-- CHECKPOINT_PERIOD: `checkpoint_period` has passed since the previous checkpoint (R377). -/
def execCheckpointPeriod (s : State) : Host.Outcome State Fault Refusal :=
  .next (s.onDev fun d =>
    if d.store.cpAt + storeField d.map.active 12 2 1 * ticksPerSecond ≤ d.sys.ticks then d.askCheckpoint.storeTurn else d)

/-! ### A map becomes active (R369, R388) -/

/-- The Store ports of a map: bring-up starts on new ones; a change of layout or namespace closes the log and starts over
(R369, R388). -/
def Dev.storeFromMap (d : Dev) : Dev :=
  let m := d.map.active
  let fresh := storeLayout m != storeLayout d.map.old || storeField m 4 8 0 != storeField d.map.old 4 8 0
  let d := if fresh then d.closeLog else d
  [0, 1].foldl (fun d v =>
    if portRole m (6 + v) != 4 then d.modDrive v fun _ => Drive.initial
    else if (d.drive v).phase == .unused || fresh then d.modDrive v fun _ => { Drive.initial with phase := .waiting }
    else d) d

/-! ### Commands (R389) -/

/-- The code of a drive's state in `STORE.STATUS`: 0 absent, 1 training, 2 up, 3 lost. -/
def Drive.code (x : Drive) : Nat :=
  match x.phase with
  | .unused => 0
  | .waiting => if x.lost then 3 else 0
  | .up => 2
  | _ => 1

/-- `STORE.STATUS`. -/
def storeStatusKind : CmdKind := ⟨0x0A00, false, upStates⟩

/-- The 80 bytes of `STORE.STATUS`. -/
def storeStatusData (d : Dev) : List Byte :=
  let s := d.store
  let one := fun (x : Drive) => leBytes 1 x.code ++ leBytes 1 x.generation ++ leBytes 1 x.width ++ zeros 1 ++ leBytes 8 x.bytes ++ zeros 4
  (s.drives.toList.map one).flatten
    ++ leBytes 1 (b2n s.opened + 2 * b2n d.degraded + 4 * b2n (hasStore d.map.active && !d.storeOnline)) ++ leBytes 1 s.mode
    ++ leBytes 1 s.slotsUsed ++ zeros 5 ++ leBytes 8 s.head ++ leBytes 8 s.tail ++ leBytes 8 s.fwdSeq ++ leBytes 2 s.fwdOffset
    ++ zeros 6 ++ leBytes 8 s.gen

/-- STORE_STATUS. -/
def execStoreStatus (h : CmdHeader) (s : State) : Host.Outcome State Fault Refusal :=
  .next (hostRun (.storeStatus h) storeStatusKind h (reads storeStatusData) s)

/-- `STORE.COUNTERS`. -/
def storeCountersKind : CmdKind := ⟨0x0A01, false, upStates⟩

/-- No counts. -/
def StoreCounters.zero : StoreCounters := ⟨0, 0, 0, 0, 0, 0, 0, 0, 0, 0, 0⟩

/-- The 88 bytes of `STORE.COUNTERS`. -/
def StoreCounters.toBytes (c : StoreCounters) : List Byte :=
  ([c.written, c.early, c.retried, c.failed, c.bytes, c.unstored, c.lostUnforwarded, c.forwarded, c.replayed, c.poison,
    c.checkpoints].map (leBytes 8)).flatten

/-- Read the counts and clear them where asked. -/
def storeCountersEff (clear : Bool) : Effect := onDev fun _ _ d =>
  (if clear then d.countStore fun _ => StoreCounters.zero else d, .done .ok d.store.counters.toBytes)

/-- STORE_COUNTERS. -/
def execStoreCounters (h : CmdHeader) (clear : Bool) (s : State) : Host.Outcome State Fault Refusal :=
  .next (hostRun (.storeCounters h clear) storeCountersKind h (storeCountersEff clear) s)

/-- A store command: WRONG_STATE on a module with no Store port. -/
def storeCommand (f : Ctx → Dev → Dev × CmdResult) : Effect := onDev fun _ c d =>
  if hasStore d.map.active then f c d else (d, .done .wrongState [])

/-- `STORE.FORMAT`. -/
def storeFormatKind : CmdKind := ⟨0x0A02, false, [.standby, .ready]⟩

/-- New superblocks and checkpoints are written on every drive of the layout, then the log opens; the reply follows. -/
def Dev.formatLog (d : Dev) (c : Ctx) (count : Nat) : Dev :=
  let id := (Config.freshLogId d.free).toNat % (2 ^ 64 - 1) + 1
  let d := { d.closeLog with free := d.free + 1 }
  let d := d.modStore fun s => { s with
    logId := id, extentCount := count, head := 0, next := 0, fwdSeq := 0, fwdOffset := 0, gen := 1, copy := 0, format := some c }
  (layoutDrives (storeLayout d.map.active)).foldl (fun d v =>
    [StoreOp.writeSuper 0, .writeSuper 1, .writeCheckpoint 0].foldl (fun d op => d.submit v op) d) d

/-- Format the log: not while a replay runs, or while another command waits on the drives (R388, R421). -/
def storeFormatEff (count : Nat) : Effect := storeCommand fun c d =>
  let layout := storeLayout d.map.active
  if d.store.replay.active || d.store.format.isSome || !d.store.cpWaiting.isEmpty || !d.store.finds.isEmpty then
    (d, .done .wrongState [])
  else if !((layoutDrives layout).all fun v => d.driveUp v) then (d, .done .notReady [])
  else if count < 16 || !sizesHold layout count fun v => (d.drive v).bytes then (d, .done .outOfRange [])
  else (d.formatLog c count, .wait)

/-- STORE_FORMAT. -/
def execStoreFormat (h : CmdHeader) (extentCount : Nat) (s : State) : Host.Outcome State Fault Refusal :=
  .next (hostRun (.storeFormat h extentCount) storeFormatKind h (storeFormatEff extentCount) s)

/-- `STORE.CHECKPOINT`. -/
def storeCheckpointKind : CmdKind := ⟨0x0A03, false, [.ready, .running, .quiesce]⟩

/-- Seal and write a checkpoint; where one is being written the open extent is sealed all the same, and both commands are answered on
its completion (R377, R388). -/
def storeCheckpointEff : Effect := storeCommand fun c d =>
  if d.storeOnline then
    let d := d.modStore fun s => { s with cpWaiting := s.cpWaiting ++ [c] }
    (if d.store.cpBusy then d.sealEarly else d.beginCheckpoint, .wait)
  else (d, .done .notReady [])

/-- STORE_CHECKPOINT. -/
def execStoreCheckpoint (h : CmdHeader) (s : State) : Host.Outcome State Fault Refusal :=
  .next (hostRun (.storeCheckpoint h) storeCheckpointKind h storeCheckpointEff s)

/-- `STORE.FIND`. -/
def storeFindKind : CmdKind := ⟨0x0A04, false, [.ready, .running, .quiesce]⟩

/-- Find the lowest extent sealed at or after a moment, by bisection. -/
def storeFindEff (moment : TimeWord) : Effect := storeCommand fun c d =>
  if !moment.legal then (d, .done .outOfRange [])
  else if !d.store.opened then (d, .done .notReady [])
  else if d.store.head ≤ d.store.tail then (d, .done .outOfRange [])
  else (d.findStep ⟨c, moment, d.store.tail, d.store.head⟩, .wait)

/-- STORE_FIND. -/
def execStoreFind (h : CmdHeader) (moment : TimeWord) (s : State) : Host.Outcome State Fault Refusal :=
  .next (hostRun (.storeFind h moment) storeFindKind h (storeFindEff moment) s)

/-- `STORE.REPLAY`. -/
def storeReplayKind : CmdKind := ⟨0x0A05, false, [.ready, .running, .quiesce]⟩

/-- Read a range of extents from its first `first_record` on (R384). -/
def storeReplayEff (first last : Nat) : Effect := storeCommand fun _ d =>
  if d.store.replay.active then (d, .done .busy [])
  else if !d.store.opened then (d, .done .notReady [])
  else if first ≤ last && d.store.tail ≤ first && last < d.store.head then
    let r := { LogReader.idle with active := true, seq := first, last := last }
    ((d.modStore fun s => { s with replay := r, replayFirst := first }).runReaders, .done .ok [])
  else (d, .done .outOfRange [])

/-- STORE_REPLAY. -/
def execStoreReplay (h : CmdHeader) (first last : Nat) (s : State) : Host.Outcome State Fault Refusal :=
  .next (hostRun (.storeReplay h first last) storeReplayKind h (storeReplayEff first last) s)

/-- `STORE.REPLAY_STOP`. -/
def storeReplayStopKind : CmdKind := ⟨0x0A06, false, [.ready, .running, .quiesce]⟩

/-- End the replay. -/
def storeReplayStopEff : Effect := storeCommand fun _ d =>
  if d.store.replay.active then (d.endReplay, .done .ok []) else (d, .done .wrongState [])

/-- STORE_REPLAY_STOP. -/
def execStoreReplayStop (h : CmdHeader) (s : State) : Host.Outcome State Fault Refusal :=
  .next (hostRun (.storeReplayStop h) storeReplayStopKind h storeReplayStopEff s)

end Sys2Proof.Machine
end

