-- ==== Sys2Proof/Machine/System.lean ====
section
/-! DEFINITION. Device states, start-up, resets, the input supply and the rails (R494 to R499, R560, R561, R566 to
R577). -/

namespace Sys2Proof.Machine

/-! ### Transitions (R567 to R570) -/

/-- A `SYS.GO` whose last effect has not taken place gets WRONG_STATE: another transition has come (R576). -/
def Dev.failGo (d : Dev) : Dev :=
  match d.sys.goPending with
  | some (c, _) => { d with sys := { d.sys with goPending := none } }.finish c .wrongState []
  | none => d

/-- A transition: the states, the cause and the time word that `SYS.STATE` reports, and event 1800 (R567, R577). -/
def Dev.moveTo (d : Dev) (st : DevState) (cause : Nat) : Dev :=
  let old := d.sys.state
  let d := d.failGo
  let d := { d with sys := { d.sys with state := st, previous := old, cause := cause, since := d.now } }
  d.raise 1800 0 [evNat old.code, evNat st.code, evNat cause]

/-- Timed commands and waiting actions are discarded: each timed one gets WRONG_STATE, and event 1826 tells the counts
(R431, R432) and the state entered (R443). -/
def Dev.discardWaiting (d : Dev) : Dev :=
  let timed := d.cmd.timed
  let waiting := d.cmd.deferred ++ d.cmd.nextTick
  if timed.isEmpty && waiting.isEmpty then d
  else
    let d := { d with cmd := { d.cmd with timed := [], deferred := [], nextTick := [] }, map := { d.map with swap := none } }
    let d := timed.foldl Dev.discardTimed d
    let d := { d with evt := { d.evt with ownCounts := modAt d.evt.ownCounts 2 fun n => (n + 1) % 2 ^ 32 } }
    d.raise 1826 0 [evNat timed.length, evNat waiting.length, evNat d.sys.state.code]

/-- Entry to Fault-hold, from the states that R567 lists (R570). -/
def Dev.faultHold (d : Dev) (cause : Nat) : Dev :=
  if [DevState.boot, .standby, .ready, .running, .quiesce].contains d.sys.state then
    (((d.moveTo .faultHold cause).clearArmed.biasToZero false).endRuns 2).discardWaiting
  else d

/-- The converters start at the next tick that is a multiple of 8 (R570). -/
def Dev.startConverters (d : Dev) : Dev :=
  let at_ := d.sys.ticks + 8 - d.now.tick % 8
  { d with acq := { d.acq with conv := some ⟨at_, none⟩, convStop := false } }.beginSampling at_

/-- Some pixel lies in an open segment window (R87, R570). -/
def Dev.windowOpen (d : Dev) : Bool := (List.range 1024).any d.inOpenSegment

/-- The converters that are to stop do so once no segment window is open (R570). -/
def Dev.convCheck (d : Dev) : Dev :=
  if d.acq.convStop && !d.windowOpen then
    { d with acq := { d.acq with conv := d.acq.conv.map fun s => { s with stop := some d.sys.ticks }, convStop := false } }
  else d

/-- Tiles that the power-fail warning or Fault-hold has taken to 0 V ramp to `v_set` (R497, R570). -/
def Dev.rampHeld (d : Dev) : Dev :=
  (List.range 64).foldl (fun d n =>
    if (d.tileFe n).any (·.heldOff) then (d.modTile n fun t => { t with heldOff := false }).rampTile n (d.mapBias n) else d) d

/-- `auto_arm`: the authority sends ARM for `arm_courses` each time its device state becomes Running (R200). -/
def Dev.autoArm (d : Dev) : Dev :=
  if armFireBit d.map.active 0 0 && armFireBit d.map.active 1 0 then
    d.authorityArm true (mapNum d.map.active 0x0032 0 22 2 1)
  else d

/-- Entry to Ready (R570). -/
def Dev.enterReady (d : Dev) (cause : Nat) : Dev :=
  if d.sys.state == .quiesce then (d.moveTo .ready cause).rampHeld else ((d.moveTo .ready cause).startConverters).rampToMap

/-- Entry to Running (R570). -/
def Dev.enterRunning (d : Dev) : Dev := (d.moveTo .running 0x0020).autoArm

/-- Entry to Standby (R570). -/
def Dev.enterStandby (d : Dev) (cause : Nat) : Dev :=
  let d := ((d.moveTo .standby cause).clearArmed).endRuns 2
  { d with acq := { d.acq with convStop := d.converting } }.convCheck

/-- The learned INT correction is saved (R141). -/
def State.saveCorrection (s : State) : State :=
  (s.onDev (·.modTime fun t => { t with savedAt := s.dev.sys.ticks })).ownWrite (.correction s.dev.time.correction)

/-- Entry to Quiesce (R141, R570). -/
def State.enterQuiesce (s : State) (cause : Nat) : State :=
  (s.onDev fun d => (d.moveTo .quiesce cause).clearArmed).saveCorrection

/-- The last effect of an entry has taken place (R570). -/
def Dev.reached (d : Dev) (st : DevState) : Bool :=
  match st with
  | .ready => d.acq.conv.any (·.start ≤ d.sys.ticks)
  | .running => d.acq.framing
  | .quiesce => !d.acq.framing
  | .standby => !d.converting
  | _ => true

/-- A `SYS.GO` whose last effect has taken place is answered (R570). -/
def Dev.settleGo (d : Dev) : Dev :=
  match d.sys.goPending with
  | some (c, st) => if d.reached st then { d with sys := { d.sys with goPending := none } }.finish c .ok [] else d
  | none => d

/-! ### `SYS.IDENTIFY`, `SYS.STATE`, `SYS.GO` (R569, R577) -/

/-- `SYS.IDENTIFY`. -/
def sysIdentifyKind : CmdKind := ⟨0x0000, false, anyState⟩

/-- The 48 bytes of `SYS.IDENTIFY` (R455). -/
def sysIdentifyData (d : Dev) : List Byte :=
  let (c, l, m) := d.fw.running.getD
    ((Config.romVersion 0).toNat, (Config.romVersion 1).toNat, (Config.romVersion 2).toNat)
  textBytes "NYLVAIDE" ++ textBytes "PX1024" ++ zeros 2 ++ leBytes 1 Config.stepping.toNat ++ leBytes 1 Config.grade.toNat
    ++ leBytes 1 d.sys.state.code ++ leBytes 1 m ++ leBytes 8 Config.serial.toNat ++ leBytes 4 c ++ leBytes 4 l
    ++ leBytes 2 (selfAddress d.map.active) ++ zeros 10

/-- SYS_IDENTIFY. -/
def execSysIdentify (h : CmdHeader) (s : State) : Host.Outcome State Fault Refusal :=
  .next (hostRun (.sysIdentify h) sysIdentifyKind h (reads sysIdentifyData) s)

/-- `SYS.STATE`. -/
def sysStateKind : CmdKind := ⟨0x0001, false, anyState⟩

/-- The 24 bytes of `SYS.STATE` (R455). -/
def sysStateData (d : Dev) : List Byte :=
  leBytes 1 d.sys.state.code ++ leBytes 1 d.sys.previous.code ++ leBytes 2 d.sys.cause ++ twBytes d.sys.since
    ++ leBytes 1 d.pwr.level ++ zeros 7

/-- SYS_STATE. -/
def execSysState (h : CmdHeader) (s : State) : Host.Outcome State Fault Refusal :=
  .next (hostRun (.sysState h) sysStateKind h (reads sysStateData) s)

/-- `SYS.GO`. -/
def sysGoKind : CmdKind := ⟨0x0002, true, upStates⟩

/-- The state that a target names (R569). -/
def goTarget : Nat → Option DevState
  | 3 => some .standby | 4 => some .ready | 5 => some .running | 6 => some .quiesce | _ => none

/-- The transitions that `SYS.GO` can make (R567). -/
def goAllowed (old new : DevState) : Bool :=
  match old, new with
  | .standby, .ready | .ready, .running | .quiesce, .running | .ready, .quiesce | .running, .quiesce | .quiesce, .ready
  | .ready, .standby | .quiesce, .standby | .faultHold, .standby => true
  | _, _ => false

/-- The conditions under which an allowed transition returns NOT_READY (R569, R576). -/
def Dev.notReady (d : Dev) (st : DevState) : Bool :=
  (st == .ready && d.map.active.isNone)
    || ((st == .ready || st == .running) && (!d.time.locked || d.pwr.warning.isSome))
    || (st == .running && d.time.code == 0)
    || (d.sys.state == .faultHold && (!((List.range 7).all fun i => d.pwr.railGood d.sys.ticks i)
      || (d.latestValue 224).any (fun w => atLeast w 1300) || !d.time.locked))

/-- Enter a state by command (R570). -/
def State.enter (s : State) (st : DevState) : State :=
  match st with
  | .ready => s.onDev (·.enterReady 0x0020)
  | .running => s.onDev (·.enterRunning)
  | .quiesce => s.enterQuiesce 0x0020
  | .standby => s.onDev (·.enterStandby 0x0020)
  | _ => s

/-- `SYS.GO` (R569): answered once the last effect of the entry has taken place. -/
def sysGoEff (target : Nat) : Effect := fun c s =>
  match goTarget target with
  | none => (s, .done .outOfRange [])
  | some st =>
    if s.dev.sys.state == st then (s, .done .ok [])
    else if !goAllowed s.dev.sys.state st then (s, .done .wrongState [])
    else if s.dev.notReady st then (s, .done .notReady [])
    else
      let s := s.enter st
      if s.dev.reached st then (s, .done .ok [])
      else (s.onDev fun d => { d with sys := { d.sys with goPending := some (c, st) } }, .wait)

/-- SYS_GO. -/
def execSysGo (h : CmdHeader) (target : Nat) (s : State) : Host.Outcome State Fault Refusal :=
  .next (hostRun (.sysGo h target) sysGoKind h (sysGoEff target) s)

/-! ### Starting from flash (R560, R561, R573, R574) -/

/-- The rails of Lodge: the intermediate bus, VCORE at 0.60 V, I/O, flash and service (R566). -/
def PwrState.lodge (x : PwrState) : PwrState :=
  { x with level := 0, requested := 0, rampFrom := vcoreOf 0, rampTo := vcoreOf 0
           rails := Vector.ofFn fun i => ⟨[0, 1, 5, 6].contains i.val, none⟩ }

/-- Entry to Lodge: event 1862 with its cause of R561, the loop locked to INT. -/
def Dev.enterLodge (d : Dev) (cause lodgeCause : Nat) : Dev :=
  ((((d.moveTo .lodge cause).modPwr PwrState.lodge).raise 1862 0 [evNat lodgeCause])).lockLoop

/-- A boot-selector record is written by the ROM, which waits for it (R560). -/
def State.romWrite (s : State) (r : BootRecord) : State :=
  let steps := recordSteps s.flash 0 bootMagic (BootRecord.next s.flash r s.dev.now).bytes
  { s with flash := steps.foldl (fun f x => x.apply f) s.flash }

/-- A roll-back record is written: event 1859 with cause 1 "boots" or 2 "check" (R557, R560). -/
def State.rollBack (s : State) (r : BootRecord) (cause : Nat) : State :=
  let r := BootChange.rollBack.apply r
  (s.romWrite r).onDev fun d =>
    (d.modFw fun x => { x with rolledBack := true }).raise 1859 0 [evNat cause, evNat r.ctrlSlot, evNat r.laneSlot]

/-- Steps 1 to 3 of R560, by the record in force. -/
def State.bootSelectOn (s : State) : Option BootRecord → State
  | none => s.onDev (·.enterLodge 0x0012 1)
  | some r =>
    if r.trial && r.trialBoots == 3 then s.rollBack r 1
    else if r.trial then s.romWrite { r with trialBoots := r.trialBoots + 1 }
    else s

/-- Steps 1 to 3 of R560. -/
def State.bootSelect (s : State) : State := s.bootSelectOn (bootRecord s.flash)

/-- What every reset leaves, in a state of its own: the flash with the operation under way cut short, the fuses, the
cause, and the model's own counts (R546, R574). -/
def State.cleared (s : State) (st : DevState) (cause : Nat) : State :=
  let f := s.tornFlash
  let d := Dev.initial s.dev.sys.state cause (savedCorrection f) s.dev.bist.fuses (s.dev.free + 1)
  { s with
    dev := { d with sys := { d.sys with state := st, offs42 := s.dev.sys.offs42, resetRail := s.dev.sys.resetRail } }
    flash := f }

/-- A start that reaches Boot (R573): event 1800, then what the ROM does before the images start: steps 1 to 3 of R560 and,
unless they lead to Lodge, the repairs (R530, R560, R571). -/
def State.startBoot (s : State) (cause : Nat) : State :=
  let old := s.dev.sys.state
  let s := s.cleared .boot cause
  let rail := if cause = 0x0003 then s.dev.sys.resetRail else none
  let s := s.onDev fun d =>
    { d with sys := { d.sys with resetRail := rail } }.raise 1800 0 [evNat old.code, evNat DevState.boot.code, evNat cause]
  let s := s.bootSelect
  if s.dev.sys.state == .boot then s.bootRepairs else s

/-- LODGE: the 4 bytes after the transaction's first byte; other bytes than "LODG" have no effect (R433, R561). The
module returns the status byte, then zeros. -/
def execLodge (code : List Byte) (s : State) : Host.Outcome State Fault Refusal :=
  let driven := (s.dev.onSvdo (zeros code.length)).cmd.svdo
  .next (if s.dev.sys.state == .off then s
    else if code != textBytes "LODG" then s.onDev fun d => { d with cmd := { d.cmd with svdo := driven } }
    else
      let old := s.dev.sys.state
      let s := s.cleared .boot 0x0007
      s.onDev fun d =>
        let d := { d with sys := { d.sys with state := old }, cmd := { d.cmd with svdo := driven } }
        d.enterLodge 0x0007 0)

/-- The cause of R561 that leads to Lodge, where the pair of the record in force does not pass: 1 no record, 3 the pair
rolled back to, `other` the pair of a record not on trial. -/
def pairFault (f : List Host.Cell) (other : Nat) : Option BootRecord → Option Nat
  | none => some 1
  | some r => if testedPairing f r.ctrlSlot r.laneSlot then none else some other

/-- Step 4 of R560: the pair to start, or the cause of R561 that leads to Lodge. -/
def State.pickPair (s : State) : State × Option Nat :=
  if (bootRecord s.flash).any fun r => r.trial && !testedPairing s.flash r.ctrlSlot r.laneSlot then
    let t := s.rollBack (baseRecord s.flash) 2
    (t, pairFault t.flash 3 (bootRecord t.flash))
  else (s, pairFault s.flash (if s.dev.fw.rolledBack then 3 else 2) (bootRecord s.flash))

/-- Event 1805, the start-up report (R572). -/
def Dev.startReport (d : Dev) (slot check : Int) : Dev :=
  { d with sys := { d.sys with bootMapDone := true } }.raise 1805 0
    [evNat d.sys.resetCause, .num (d.sys.resetRail.elim (-1) fun r => (r : Int)), evNat (d.sys.sinceStart / 2560000),
      .num slot, .num check]

/-- Step 5 of R560: the images of a record start, and the module enters Standby. -/
def State.startImagesOf (s : State) : Option BootRecord → State
  | none => s
  | some r =>
    let c := slotVersion s.flash 0 r.ctrlSlot
    let l := slotVersion s.flash 1 r.laneSlot
    let s := s.onDev fun d =>
      let d := d.lockLoop.modFw fun x => { x with
        started := d.sys.ticks, running := some (c, l, schemaMinor s.flash r.ctrlSlot) }
      let d := { d with
        sys := { d.sys with imagesStarted := true }, triad := { d.triad with lastVote := d.sys.ticks } }
      let d := if r.trial then d.raise 1857 0 [evNat r.trialBoots, evNat c, evNat l] else d
      (d.modTime fun t => { t with savedAt := d.sys.ticks }).moveTo .standby 0x0010
    if r.bootMap ≤ 3 then s else s.onDev (·.startReport (-1) 0)

/-- Step 5 of R560, by the record in force. -/
def State.startImages (s : State) : State := s.startImagesOf (bootRecord s.flash)

/-- IMAGES_STARTED: steps 4 and 5 of R560; INT is present and the loop locked by then (R571). -/
def execImagesStarted (s : State) : Host.Outcome State Fault Refusal :=
  .next (if s.dev.sys.state != .boot || s.dev.sys.imagesStarted || s.dev.triad.stopped then s
    else
      match s.pickPair with
      | (s, none) => s.startImages
      | (s, some c) => s.onDev (·.enterLodge (0x0011 + c) c))

/-- `SYS.RESET`. -/
def sysResetKind : CmdKind := ⟨0x0003, false, anyState⟩

/-- The reset follows 200 µs after the reply (R573, R577). -/
def sysResetEff (kind : Nat) : Effect := onDev fun _ _ d =>
  if 1 < kind then (d, .done .outOfRange [])
  else ({ d with sys := { d.sys with resetDue := some (d.sys.resetDue.getD (kind, usTicks 200)) } }, .done .ok [])

/-- SYS_RESET. -/
def execSysReset (h : CmdHeader) (kind : Nat) (s : State) : Host.Outcome State Fault Refusal :=
  .next (hostRun (.sysReset h kind) sysResetKind h (sysResetEff kind) s)

/-- One tick of a reset that is due: the reset when its time has come (R557, R573). -/
def State.resetTick (s : State) : State :=
  match s.dev.sys.resetDue with
  | none => s
  | some (kind, 0) => s.startBoot (0x0004 + kind)
  | some (kind, n + 1) => s.onDev fun d => { d with sys := { d.sys with resetDue := some (kind, n) } }

/-! ### Input supply (R494 to R497, R575) -/

/-- POWER_ON: VIN rises past the lock-out release (R494, R571). -/
def execPowerOn (s : State) : Host.Outcome State Fault Refusal :=
  .next (if s.dev.sys.state == .off then s.startBoot 0x0001 else s)

/-- The time word of the transition to Off (R577). -/
def Dev.modOffSince (d : Dev) (t : TimeWord) : Dev := { d with sys := { d.sys with since := t } }

/-- A state but Off goes to Off: every rail and bias output is switched off (R567, R575). -/
def State.powerOff (s : State) (cause : Nat) : State :=
  let now := s.dev.now
  let s := s.cleared .off cause
  s.onDev fun d => (d.modPwr fun x => { x with rails := fill 7 ⟨false, none⟩ }).modOffSince now

/-- UNDER_VOLTAGE_LOCK_OUT: Off, and no rail restart is owed any more (R494, R573, R575). -/
def execUnderVoltageLockOut (s : State) : Host.Outcome State Fault Refusal :=
  let s := if s.dev.sys.state == .off then s else s.powerOff 0x0040
  .next (s.onDev fun d => { d with sys := { d.sys with railRestartDue := false } })

/-- OVER_VOLTAGE_SHUTDOWN (R494). -/
def execOverVoltageShutdown (s : State) : Host.Outcome State Fault Refusal :=
  .next (if s.dev.sys.state == .off then s else s.powerOff 0x0041)

/-- OVER_VOLTAGE_RESTART: after an over-voltage shutdown (R494). -/
def execOverVoltageRestart (s : State) : Host.Outcome State Fault Refusal :=
  .next (if s.dev.sys.state == .off && s.dev.sys.cause == 0x0041 then s.startBoot 0x0002 else s)

/-- OPERATING_RANGE_LEFT: VIN is above 75.0 V, or below 36.0 V with no warning: event 1603 with VIN (R494, R510). -/
def execOperatingRangeLeft (vin : Nat) (s : State) : Host.Outcome State Fault Refusal :=
  .next (s.onDev fun d =>
    if hotter vin 750 || (!atLeast vin 360 && d.pwr.warning.isNone) then d.raiseLimited 1603 0 0 [.real vin] else d)

/-- The steps of the warning that the other subsystems take: the ceiling, the bias and the store (R496). -/
def Dev.failSteps (d : Dev) : Dev :=
  ((d.beginCause 5 0).clearArmed.biasToZero true).askCheckpoint

/-- POWER_FAIL_WARNING: VIN and the input power at the moment of the warning (R496, R576). -/
def execPowerFailWarning (vin power : Nat) (s : State) : Host.Outcome State Fault Refusal :=
  .next (if s.dev.sys.state == .off || s.dev.pwr.warning.isSome then s
    else
      let s := s.onDev fun d =>
        (d.modPwr fun x => { x with warning := some d.sys.ticks }).raise 1600 0 [.real vin, .real power]
      let s := if s.dev.sys.state == .ready || s.dev.sys.state == .running then s.enterQuiesce 0x0021 else s
      s.onDev (·.failSteps))

/-- POWER_FAIL_WARNING_CLEARED: event 1602; cause 5 ends, or stays until `PWR.SET_LEVEL` (R497, R508). -/
def execPowerFailWarningCleared (s : State) : Host.Outcome State Fault Refusal :=
  .next (s.onDev fun d =>
    match d.pwr.warning with
    | none => d
    | some t =>
      let d := (d.modPwr fun x => { x with warning := none }).raise 1602 0 [evNat ((d.sys.ticks - t) / 2560)]
      if ploughReturns d.map.active then d.endCause 5 else d)

/-! ### Rails (R499, R573) -/

/-- Change a rail. -/
def Dev.modRail (d : Dev) (rail : Nat) (f : RailState → RailState) : Dev :=
  d.modPwr fun x => { x with rails := modAt x.rails rail f }

/-- A fault of the flash and service rail or of the intermediate bus: Off, and a restart after 1 s unless it is the third
within 60 s (R499, R573). -/
def State.supplyFault (s : State) (rail : Nat) : State :=
  let offs := 0 :: s.dev.sys.offs42.filter (· < 60 * ticksPerSecond)
  (s.powerOff 0x0042).onDev fun d =>
    { d with sys := { d.sys with offs42 := offs, railRestartDue := offs.length < 3, resetRail := some rail } }

/-- A rail faults again within 1 s of its restart (R499). -/
def RailState.again (r : RailState) (now : Nat) : Bool := r.restartedAt.any fun t => now ≤ t + ticksPerSecond

/-- Every rail but the intermediate bus and the flash and service rail is switched off; the patrol answers what it can
(R472, R499). -/
def Dev.railsOff (d : Dev) : Dev :=
  let d := [1, 2, 3, 4, 5].foldl (fun d r => d.modRail r fun x => { x with good := false }) d
  { d with triad := { d.triad with stopped := true } }

/-- A fault of a rail that can restart: event 1604, a soft start, Fault-hold; in Boot before the images run the patrol
answers until `SYS.RESET` (R499, R576). -/
def Dev.railFault (d : Dev) (rail voltage : Nat) : Dev :=
  let again := (d.pwr.rails[rail]?).any (·.again d.sys.ticks)
  let early := d.sys.state == .boot
  let d := (d.raiseLimited 1604 0 rail [evNat rail, .real voltage, evNat (b2n again)]).faultHold 0x0031
  let d := if early then { d with triad := { d.triad with stopped := true } } else d
  if again then d.railsOff else d.modRail rail fun x => { x with restartedAt := some d.sys.ticks }

/-- The target of a rail in mV, that of VCORE being the value its level has, and its window in percent (R498, R501). -/
def railWindow (x : PwrState) : Nat → Nat × Nat
  | 0 => (12000, 5) | 1 => (x.rampTo, 3) | 2 => (1800, 3) | 3 => (900, 3) | 4 => (850, 3) | 5 => (1800, 5) | _ => (3300, 5)

/-- A rail is at fault with a voltage, binary32: it is switched on and past its soft start, the voltage lies outside its
window, and it is not VCORE in a level change (R498, R499). -/
def PwrState.railBad (x : PwrState) (now rail voltage : Nat) : Bool :=
  let (target, percent) := railWindow x rail
  let (n, k) := f32Frac voltage
  (x.rails[rail]?).any (·.isGood now) && !(rail == 1 && x.seq.isSome)
    && decide (((percent * target : Nat) : Int) * 2 ^ k < (100 * (1000 * n - (target : Int) * 2 ^ k)).natAbs)

/-- RAIL_FAULT: a rail has been out of its window for 10 µs; its flag bit and the measured voltage (R498, R499). -/
def execRailFault (rail voltage : Nat) (s : State) : Host.Outcome State Fault Refusal :=
  .next (if s.dev.sys.state == .off || !s.dev.pwr.railBad s.dev.sys.ticks rail voltage then s
    else if rail = 0 || rail = 6 then s.supplyFault rail
    else s.onDev (·.railFault rail voltage))

/-- RAIL_RESTART: 1 s after an Off of cause 0x0042 (R573). -/
def execRailRestart (s : State) : Host.Outcome State Fault Refusal :=
  .next (if s.dev.sys.state == .off && s.dev.sys.railRestartDue && (s.dev.sys.offs42.head?).any (ticksPerSecond ≤ ·) then
      s.startBoot 0x0003
    else s)

/-! ### Other causes of Fault-hold -/

/-- LID_OVERHEAT_HOLD: the lid has been at or above 130.0 °C for 10 s: event 1601 as a new event, and Fault-hold, once for
each such time without a break (R509). -/
def execLidOverheatHold (s : State) : Host.Outcome State Fault Refusal :=
  .next (s.onDev fun d =>
    if !d.pwr.lidHeld && d.pwr.lidHot.any fun t => t + 10 * ticksPerSecond ≤ d.sys.ticks then
      ((d.modPwr fun x => { x with lidHeld := true }).raise 1601 0 ((d.latestValue 224).toList.map .real)).faultHold 0x0033
    else d)

/-- LOOP_UNLOCK: the source in use is marked with cause "loop unlock", event 1536, and Fault-hold (R160). -/
def execLoopUnlock (s : State) : Host.Outcome State Fault Refusal :=
  .next (s.onDev fun d =>
    if d.time.locked then (((d.failSource d.time.inUse 3).modTime fun t => { t with locked := false }).schussCheck).faultHold 0x0032
    else d)

/-- INT_CORRECTION_SAVE: 24 hours since the correction was last saved (R141). -/
def execIntCorrectionSave (s : State) : Host.Outcome State Fault Refusal :=
  .next (if s.dev.sys.imagesStarted && s.dev.time.savedAt + 86400 * ticksPerSecond ≤ s.dev.sys.ticks then s.saveCorrection else s)

end Sys2Proof.Machine
end

