-- ==== Sys2Proof/Machine/Map.lean ====
section
/-! DEFINITION. Loading, activating and swapping piste maps, their slots and their keys (R47, R48, R51 to R61). -/

namespace Sys2Proof.Machine

/-! ### A map becomes active (R24, R25, R54) -/

/-- Change the map banks. -/
def Dev.modMap (d : Dev) (f : MapState → MapState) : Dev := { d with map := f d.map }

/-- What was formed under the earlier map is served by it (R25): freeze orders, segments and stubs in ACQ and CMP, records that
wait for buffers, and what stands in the output queues. -/
def Dev.markOld (d : Dev) : Dev :=
  let mark := fun (o : FreezeOrder) => { o with oldMap := true }
  let seg := fun (s : RawSeg) => { s with order := mark s.order }
  let stub := fun (s : Stub) => { s with order := mark s.order }
  let rec_ := fun (q : QRec) => { q with old := true }
  let on := fun (t : TxStream) => { t with items := t.items.map fun i => ⟨i.recs.map rec_⟩ }
  let d := { d with acq := { d.acq with
    orders := d.acq.orders.map mark, segments := d.acq.segments.map seg, stubs := d.acq.stubs.map stub } }
  let item := fun (x : CmpItem) => match x with | .segment s => CmpItem.segment (seg s) | .stub s => CmpItem.stub (stub s)
  let d := d.modCmp fun c => { c with job := c.job.map fun j => { j with item := item j.item } }
  d.modMrg fun m => { m with
    up := m.up.map on, down := m.down.map on, events := m.events.map fun e => { e with recs := e.recs.map rec_ }
    waiting := m.waiting.map fun w => { w with old := true }, pass := m.pass.map fun q => q.map fun x => { x with old := true } }

/-- Delivery settings and masks of the active map (R441, R442); latched sources stay latched. -/
def Dev.evtFromMap (d : Dev) (m : Option PisteMap) : Dev :=
  { d with evt := { d.evt with
    mask := BitVec.ofNat 2048 (mapNum m 0x70 0 32 256 0)
    toUplink := mapBits m 0x70 0 16 1 0 0 1 == 1, toService := mapBits m 0x70 0 16 1 1 1 1 == 1
    nmiPeriod := mapNum m 0x70 0 18 2 1 } }

/-- `t_offset` of every pixel, and the pixels that come into use, go out of use or have their slot switched off; at a tag-frame
edge the slot before it is still judged (R163, R169, R179, R182). -/
def Dev.tdcFromMap (d : Dev) : Dev :=
  let m := d.map.active
  (List.range 1024).foldl (fun d p =>
    let d := d.modTdc p fun t => { t with tOffset := ofTwos 16 (mapNum m 0x29 0 (16 + 8 * p + 6) 2 0) }
    if pixelEnabled m p && !pixelEnabled d.map.old p then d.intoUse p
    else if !pixelEnabled m p then d.outOfUse p
    else if !slotEnabled m p && !d.atFrameEdge then d.slotOff p
    else d) d

/-- The measured margins of stations whose limit the map changes start again (R45). -/
def Dev.marginsFromMap (d : Dev) : Dev :=
  let keep := fun (s : Fin 11) =>
    if stationLimit d.map.active s.val == stationLimit d.map.old s.val then getD d.map.margins s.val ⟨none, false, 0⟩
    else ⟨none, false, 0⟩
  d.modMap fun x => { x with margins := Vector.ofFn keep }

/-- A map becomes active at the present tick, its edge E: every subsystem takes its tables (R24, R54). The map before it
stays for what lies in front of the swap marker (R25). -/
def Dev.activate (d : Dev) (new : PisteMap) : Dev :=
  let old := d.map.active
  let d := (((d.evtFromMap (some new)).lanesBeforeMap (some new)).settleTagBuckets.endRuns 0).markOld
  let d := d.modMap fun x => { x with active := some new, activeAt := d.sys.ticks, markerSeq := d.acq.nextSeq, old := old, oldAt := x.activeAt, reloads := [] }
  let d := d.schussCheck.pwrFromMap.lanesFromMap.pairsFromMap.linkFromMap.mrgFromMap.storeFromMap.timeFromMap
  let d := (d.feFromMap old).acqFromMap.slalomFromMap.cmpFromMap.hmonFromMap.walksFromMap
  let d := ((List.range 1024).foldl Dev.wfcFromMap d).tdcFromMap.marginsFromMap
  ((d.modMon fun x => { x with tableDue := true }).calFromMap old.isNone).drainTest

/-! ### The banks (R51, R391) -/

/-- Stored words of the table banks: the halves change places, or the upper half is cleared. -/
def bankHalf : Nat := 8388608

/-- The address of the other half that a cell of the table banks goes to. -/
def otherHalf (k : Nat) : Nat := if k < memKey 3 bankHalf then k + bankHalf else k - bankHalf

/-- A cell lies in a range of addresses of class 3. -/
def inBanks (first n : Nat) (c : CodeCell) : Bool := memKey 3 first ≤ c.at_ && c.at_ < memKey 3 (first + n)

/-- Shadow and active banks change places with the maps they hold. -/
def Dev.swapBanks (d : Dev) : Dev :=
  d.modInteg fun g =>
    let (bank, rest) := g.mem.partition (inBanks 0 (2 * bankHalf))
    { g with mem := bank.foldl (fun m c => memWrite m (otherHalf c.at_) c.word) rest }

/-- Words of the table banks are written anew, without the errors they held. -/
def Dev.writeBanks (d : Dev) (first n : Nat) : Dev :=
  d.modInteg fun g => { g with mem := g.mem.filter fun c => !inBanks first n c }

/-! ### Swaps (R54 to R56) -/

/-- The swap command among those that wait. -/
def isSwap : Instr → Bool
  | .mapSwap _ _ => true
  | _ => false

/-- No swap waits any more. -/
def Dev.clearSwap (d : Dev) : Dev :=
  { d with
    map := { d.map with swap := none }
    cmd := { d.cmd with deferred := d.cmd.deferred.filter (!isSwap ·), nextTick := d.cmd.nextTick.filter (!isSwap ·) } }

/-- The maps swap at the present tick: the shadow map becomes active, and event 1808 (R56). DEDUCED (log entry 10): the event is
raised at the swap, as R56's text has it; the last row of its example shows it when the marker leaves. -/
def Dev.swapMaps (d : Dev) (skipped stubs : Nat) : Dev :=
  match d.map.shadow with
  | none => d.clearSwap
  | some m =>
    let d := ((d.clearSwap.modMap fun x => { x with shadow := none }).swapBanks).activate m
    d.raise 1808 0 [evNat m.mapId, .time d.now, evNat skipped, evNat stubs]

/-- The window of an order contains a sample before the present tick and one at or after it (R54). -/
def FreezeOrder.spans (o : FreezeOrder) (now : Nat) : Bool :=
  let k0 : Int := o.fire - o.lookBack
  decide (k0 < now) && decide ((now : Int) < k0 + o.samples)

/-- The present tick, a tag-frame edge, is a boundary (R54). -/
def Dev.boundaryNow (d : Dev) : Bool :=
  d.acq.orders.all (fun o => !o.spans d.sys.ticks) && d.acq.segments.all fun s => !s.order.spans d.sys.ticks

/-- The boundary is forced: every fire whose window contains the edge becomes a missed stub, and the windows end (R55). The
second part is their number. -/
def Dev.forceBoundary (d : Dev) : Dev × Nat :=
  let now := d.sys.ticks
  let gone := (d.acq.orders ++ d.acq.segments.map (·.order)).filter (·.spans now)
  let keep := fun (o : FreezeOrder) => !o.spans now
  let d := { d with acq := { d.acq with
    orders := d.acq.orders.filter keep, segments := d.acq.segments.filter (fun s => keep s.order) } }
  let shut := fun (f : PixelFe) => { f with openSegs := f.openSegs.filter (· < now) }
  let d := { d with fe := { d.fe with pixels := d.fe.pixels.map shut } }
  ((gone.foldl (fun d o => d.makeStub o 5) d).checkBusy, gone.length)

/-- `MAP.STATUS`. -/
def mapStatusKind : CmdKind := ⟨0x0100, false, upStates⟩

/-- A map's 16 bytes in `MAP.STATUS`; where there is none, the fields behind `slot` are free. -/
def mapEntry (m : Option PisteMap) (use : Nat) : List Byte :=
  match m with
  | some x => leBytes 1 x.slot ++ leBytes 1 x.level ++ leBytes 2 x.margin ++ leBytes 8 x.mapId ++ zeros 4
  | none => leBytes 1 255 ++ leBytes 11 (Config.unstated 0 use) ++ zeros 4

/-- The 64 bytes of `MAP.STATUS` (R61, R456); the counts of a swap are free where none is queued. -/
def mapStatusData (d : Dev) : List Byte :=
  let sw := d.map.swap.getD ⟨Config.unstated 1 d.free, Config.unstated 2 d.free⟩
  mapEntry d.map.active d.free ++ mapEntry d.map.shadow d.free ++ leBytes 1 (b2n d.map.swap.isSome) ++ zeros 1 ++ leBytes 2 sw.patience
    ++ leBytes 2 sw.skipped ++ zeros 2
    ++ (d.map.margins.toList.map fun x => leBytes 2 (match x.value with | some v => toTwos 16 v | none => 0x8000)).flatten
    ++ zeros 2

/-- MAP_STATUS. -/
def execMapStatus (h : CmdHeader) (s : State) : Host.Outcome State Fault Refusal :=
  .next (hostRun (.mapStatus h) mapStatusKind h (readsFree mapStatusData) s)

/-! ### Slots (R57) -/

/-- The slot holds the image of the active map, of the shadow map or of the boot map (R57). -/
def State.mapLocked (s : State) (slot : Nat) : Bool :=
  [s.dev.map.active, s.dev.map.shadow].any (fun m => m.any (·.slot == slot))
    || bootMapOf s.flash == slot || s.recordAhead.bootMap == slot

/-- A waiting command holds a slot (R421). -/
def Dev.mapHeld (d : Dev) (slot : Nat) : Bool := d.flashHeld (mapBase slot) mapSize

/-- `MAP.ERASE_SLOT`. -/
def mapEraseSlotKind : CmdKind := ⟨0x0101, false, flashStates⟩

/-- Erase a slot that is not locked; answered on completion. -/
def mapEraseSlotEff (slot : Nat) : Effect := fun c s =>
  if 3 < slot then (s, .done .outOfRange [])
  else if s.mapLocked slot then (s, .done .locked [])
  else if s.dev.mapHeld slot then (s, .done .wrongState [])
  else (s.hostJob ⟨c, (sectorsOf (mapBase slot) mapSize).map .erase, .answer⟩, .wait)

/-- MAP_ERASE_SLOT. -/
def execMapEraseSlot (h : CmdHeader) (slot : Nat) (s : State) : Host.Outcome State Fault Refusal :=
  .next (hostRun (.mapEraseSlot h slot) mapEraseSlotKind h (mapEraseSlotEff slot) s)

/-- `MAP.WRITE`. -/
def mapWriteKind : CmdKind := ⟨0x0102, false, flashStates⟩

/-- Program bytes of a slot: the checks of R545 in their order; answered on completion. -/
def mapWriteEff (slot offset : Nat) (data : List Byte) : Effect := fun c s =>
  let a := mapBase slot + offset
  if 3 < slot || data.length < 1 || 1016 < data.length || mapSize < offset + data.length then (s, .done .outOfRange [])
  else if s.mapLocked slot then (s, .done .locked [])
  else if s.dev.mapHeld slot then (s, .done .wrongState [])
  else if !isBlank s.flash a data.length then (s, .done .notErased [])
  else (s.hostJob ⟨c, programSteps a data, .answer⟩, .wait)

/-- MAP_WRITE. -/
def execMapWrite (h : CmdHeader) (slot offset : Nat) (data : List Byte) (s : State) : Host.Outcome State Fault Refusal :=
  .next (hostRun (.mapWrite h slot offset data) mapWriteKind h (mapWriteEff slot offset data) s)

/-! ### Verifying and loading (R49 to R51) -/

/-- The schema minor that the control firmware that runs supports (R33, check 0x0005). -/
def Dev.schemaMinor (d : Dev) : Nat := d.fw.running.elim 0 (·.2.2)

/-- The checks of R49 on a slot under the running firmware. -/
def State.checkSlot (s : State) (slot : Nat) : Except MapFail PisteMap := checkMap s.flash slot s.dev.schemaMinor

/-- The 16 bytes of a verified map (R456). -/
def verifiedData (f : List Host.Cell) (m : PisteMap) : List Byte :=
  leBytes 8 m.mapId ++ leBytes 1 m.level ++ zeros 1 ++ leBytes 2 m.margin
    ++ leBytes 1 (fieldAt (flashBytes f (mapBase m.slot) 256) 21 1) ++ zeros 3

/-- A command that checks a slot first: the failure of R50, or what follows from the map. -/
def checkedEff (slot : Nat) (ok : Ctx → PisteMap → State → State × CmdResult) : Effect := fun c s =>
  if 3 < slot then (s, .done .outOfRange [])
  else if s.dev.mapHeld slot then (s, .done .wrongState [])
  else
    match s.checkSlot slot with
    | .error e => (s, .done e.status e.bytes)
    | .ok m => ok c m s

/-- `MAP.VERIFY`. -/
def mapVerifyKind : CmdKind := ⟨0x0103, false, workStates⟩

/-- Every check, and no change (R51). -/
def mapVerifyEff (slot : Nat) : Effect := checkedEff slot fun _ m s => (s, .done .ok (verifiedData s.flash m))

/-- MAP_VERIFY. -/
def execMapVerify (h : CmdHeader) (slot : Nat) (s : State) : Host.Outcome State Fault Refusal :=
  .next (hostRun (.mapVerify h slot) mapVerifyKind h (mapVerifyEff slot) s)

/-- `MAP.LOAD`. -/
def mapLoadKind : CmdKind := ⟨0x0104, false, workStates⟩

/-- The shadow banks take a map whose every check has passed; a load that fails leaves no valid shadow map (R51). While a
swap is queued, or the banks still hold the map in front of the swap marker, nothing is loaded (R56, R58). DESIGN CHOICE (log
entry 11): a load refused for a slot above 3 names no map and leaves the shadow map valid. -/
def mapLoadEff (slot : Nat) : Effect := fun c s =>
  if s.dev.map.swap.isSome || s.dev.map.old.isSome then (s, .done .wrongState [])
  else
    let (s', r) := checkedEff slot (fun _ m s =>
      (s.onDev fun d => (d.writeBanks bankHalf bankHalf).modMap fun x => { x with shadow := some m },
        .done .ok (verifiedData s.flash m))) c s
    match r with
    | .done .ok _ => (s', r)
    | .done .wrongState _ => (s, r)
    | _ => if 3 < slot then (s, r) else (s.onDev (·.modMap fun x => { x with shadow := none }), r)

/-- MAP_LOAD. -/
def execMapLoad (h : CmdHeader) (slot : Nat) (s : State) : Host.Outcome State Fault Refusal :=
  .next (hostRun (.mapLoad h slot) mapLoadKind h (mapLoadEff slot) s)

/-- `MAP.SET_BOOT`. -/
def mapSetBootKind : CmdKind := ⟨0x0107, false, workStates⟩

/-- The slot is verified and the boot-map field written; answered on completion (R53, R550). -/
def mapSetBootEff (slot : Nat) : Effect := checkedEff slot fun c _ s => (s.ownWrite (.boot (.setBoot slot) (some c)), .wait)

/-- MAP_SET_BOOT. -/
def execMapSetBoot (h : CmdHeader) (slot : Nat) (s : State) : Host.Outcome State Fault Refusal :=
  .next (hostRun (.mapSetBoot h slot) mapSetBootKind h (mapSetBootEff slot) s)

/-! ### Swapping (R55 to R58) -/

/-- `MAP.SWAP`. -/
def mapSwapKind : CmdKind := ⟨0x0105, true, [.standby, .ready, .running]⟩

/-- The shadow map can take the place of the active one: it has the same `frame_phase` (R242). -/
def Dev.samePhase (d : Dev) : Bool :=
  d.map.active.isNone || mapNum d.map.shadow 0x38 0 28 4 0 == mapNum d.map.active 0x38 0 28 4 0

/-- Queue the swap: at the next tick in Standby and Ready, else in the deferred queue (R54 to R56, R58). -/
def mapSwapEff (i : Instr) (patience : Nat) : Effect := onDev fun _ _ d =>
  if d.map.swap.isSome || d.map.shadow.isNone || !d.samePhase then (d, .done .wrongState [])
  else
    let (d', r) := atBoundary i d
    if r == .done .busy [] then (d', r) else (d'.modMap fun x => { x with swap := some ⟨patience, 0⟩ }, r)

/-- MAP_SWAP. -/
def execMapSwap (h : CmdHeader) (patience : Nat) (s : State) : Host.Outcome State Fault Refusal :=
  .next (hostRun (.mapSwap h patience) mapSwapKind h (mapSwapEff (.mapSwap h patience) patience) s)

/-- `MAP.CANCEL_SWAP`. -/
def mapCancelSwapKind : CmdKind := ⟨0x0106, false, [.ready, .running]⟩

/-- A queued swap is withdrawn, with event 1809 (R56, R58). -/
def mapCancelSwapEff : Effect := onDev fun _ _ d =>
  if d.map.swap.isNone then (d, .done .wrongState [])
  else (d.clearSwap.raise 1809 0 [evNat (d.map.shadow.elim 0 (·.mapId))], .done .ok [])

/-- MAP_CANCEL_SWAP. -/
def execMapCancelSwap (h : CmdHeader) (s : State) : Host.Outcome State Fault Refusal :=
  .next (hostRun (.mapCancelSwap h) mapCancelSwapKind h mapCancelSwapEff s)

/-- The swap marker has left the last station (R25, R56): no station holds an item ahead of it, no port works with an old
wheel, and STORE, where it runs, has taken every record ahead of it. -/
def Dev.markerPassed (d : Dev) : Bool :=
  !d.markerInCmp && !d.markerInFramer && d.acq.orders.all (fun o => !o.oldMap) && d.acq.segments.all (fun x => !x.order.oldMap)
    && d.acq.stubs.all (fun x => !x.order.oldMap) && d.mrg.waiting.all (fun w => !w.old) && d.wheelsSettled
    && (!d.storeOnline || d.mrg.up.toList.all fun t => t.items.all fun i => i.recs.all fun q => !q.old || q.taken)

/-- SWAP_MARKER_DONE: the old map's banks are released and become the empty shadow (R56). -/
def execSwapMarkerDone (s : State) : Host.Outcome State Fault Refusal :=
  .next (s.onDev fun d => if d.markerPassed then d.modMap fun x => { x with old := none } else d)

/-! ### Damaged sections (R59) -/

/-- A section of the active map as its slot holds it: its CRC and the image digest are good. -/
def State.sectionGood (s : State) (m : PisteMap) (typ inst : Nat) : Bool :=
  let x := imageOf s.flash m.slot
  (x.dirs.find? fun e => e.typ == typ && e.inst == inst).any fun e =>
    crc32c (x.part e).bytes == e.crc && mapDigest x == sliceBytes x.head 128 32

/-- SECTION_RELOAD: a read of an active table bank has found an uncorrectable error in a section that stands from an address
of the active banks on. The section is checked in the map's slot, and its bank rewritten at the next boundary; where a check
fails the module enters Fault-hold (R59). -/
def execSectionReload (typ inst address : Nat) (s : State) : Host.Outcome State Fault Refusal :=
  .next (match s.dev.map.active with
    | none => s
    | some m =>
      if (m.sect? typ inst).isNone then s
      else if s.sectionGood m typ inst then
        s.onDev (·.modMap fun x => { x with reloads := x.reloads ++ [(typ, inst, address)] })
      else s.onDev (·.faultHold 0x0034))

/-- The sections that wait are rewritten at a boundary, with event 1812 (R59). -/
def Dev.rewriteSections (d : Dev) : Dev :=
  let due := d.map.reloads
  due.foldl (fun d (typ, inst, address) =>
    let n := ((d.map.active.bind (·.sect? typ inst)).map (·.length)).getD 0
    (d.writeBanks address n).raise 1812 0 [evNat typ, evNat inst]) (d.modMap fun x => { x with reloads := [] })

/-! ### Boot (R53, R571, R572) -/

/-- The data of R50 as items of event 1813. -/
def MapFail.items (x : MapFail) : List EvItem :=
  [evNat x.check, evNat x.dir, evNat x.inst, evNat x.typ, evNat x.offset, evNat (x.entry.getD 0xFFFFFFFF)]

/-- The boot map's checks have ended: it becomes active and the module enters Ready, or it stays in Standby without a map
(R53, R567). -/
def State.bootMap (s : State) (slot : Nat) : State :=
  match s.checkSlot slot with
  | .error e => s.onDev fun d => (d.raise 1813 0 e.items).startReport slot e.check
  | .ok m => s.onDev fun d =>
    let d := (d.activate m).startReport slot 0
    if d.time.locked then d.enterReady 0x0011 else d

/-- BOOT_MAP_LOAD: the boot map of the boot-selector record in force is loaded into the active banks, with every check of
R49. -/
def execBootMapLoad (s : State) : Host.Outcome State Fault Refusal :=
  .next (if s.dev.sys.imagesStarted && !s.dev.sys.bootMapDone && s.dev.sys.state == .standby && bootMapOf s.flash ≤ 3 then
      s.bootMap (bootMapOf s.flash)
    else s)

/-! ### Keys (R47, R48) -/

/-- `MAP.KEY_ADD`. -/
def mapKeyAddKind : CmdKind := ⟨0x0108, false, [.standby]⟩

/-- Add a key to a ring of at most 8; a key it holds already is only answered. Answered on completion. -/
def mapKeyAddEff (key : List Byte) : Effect := fun c s =>
  let r := s.ringAhead
  if r.locked then (s, .done .locked [])
  else if r.keys.contains key then (s, .done .ok (leBytes 8 (keyIdOf key)))
  else if 8 ≤ r.keys.length then (s, .done .outOfRange [])
  else (s.ownWrite (.keys (.add key) (some c)), .wait)

/-- MAP_KEY_ADD. -/
def execMapKeyAdd (h : CmdHeader) (key : List Byte) (s : State) : Host.Outcome State Fault Refusal :=
  .next (hostRun (.mapKeyAdd h key) mapKeyAddKind h (mapKeyAddEff key) s)

/-- `MAP.KEY_REMOVE`. -/
def mapKeyRemoveKind : CmdKind := ⟨0x0109, false, [.standby]⟩

/-- Remove a key; answered on completion. -/
def mapKeyRemoveEff (keyId : Nat) : Effect := fun c s =>
  let r := s.ringAhead
  if r.locked then (s, .done .locked [])
  else if !r.keys.any (fun k => keyIdOf k == keyId) then (s, .done .outOfRange [])
  else (s.ownWrite (.keys (.remove keyId) (some c)), .wait)

/-- MAP_KEY_REMOVE. -/
def execMapKeyRemove (h : CmdHeader) (keyId : Nat) (s : State) : Host.Outcome State Fault Refusal :=
  .next (hostRun (.mapKeyRemove h keyId) mapKeyRemoveKind h (mapKeyRemoveEff keyId) s)

/-- `MAP.KEY_LOCK`. -/
def mapKeyLockKind : CmdKind := ⟨0x010A, false, [.standby]⟩

/-- Lock the ring; answered on completion. -/
def mapKeyLockEff : Effect := fun c s =>
  if s.ringAhead.locked then (s, .done .locked []) else (s.ownWrite (.keys .lock (some c)), .wait)

/-- MAP_KEY_LOCK. -/
def execMapKeyLock (h : CmdHeader) (s : State) : Host.Outcome State Fault Refusal :=
  .next (hostRun (.mapKeyLock h) mapKeyLockKind h mapKeyLockEff s)

/-- `MAP.KEY_UNLOCK`. -/
def mapKeyUnlockKind : CmdKind := ⟨0x010B, false, [.lodge]⟩

/-- Every sector of the four slots, then the ring and the lock (R48); answered on completion. -/
def mapKeyUnlockEff : Effect := fun c s =>
  (s.hostJob ⟨c, (sectorsOf (mapBase 0) (4 * mapSize)).map .erase, .unlock⟩, .wait)

/-- MAP_KEY_UNLOCK. -/
def execMapKeyUnlock (h : CmdHeader) (s : State) : Host.Outcome State Fault Refusal :=
  .next (hostRun (.mapKeyUnlock h) mapKeyUnlockKind h mapKeyUnlockEff s)

end Sys2Proof.Machine
end

