-- ==== Sys2Proof/Machine/Boundary.lean ====
section
/-! DEFINITION. Boundaries: the actions that wait for one, and what a tag-frame edge does (R54, R55, R233, R234, R432). -/

namespace Sys2Proof.Machine

/-! ### Waiting actions (R432) -/

/-- What a waiting action does when it applies; a swap and a mode of MON have their own moments. -/
def applyDeferred (i : Instr) (d : Dev) : Dev :=
  match i with
  | .feSetThreshold _ f l step st sg sh t g ht hg => d.setThresholds ⟨f, l⟩ (thresholdChange step st sg sh t g ht hg)
  | .feSetBias _ f l v => d.setBiases ⟨f, l⟩ v
  | .feSetTrim _ f l v => d.setTrims ⟨f, l⟩ v
  | .feGate _ f l a n => d.gateTiles ⟨f, l⟩ a n
  | .timeSwitchSource _ x => d.askedSwitch x
  | .wfcSetMode _ f l m => d.setConverterMode ⟨f, l⟩ m
  | .tdcSetOffset _ f l o => d.setOffset ⟨f, l⟩ o
  | .acqTagControl _ f l w v => d.tagControl ⟨f, l⟩ w v
  | .acqSetAverage _ f l a => d.setAverage ⟨f, l⟩ a
  | .cmpSetParams _ f l n a b c e k => d.setParams ⟨f, l⟩ (commandParams n a b c e k)
  | .mrgSetClose _ t m => d.setClose t m
  | _ => d

/-- An action that waits for a boundary: all but a mode of MON, which waits for the end of a loop pass, and the swap, which
follows them (R120, R432). -/
def waitsForBoundary : Instr → Bool
  | .monSetMode _ _ => false
  | .mapSwap _ _ => false
  | _ => true

/-- An action that waits for a tag-frame edge alone (R246). -/
def isTagControl : Instr → Bool
  | .acqTagControl _ _ _ _ _ => true
  | _ => false

/-- The waiting actions of a kind apply in order of acceptance and leave the queue (R432). -/
def Dev.applyWaiting (d : Dev) (due : Instr → Bool) : Dev :=
  (d.cmd.deferred.filter due).foldl (fun d i => applyDeferred i d)
    { d with cmd := { d.cmd with deferred := d.cmd.deferred.filter (!due ·) } }

/-- The actions of the next tick apply. -/
def Dev.applyNextTick (d : Dev) : Dev :=
  (d.cmd.nextTick.filter waitsForBoundary).foldl (fun d i => applyDeferred i d)
    { d with cmd := { d.cmd with nextTick := d.cmd.nextTick.filter (!waitsForBoundary ·) } }

/-- An action whose values a map that becomes active at the same boundary replaces (R264). -/
def isOvertaken : Instr → Bool
  | .cmpSetParams _ _ _ _ _ _ _ _ _ => true
  | .acqSetAverage _ _ _ _ => true
  | .mrgSetClose _ _ _ => true
  | _ => false

/-- The values of waiting actions are discarded where a map becomes active at the boundary at which they fall due: what was formed
before it keeps the values in force before (R25, R264). -/
def Dev.dropOvertaken (d : Dev) : Dev :=
  { d with cmd := { d.cmd with
    deferred := d.cmd.deferred.filter (!isOvertaken ·), nextTick := d.cmd.nextTick.filter (!isOvertaken ·) } }

/-! ### Boundaries (R54, R55) -/

/-- At a boundary the waiting actions apply, damaged sections are rewritten, and a queued swap follows (R54, R59, R432). -/
def Dev.atBoundaryNow (d : Dev) (stubs : Nat) : Dev :=
  let d := if d.map.swap.isSome then d.dropOvertaken else d
  let d := (d.applyWaiting waitsForBoundary).rewriteSections
  match d.map.swap with
  | some sw => d.swapMaps sw.skipped stubs
  | none => d

/-- The edge is a boundary, is skipped by a queued swap, or is forced by it (R55). -/
def Dev.testEdge (d : Dev) : Dev :=
  if d.boundaryNow then d.atBoundaryNow 0
  else
    match d.map.swap with
    | none => d
    | some sw =>
      if sw.skipped < sw.patience then d.modMap fun x => { x with swap := some { sw with skipped := sw.skipped + 1 } }
      else
        let (d, n) := d.forceBoundary
        d.atBoundaryNow n

/-- In Standby and Ready no candidate is accepted and no tag is framed (R54). -/
def Dev.everyTick (d : Dev) : Bool := d.sys.state == .ready || d.sys.state == .standby

/-- What a tick does for waiting actions: those accepted in Standby and Ready apply, and while the module is in these states
every tick is a boundary (R54). -/
def Dev.tickBoundary (d : Dev) : Dev :=
  if d.everyTick then
    let d := if d.map.swap.isSome then d.dropOvertaken else d
    let d := ((d.applyWaiting waitsForBoundary).applyNextTick).rewriteSections
    match d.map.swap with
    | some sw => d.swapMaps sw.skipped 0
    | none => d
  else
    let swap := d.cmd.nextTick.any isSwap
    let d := d.applyNextTick
    if swap then d.swapMaps 0 0 else d

/-- What falls at a tag-frame edge: framing follows the state, actions and maps take their turn, the pairs are judged, trims
take effect, and frames open (R168, R233, R234, R514). -/
def Dev.frameEdge (d : Dev) (slots : List SlotCodes) (upsets : List Upset) : Dev :=
  let runs : Bool := d.sys.state == .running
  let d := { d with acq := { d.acq with edgeAt := some d.sys.ticks, framing := runs } }
  let d := if d.everyTick then d else (d.applyWaiting isTagControl).testEdge
  let d := d.judgePairs slots
  let d := d.applyTrims d.inOpenSegment
  let d := if d.acq.framing && d.acq.tagEnable then
      let (d, hurt) := d.readUpsets 6 upsets
      (d.openFrames hurt).enterEarlyTags
    else { d with acq := { d.acq with earlyTags := [] } }
  d.settleGo

/-- TAG_FRAME_EDGE: it falls at every tick of R233 once the time word counts. A damaged table word that the tag framer reads poisons
the records of the frames it opens (R59). The log has no reader code for the tag framer: 6 stands for it (DESIGN CHOICE, log entry
61). -/
def execTagFrameEdge (slots : FrameSlots) (s : State) : Host.Outcome State Fault Refusal :=
  .next (s.onDev fun d =>
    if d.sys.imagesStarted && d.sys.state != .off && d.atFrameEdge && d.acq.edgeAt != some d.sys.ticks then
      d.frameEdge slots.slots slots.upsets
    else d)

end Sys2Proof.Machine
end

