-- ==== Sys2Proof/WellFormed.lean ====
section
/-! DEFINITION. Well-formed commands: every number fits in the field that carries it (R14, R446). -/

namespace Sys2Proof

/-- A time word fits in the fields of TW80 as read (R9). -/
def TimeWord.wf (t : TimeWord) : Bool := fits 40 t.seconds && fits 32 t.tick && fits 8 t.fine

/-- The fields of a packet header fit in their widths (R414). -/
def CmdHeader.wf (h : CmdHeader) : Bool :=
  fits 8 h.requester && fits 16 h.tag && h.executeAt.wf &&
    (match h.path with | .service => true | .uplink p => p < 8)

/-- Every operand fits in its encoding. -/
def Instr.wf : Instr → Bool
  | .sysIdentify h => h.wf
  | .sysState h => h.wf
  | .sysGo h target => h.wf && fits 8 target
  | .sysReset h kind => h.wf && fits 8 kind
  | .sysTriadStatus h => h.wf
  | .sysTriadRepair h member => h.wf && fits 8 member
  | .sysUplinkStatus h => h.wf
  | .sysUplinkReturn h port => h.wf && fits 8 port
  | .sysTimedList h start => h.wf && fits 16 start
  | .sysTimedCancel h requester tag => h.wf && fits 8 requester && fits 16 tag
  | .sysPing h _ => h.wf
  | .mapStatus h => h.wf
  | .mapEraseSlot h slot => h.wf && fits 8 slot
  | .mapWrite h slot offset _ => h.wf && fits 8 slot && fits 32 offset
  | .mapVerify h slot => h.wf && fits 8 slot
  | .mapLoad h slot => h.wf && fits 8 slot
  | .mapSwap h patience => h.wf && fits 16 patience
  | .mapCancelSwap h => h.wf
  | .mapSetBoot h slot => h.wf && fits 8 slot
  | .mapKeyAdd h _ => h.wf
  | .mapKeyRemove h keyId => h.wf && fits 64 keyId
  | .mapKeyLock h => h.wf
  | .mapKeyUnlock h => h.wf
  | .feStatus h start => h.wf && fits 16 start
  | .feSetGain h first last gain _ => h.wf && fits 16 first && fits 16 last && fits 8 gain
  | .feSetThreshold h first last gainStep _ _ _ thrTiming thrTrigger hystTiming hystTrigger => h.wf && fits 16 first && fits 16 last && fits 8 gainStep && fits 10 thrTiming && fits 10 thrTrigger && fits 4 hystTiming && fits 4 hystTrigger
  | .feSetBias h firstTile lastTile vSet => h.wf && fits 8 firstTile && fits 8 lastTile && fits 16 vSet
  | .feSetTrim h first last trim => h.wf && fits 16 first && fits 16 last && fits 8 trim
  | .feGate h firstTile lastTile action pulseLen => h.wf && fits 8 firstTile && fits 8 lastTile && fits 8 action && fits 32 pulseLen
  | .feOpenCheck h firstTile lastTile => h.wf && fits 8 firstTile && fits 8 lastTile
  | .wfcStatus h start => h.wf && fits 16 start
  | .wfcSetMode h first last mode => h.wf && fits 16 first && fits 16 last && fits 1 mode
  | .wfcCalControl h first last run => h.wf && fits 16 first && fits 16 last && fits 1 run
  | .wfcReadCal h pixel => h.wf && fits 16 pixel
  | .monStatus h => h.wf
  | .monRead h first last => h.wf && fits 16 first && fits 16 last
  | .monSetMode h mode => h.wf && fits 8 mode
  | .timeStatus h => h.wf
  | .timeSwitchSource h source => h.wf && fits 8 source
  | .timeSetSeconds h seconds => h.wf && fits 40 seconds
  | .timeAlign h => h.wf
  | .timeClearFail h source => h.wf && fits 8 source
  | .timeSetSpread h sliceDepth switchDepth sliceRate switchRate => h.wf && fits 8 sliceDepth && fits 8 switchDepth && fits 8 sliceRate && fits 8 switchRate
  | .tdcStatus h start => h.wf && fits 16 start
  | .tdcReadCal h pixel => h.wf && fits 16 pixel
  | .tdcSetOffset h first last tOffset => h.wf && fits 16 first && fits 16 last && fits 16 tOffset
  | .slalomStatus h => h.wf
  | .slalomArm h mask => h.wf && fits 16 mask
  | .slalomDisarm h mask => h.wf && fits 16 mask
  | .slalomFire h course => h.wf && fits 8 course
  | .slalomCounters h _ => h.wf
  | .acqStatus h => h.wf
  | .acqCounters h _ => h.wf
  | .acqTagControl h first last what value => h.wf && fits 16 first && fits 16 last && fits 8 what && fits 1 value
  | .acqSetAverage h first last avg => h.wf && fits 16 first && fits 16 last && fits 4 avg
  | .acqSetWater h descLow descHigh memLow memHigh => h.wf && fits 16 descLow && fits 16 descHigh && fits 16 memLow && fits 16 memHigh
  | .cmpStatus h => h.wf
  | .cmpCounters h _ => h.wf
  | .cmpFlush h scope => h.wf && fits 8 scope
  | .cmpSetParams h first last distance a b c _ k => h.wf && fits 16 first && fits 16 last && fits 16 distance && fits 8 a && fits 8 b && fits 8 c && k.all (fits 8)
  | .mrgStatus h start => h.wf && fits 16 start
  | .mrgCounters h _ => h.wf
  | .mrgSetClose h closeTime lateMode => h.wf && fits 32 closeTime && fits 8 lateMode
  | .mrgResumeStream h port vc address => h.wf && fits 8 port && fits 8 vc && fits 16 address
  | .mrgCloseAll h => h.wf
  | .laneStatus h port => h.wf && fits 8 port
  | .laneCounters h lane _ => h.wf && fits 8 lane
  | .laneRetrain h port => h.wf && fits 8 port
  | .laneClimb h port => h.wf && fits 8 port
  | .laneSleep h port wakeKey => h.wf && fits 8 port && fits 48 wakeKey
  | .laneWake h port direction => h.wf && fits 8 port && fits 8 direction
  | .lanePrbs h port stage pattern _ _ _ duration => h.wf && fits 8 port && fits 3 stage && fits 8 pattern && fits 32 duration
  | .laneSetTx h lane swing pre post => h.wf && fits 8 lane && fits 8 swing && fits 8 pre && fits 8 post
  | .laneLinkStatus h target _ => h.wf && fits 8 target
  | .storeStatus h => h.wf
  | .storeCounters h _ => h.wf
  | .storeFormat h extentCount => h.wf && fits 32 extentCount
  | .storeCheckpoint h => h.wf
  | .storeFind h moment => h.wf && moment.wf
  | .storeReplay h first last => h.wf && fits 64 first && fits 64 last
  | .storeReplayStop h => h.wf
  | .integStatus h => h.wf
  | .integLogRead h => h.wf
  | .integLogClear h _ => h.wf
  | .integRemapRead h => h.wf
  | .integGroom h walk action rate => h.wf && fits 8 walk && fits 8 action && fits 32 rate
  | .integInject h target subject mode bitA bitB address tile => h.wf && fits 8 target && fits 8 subject && fits 8 mode && fits 4 bitA && fits 4 bitB && fits 32 address && fits 8 tile
  | .evtStatus h => h.wf
  | .evtMask h first last set => h.wf && fits 16 first && fits 16 last && fits 8 set
  | .evtAck h source => h.wf && fits 16 source
  | .evtCounters h _ => h.wf
  | .evtSetDelivery h _ _ period => h.wf && fits 16 period
  | .pwrStatus h => h.wf
  | .pwrSetLevel h level => h.wf && fits 8 level
  | .pwrSetLimit h limit => h.wf && fits 16 limit
  | .calStatus h => h.wf
  | .calRun h firstTile lastTile => h.wf && fits 8 firstTile && fits 8 lastTile
  | .calRead h pixel => h.wf && fits 16 pixel
  | .bistRun h cls firstSlice lastSlice => h.wf && fits 8 cls && fits 16 firstSlice && fits 16 lastSlice
  | .bistStatus h => h.wf
  | .bistFuse h => h.wf
  | .hmonRead h unit => h.wf && fits 8 unit
  | .hmonClear h mask => h.wf && fits 32 mask
  | .fwStatus h => h.wf
  | .fwErase h image fwSlot => h.wf && fits 8 image && fits 8 fwSlot
  | .fwWrite h image fwSlot offset _ => h.wf && fits 8 image && fits 8 fwSlot && fits 32 offset
  | .fwVerify h image fwSlot => h.wf && fits 8 image && fits 8 fwSlot
  | .fwActivate h ctrlSlot laneSlot => h.wf && fits 8 ctrlSlot && fits 8 laneSlot
  | .fwConfirm h => h.wf
  | .flashRead h offset length => h.wf && fits 32 offset && fits 16 length
  | .flashErase h sector => h.wf && fits 16 sector
  | .flashWrite h offset _ => h.wf && fits 32 offset
  | .serviceWrite _ _ => true
  | .serviceRead _ => true
  | .serviceStatus _ => true
  | .lodge _ => true
  | .timedCommandDue => true
  | .nmiRepeat source => fits 16 source
  | .powerOn => true
  | .imagesStarted => true
  | .bootMapLoad => true
  | .powerFailWarning vin power => fits 32 vin && fits 32 power
  | .powerFailWarningCleared => true
  | .underVoltageLockOut => true
  | .overVoltageShutdown => true
  | .overVoltageRestart => true
  | .operatingRangeLeft vin => fits 32 vin
  | .railFault rail voltage => fits 3 rail && fits 32 voltage
  | .railRestart => true
  | .lidOverheatHold => true
  | .biasCurrentLimitOff tile => fits 6 tile
  | .biasOutOfTolerance tile measured => fits 6 tile && fits 32 measured
  | .biasRampDone tile => fits 6 tile
  | .powerWindowEnd _ => true
  | .snowploughCauseEnd => true
  | .vcoreSettled => true
  | .drainDone => true
  | .drainLimit => true
  | .fireTokenAdd => true
  | .countingWindowEnd na nb ni => fits 40 na && fits 40 nb && fits 40 ni
  | .sourceAbsent source => fits 2 source
  | .sourcePresent source => fits 2 source
  | .loopUnlock => true
  | .slewDone => true
  | .autoReturn => true
  | .ppsEdge fine => fits 7 fine
  | .ppsAbsent => true
  | .secondBoundary => true
  | .intCorrectionSave => true
  | .timeRequestSend => true
  | .timeRequest lane received since => fits 2 lane && fits 64 received && fits 32 since
  | .timeResponse lane received since => fits 2 lane && fits 64 received && fits 32 since
  | .timeExchangeTimeout lane => fits 2 lane
  | .timingEdge pixel _ raw _ hitsTaken tagsTaken _ => fits 10 pixel && fits 9 raw && fits 16 hitsTaken && fits 16 tagsTaken
  | .hitWordTimeout pixel hitsTaken tagsTaken _ => fits 10 pixel && fits 16 hitsTaken && fits 16 tagsTaken
  | .calSlotStart => true
  | .triggerEdge _ => true
  | .xtEdge xt _ => fits 2 xt
  | .pixelStretchEnd pixel => fits 10 pixel
  | .gateTimeout course => fits 4 course
  | .fireMessage lane received => fits 2 lane && fits 64 received
  | .armMessage lane received => fits 2 lane && fits 64 received
  | .disarmMessage lane received => fits 2 lane && fits 64 received
  | .armApply => true
  | .busyMessage lane received => fits 2 lane && fits 64 received
  | .busyRepeat => true
  | .busyExpire => true
  | .keyExpire => true
  | .schussIdleMessage lane received => fits 2 lane && fits 64 received
  | .schussDelineationLost lane => fits 2 lane
  | .schussSlot lane _ => fits 2 lane
  | .segmentBuildStart _ _ _ => true
  | .hitListClose => true
  | .tagFrameEdge _ => true
  | .tagFrameClose => true
  | .swapMarkerDone => true
  | .sectionReload typ inst address => fits 16 typ && fits 8 inst && fits 23 address
  | .cmpSegment blocks _ _ _ => blocks.all (fits 8)
  | .chainBufferFreed => true
  | .parcelReceived port chair _ _ => fits 3 port && fits 12 chair
  | .eventDeadline => true
  | .passReturnDelay => true
  | .chairTransmit port chair _ => fits 3 port && fits 12 chair
  | .alignmentBlockSend port => fits 3 port
  | .replayTimeout port => fits 3 port
  | .windowStall port => fits 3 port
  | .wheelSwitchTimeout port => fits 3 port
  | .copyLagTimeout => true
  | .memberLeftBehind port => fits 3 port
  | .alignmentBlockReceived port _ _ => fits 3 port
  | .relockTimeout port => fits 3 port
  | .kMarkerLock port => fits 3 port
  | .kLockLost port => fits 3 port
  | .laneControlSend port => fits 3 port
  | .laneControlMessage port _ => fits 3 port
  | .trainDone training => fits 3 training.port
  | .checkDone port _ => fits 3 port
  | .alignTimeout port => fits 3 port
  | .decideTimeout port => fits 3 port
  | .retryDelayEnd port => fits 3 port
  | .upAReentryDelay => true
  | .sleepAckTimeout port => fits 3 port
  | .wakeWindowOpen port => fits 3 port
  | .wakeWindowEnd port => fits 3 port
  | .wakeKeyDue port => fits 3 port
  | .wakeBurst port => fits 3 port
  | .wakeFailed port => fits 3 port
  | .prbsTestEnd port _ => fits 3 port
  | .drivePresencePoll drive _ => fits 1 drive
  | .srstRelease drive => fits 1 drive
  | .pcieLinkUp drive generation width => fits 1 drive && fits 8 generation && fits 8 width
  | .pcieLinkTimeout drive => fits 1 drive
  | .controllerReady drive identity => fits 1 drive && fits 64 identity.size
  | .nvmeCompletion drive id status _ _ => fits 1 drive && fits 32 id && fits 16 status
  | .nvmeTimeout drive => fits 1 drive
  | .checkpointPeriod => true
  | .groomerLine walk _ => fits 1 walk
  | .remapLine => true
  | .bistSlice cls _ _ _ _ => fits 2 cls
  | .dwellEnd pixel _ _ _ _ _ _ _ _ => fits 10 pixel
  | .monSettleEnd => true
  | .monResult code => fits 20 code
  | .excitationWindowEnd => true
  | .monAfterEnd => true
  | .marginPeriod _ => true
  | .openCheckDue tile => fits 6 tile
  | .openCheckCompare tile above => fits 6 tile && fits 16 above
  | .openCheckEnd tile => fits 6 tile
  | .gatePeriodEdge tile => fits 6 tile
  | .gatedFlagEnd tile => fits 6 tile
  | .gainScheduleDue => true
  | .gainChangeApply pixel => fits 10 pixel
  | .gainDeferTimeout pixel => fits 10 pixel
  | .rangeTransitionEnd pixel _ _ => fits 10 pixel
  | .calRunStart => true
  | .calRepeatEnd tile _ => fits 6 tile
  | .voterRequest member kind target _ _ => fits 2 member && fits 2 kind && fits 32 target
  | .disagreeTimeout member => fits 2 member
  | .heartbeatLost => true
  | .herringbonePass dirty _ => fits 14 dirty
  | .trialTimeLimit => true
  | .flashOperationDone _ => true
  | .gatePulseEnd tile => fits 6 tile
  | .acknowledgementWaiting port => fits 3 port
  | .calibrationPeriod tile => fits 6 tile
  | .clampConducts pixel _ => fits 10 pixel
  | .partnerFireWindowEnd => true
  | .driveRemoved drive => fits 1 drive

end Sys2Proof
end

