-- ==== Sys2Proof/Decode.lean ====
section
/-! DEFINITION. Reading commands from words and from packets. The table gives no bits to any row, so no word
spells a command; a command packet (R414) spells a host command by its opcode and parameter bytes (R446 to R462). -/

namespace Sys2Proof

open Sys2Proof.Machine

/-- The command a table word spells: the table gives bits to no row, so none does. -/
def decodeTableWord (_nbits _w : Nat) : Option Instr := none

/-- What a packet's opcode and parameter bytes spell. -/
inductive Parsed where
  /-- the opcode is not defined (check 4 of R417) -/
  | unknown
  /-- `param_length` is not one the opcode allows (R447): the command, with its other checks still to be made -/
  | badLength (i : Instr)
  | command (i : Instr)
  deriving DecidableEq, Repr

/-- A command whose parameter length must lie between two bounds (R447). -/
def sized (p : List Byte) (lo hi : Nat) (i : Instr) : Parsed :=
  if lo ≤ p.length && p.length ≤ hi then .command i else .badLength i

/-- A bit of a parameter byte. -/
def paramBit (p : List Byte) (off i : Nat) : Bool := bit (fieldAt p off 1) i

/-- The eight Rice parameters packed from a byte on (R261). -/
def paramNibbles (p : List Byte) (off : Nat) : List Nat :=
  (List.range 8).map fun g => fieldAt p (off + g / 2) 1 / 16 ^ (g % 2) % 16

/-- The host command of an opcode and its parameter bytes (R455 to R462). -/
def parseCommand (opcode : Nat) (h : CmdHeader) (p : List Byte) : Parsed :=
  match opcode with
  | 0x0000 => sized p 0 0 (.sysIdentify h)
  | 0x0001 => sized p 0 0 (.sysState h)
  | 0x0002 => sized p 4 4 (.sysGo h (fieldAt p 0 1))
  | 0x0003 => sized p 4 4 (.sysReset h (fieldAt p 0 1))
  | 0x0004 => sized p 0 0 (.sysTriadStatus h)
  | 0x0005 => sized p 4 4 (.sysTriadRepair h (fieldAt p 0 1))
  | 0x0006 => sized p 0 0 (.sysUplinkStatus h)
  | 0x0007 => sized p 4 4 (.sysUplinkReturn h (fieldAt p 0 1))
  | 0x0008 => sized p 2 2 (.sysTimedList h (fieldAt p 0 2))
  | 0x0009 => sized p 4 4 (.sysTimedCancel h (fieldAt p 0 1) (fieldAt p 2 2))
  | 0x000A => sized p 0 1008 (.sysPing h p)
  | 0x0100 => sized p 0 0 (.mapStatus h)
  | 0x0101 => sized p 4 4 (.mapEraseSlot h (fieldAt p 0 1))
  | 0x0102 => sized p 9 1024 (.mapWrite h (fieldAt p 0 1) (fieldAt p 4 4) (p.drop 8))
  | 0x0103 => sized p 4 4 (.mapVerify h (fieldAt p 0 1))
  | 0x0104 => sized p 4 4 (.mapLoad h (fieldAt p 0 1))
  | 0x0105 => sized p 2 2 (.mapSwap h (fieldAt p 0 2))
  | 0x0106 => sized p 0 0 (.mapCancelSwap h)
  | 0x0107 => sized p 4 4 (.mapSetBoot h (fieldAt p 0 1))
  | 0x0108 => sized p 32 32 (.mapKeyAdd h p)
  | 0x0109 => sized p 8 8 (.mapKeyRemove h (fieldAt p 0 8))
  | 0x010A => sized p 0 0 (.mapKeyLock h)
  | 0x010B => sized p 0 0 (.mapKeyUnlock h)
  | 0x0200 => sized p 2 2 (.feStatus h (fieldAt p 0 2))
  | 0x0201 => sized p 8 8 (.feSetGain h (fieldAt p 0 2) (fieldAt p 2 2) (fieldAt p 4 1) (paramBit p 5 0))
  | 0x0202 => sized p 12 12 (.feSetThreshold h (fieldAt p 0 2) (fieldAt p 2 2) (fieldAt p 4 1) (paramBit p 5 0) (paramBit p 5 1) (paramBit p 5 2) (bits (fieldAt p 6 2) 9 0) (bits (fieldAt p 8 2) 9 0) (bits (fieldAt p 10 1) 3 0) (bits (fieldAt p 10 1) 7 4))
  | 0x0203 => sized p 4 4 (.feSetBias h (fieldAt p 0 1) (fieldAt p 1 1) (fieldAt p 2 2))
  | 0x0204 => sized p 6 6 (.feSetTrim h (fieldAt p 0 2) (fieldAt p 2 2) (fieldAt p 4 1))
  | 0x0205 => sized p 8 8 (.feGate h (fieldAt p 0 1) (fieldAt p 1 1) (fieldAt p 2 1) (fieldAt p 4 4))
  | 0x0206 => sized p 4 4 (.feOpenCheck h (fieldAt p 0 1) (fieldAt p 1 1))
  | 0x0300 => sized p 2 2 (.wfcStatus h (fieldAt p 0 2))
  | 0x0301 => sized p 6 6 (.wfcSetMode h (fieldAt p 0 2) (fieldAt p 2 2) (bits (fieldAt p 4 1) 0 0))
  | 0x0302 => sized p 6 6 (.wfcCalControl h (fieldAt p 0 2) (fieldAt p 2 2) (bits (fieldAt p 4 1) 0 0))
  | 0x0303 => sized p 2 2 (.wfcReadCal h (fieldAt p 0 2))
  | 0x0310 => sized p 0 0 (.monStatus h)
  | 0x0311 => sized p 4 4 (.monRead h (fieldAt p 0 2) (fieldAt p 2 2))
  | 0x0312 => sized p 1 1 (.monSetMode h (fieldAt p 0 1))
  | 0x0400 => sized p 0 0 (.timeStatus h)
  | 0x0401 => sized p 4 4 (.timeSwitchSource h (fieldAt p 0 1))
  | 0x0402 => sized p 8 8 (.timeSetSeconds h (fieldAt p 0 5))
  | 0x0403 => sized p 0 0 (.timeAlign h)
  | 0x0404 => sized p 4 4 (.timeClearFail h (fieldAt p 0 1))
  | 0x0405 => sized p 4 4 (.timeSetSpread h (fieldAt p 0 1) (fieldAt p 1 1) (fieldAt p 2 1) (fieldAt p 3 1))
  | 0x0420 => sized p 2 2 (.tdcStatus h (fieldAt p 0 2))
  | 0x0421 => sized p 2 2 (.tdcReadCal h (fieldAt p 0 2))
  | 0x0422 => sized p 6 6 (.tdcSetOffset h (fieldAt p 0 2) (fieldAt p 2 2) (fieldAt p 4 2))
  | 0x0500 => sized p 0 0 (.slalomStatus h)
  | 0x0501 => sized p 2 2 (.slalomArm h (fieldAt p 0 2))
  | 0x0502 => sized p 2 2 (.slalomDisarm h (fieldAt p 0 2))
  | 0x0503 => sized p 4 4 (.slalomFire h (fieldAt p 0 1))
  | 0x0504 => sized p 1 1 (.slalomCounters h (paramBit p 0 0))
  | 0x0600 => sized p 0 0 (.acqStatus h)
  | 0x0601 => sized p 1 1 (.acqCounters h (paramBit p 0 0))
  | 0x0602 => sized p 8 8 (.acqTagControl h (fieldAt p 0 2) (fieldAt p 2 2) (fieldAt p 4 1) (bits (fieldAt p 5 1) 0 0))
  | 0x0603 => sized p 6 6 (.acqSetAverage h (fieldAt p 0 2) (fieldAt p 2 2) (bits (fieldAt p 4 1) 3 0))
  | 0x0604 => sized p 8 8 (.acqSetWater h (fieldAt p 0 2) (fieldAt p 2 2) (fieldAt p 4 2) (fieldAt p 6 2))
  | 0x0700 => sized p 0 0 (.cmpStatus h)
  | 0x0701 => sized p 1 1 (.cmpCounters h (paramBit p 0 0))
  | 0x0702 => sized p 1 1 (.cmpFlush h (fieldAt p 0 1))
  | 0x0703 => sized p 14 14 (.cmpSetParams h (fieldAt p 0 2) (fieldAt p 2 2) (fieldAt p 4 2) (fieldAt p 6 1) (fieldAt p 7 1) (fieldAt p 8 1) (paramBit p 9 0) (paramNibbles p 10))
  | 0x0800 => sized p 2 2 (.mrgStatus h (fieldAt p 0 2))
  | 0x0801 => sized p 1 1 (.mrgCounters h (paramBit p 0 0))
  | 0x0802 => sized p 8 8 (.mrgSetClose h (fieldAt p 0 4) (fieldAt p 4 1))
  | 0x0803 => sized p 4 4 (.mrgResumeStream h (fieldAt p 0 1) (fieldAt p 1 1) (fieldAt p 2 2))
  | 0x0804 => sized p 0 0 (.mrgCloseAll h)
  | 0x0900 => sized p 1 1 (.laneStatus h (fieldAt p 0 1))
  | 0x0901 => sized p 2 2 (.laneCounters h (fieldAt p 0 1) (paramBit p 1 0))
  | 0x0902 => sized p 1 1 (.laneRetrain h (fieldAt p 0 1))
  | 0x0903 => sized p 1 1 (.laneClimb h (fieldAt p 0 1))
  | 0x0904 => sized p 8 8 (.laneSleep h (fieldAt p 0 1) (fieldAt p 2 6))
  | 0x0905 => sized p 2 2 (.laneWake h (fieldAt p 0 1) (fieldAt p 1 1))
  | 0x0906 => sized p 8 8 (.lanePrbs h (fieldAt p 0 1) (bits (fieldAt p 1 1) 2 0) (fieldAt p 2 1) (paramBit p 3 0) (paramBit p 3 1) (paramBit p 3 2) (fieldAt p 4 4))
  | 0x0907 => sized p 4 4 (.laneSetTx h (fieldAt p 0 1) (fieldAt p 1 1) (fieldAt p 2 1) (fieldAt p 3 1))
  | 0x0908 => sized p 2 2 (.laneLinkStatus h (fieldAt p 0 1) (paramBit p 1 0))
  | 0x0A00 => sized p 0 0 (.storeStatus h)
  | 0x0A01 => sized p 1 1 (.storeCounters h (paramBit p 0 0))
  | 0x0A02 => sized p 4 4 (.storeFormat h (fieldAt p 0 4))
  | 0x0A03 => sized p 0 0 (.storeCheckpoint h)
  | 0x0A04 => sized p 12 12 (.storeFind h (timeWordAt p 0))
  | 0x0A05 => sized p 16 16 (.storeReplay h (fieldAt p 0 8) (fieldAt p 8 8))
  | 0x0A06 => sized p 0 0 (.storeReplayStop h)
  | 0x0B00 => sized p 0 0 (.integStatus h)
  | 0x0B01 => sized p 0 0 (.integLogRead h)
  | 0x0B02 => sized p 1 1 (.integLogClear h (paramBit p 0 0))
  | 0x0B03 => sized p 0 0 (.integRemapRead h)
  | 0x0B04 => sized p 8 8 (.integGroom h (fieldAt p 0 1) (fieldAt p 1 1) (fieldAt p 4 4))
  | 0x0B05 => sized p 12 12 (.integInject h (fieldAt p 0 1) (fieldAt p 1 1) (fieldAt p 2 1) (bits (fieldAt p 3 1) 3 0) (bits (fieldAt p 3 1) 7 4) (fieldAt p 4 4) (fieldAt p 8 1))
  | 0x0F00 => sized p 0 0 (.evtStatus h)
  | 0x0F01 => sized p 6 6 (.evtMask h (fieldAt p 0 2) (fieldAt p 2 2) (fieldAt p 4 1))
  | 0x0F02 => sized p 2 2 (.evtAck h (fieldAt p 0 2))
  | 0x0F03 => sized p 1 1 (.evtCounters h (paramBit p 0 0))
  | 0x0F04 => sized p 4 4 (.evtSetDelivery h (paramBit p 0 0) (paramBit p 0 1) (fieldAt p 2 2))
  | 0x0C00 => sized p 0 0 (.pwrStatus h)
  | 0x0C01 => sized p 4 4 (.pwrSetLevel h (fieldAt p 0 1))
  | 0x0C02 => sized p 4 4 (.pwrSetLimit h (fieldAt p 0 2))
  | 0x0D00 => sized p 0 0 (.calStatus h)
  | 0x0D01 => sized p 2 2 (.calRun h (fieldAt p 0 1) (fieldAt p 1 1))
  | 0x0D02 => sized p 2 2 (.calRead h (fieldAt p 0 2))
  | 0x0D10 => sized p 8 8 (.bistRun h (fieldAt p 0 1) (fieldAt p 4 2) (fieldAt p 6 2))
  | 0x0D11 => sized p 0 0 (.bistStatus h)
  | 0x0D12 => sized p 0 0 (.bistFuse h)
  | 0x0D20 => sized p 1 1 (.hmonRead h (fieldAt p 0 1))
  | 0x0D21 => sized p 4 4 (.hmonClear h (fieldAt p 0 4))
  | 0x0E00 => sized p 0 0 (.fwStatus h)
  | 0x0E01 => sized p 2 2 (.fwErase h (fieldAt p 0 1) (fieldAt p 1 1))
  | 0x0E02 => sized p 9 1024 (.fwWrite h (fieldAt p 0 1) (fieldAt p 1 1) (fieldAt p 4 4) (p.drop 8))
  | 0x0E03 => sized p 2 2 (.fwVerify h (fieldAt p 0 1) (fieldAt p 1 1))
  | 0x0E04 => sized p 2 2 (.fwActivate h (fieldAt p 0 1) (fieldAt p 1 1))
  | 0x0E05 => sized p 0 0 (.fwConfirm h)
  | 0x0E06 => sized p 8 8 (.flashRead h (fieldAt p 0 4) (fieldAt p 4 2))
  | 0x0E07 => sized p 2 2 (.flashErase h (fieldAt p 0 2))
  | 0x0E08 => sized p 9 1024 (.flashWrite h (fieldAt p 0 4) (p.drop 8))
  | _ => .unknown

end Sys2Proof
end

