-- ==== Sys2Proof/Machine/Triad.lean ====
section
/-! DEFINITION. The control triad: voting, the patrol, and the herringbone (R463 to R476, R491 to R493). -/

namespace Sys2Proof.Machine

/-- Change the triad. -/
def Dev.modTriad (d : Dev) (f : TriadState → TriadState) : Dev := { d with triad := f d.triad }

/-- A member that has just started. -/
def TriadMember.fresh : TriadMember := ⟨.voting, 0, none, [], none, none, []⟩

/-- Member m. -/
def Dev.member (d : Dev) (m : Nat) : TriadMember := getD d.triad.members m TriadMember.fresh

/-- Change one member. -/
def Dev.modVoter (d : Dev) (m : Nat) (f : TriadMember → TriadMember) : Dev :=
  d.modTriad fun t => { t with members := modAt t.members m f }

/-- The voting members in order (R470). -/
def Dev.voting (d : Dev) : List Nat := (List.range 3).filter fun m => (d.member m).mode == .voting

/-- A member leaves voting: what it presented and owed goes (R465, R467). -/
def TriadMember.leave (x : TriadMember) (mode : MemberMode) : TriadMember :=
  { x with mode := mode, presented := none, owed := [] }

/-- The triad runs: its images have started in some device state but Off, and the patrol does not keep it stopped (R472, R571). -/
def Dev.triadRuns (d : Dev) : Bool := d.sys.state != .off && d.sys.imagesStarted && !d.triad.stopped

/-- An input is delivered to all members alike; a fenced one takes none (R463, R467). -/
def Dev.deliverInput (d : Dev) (i : MemberInput) : Dev :=
  if d.triadRuns then
    d.modTriad fun t => { t with members := t.members.map fun x => if x.mode == .fenced then x else { x with input := some i } }
  else d

/-! ### Herringbone (R473 to R476) -/

/-- Bytes of a member's state (R473). -/
def memberBytes : Nat := 528384

/-- The bytes of some lines of a member become those of another. -/
def copyLines (source old : List CodeCell) (lines : Option (List Nat)) : List CodeCell :=
  let own := fun (c : CodeCell) => lines.all fun l => l.contains (c.at_ / 64)
  (source.filter own).foldl (fun m c => memWrite m c.at_ c.word) (old.filter fun c => !own c)

/-- The bytes of some lines of two members agree. -/
def linesAgree (a b : List CodeCell) (lines : Option (List Nat)) : Bool :=
  let own := fun (c : CodeCell) => lines.all fun l => l.contains (c.at_ / 64)
  a.filter own == b.filter own

/-- Lines of a member's state: 528,384 bytes in lines of 64 (R473). -/
def memberLines : Nat := memberBytes / 64

/-- A herringbone starts: event 1795 with its cause (R473, R476). -/
def Dev.climb (d : Dev) (m cause : Nat) (c : Option Ctx) : Dev :=
  ((d.modVoter m fun x => { x.leave .climbing with errorAt := none }).modTriad fun t =>
    { t with herringbone := some ⟨m, 1, memberLines, none, [], d.sys.ticks, d.sys.ticks, c⟩ }).raise 1795 0 [evNat m, evNat cause]

/-- A herringbone has joined or failed: the next one that waits starts (R475). -/
def Dev.nextClimb (d : Dev) : Dev :=
  let d := d.modTriad fun t => { t with herringbone := none }
  match d.triad.queue with
  | [] => d
  | m :: rest => (d.modTriad fun t => { t with queue := rest }).climb m 0 none

/-- A member is fenced: its kind 2 history is cleared and event 1794 is raised (R407, R466, R474). -/
def Dev.fence (d : Dev) (m cause : Nat) : Dev :=
  (((d.modVoter m fun x => { x.leave .fenced with fencedTotal := satInc 32 x.fencedTotal }).clearHistory 2 m).raise 1794 0
    [evNat m, evNat cause])

/-- The `SYS.TRIAD_REPAIR` behind a herringbone is answered (R476). -/
def Dev.answerRepair (d : Dev) (x : Herringbone) (st : Status) : Dev :=
  match x.command with
  | some c => d.finish c st []
  | none => d

/-- Lines are copied from a voting member into the climbing one (R473). -/
def Dev.copyState (d : Dev) (x : Herringbone) (lines : Option (List Nat)) : Dev :=
  match d.voting with
  | [] => d
  | v :: _ =>
    let bytes := (d.member v).bytes
    d.modVoter x.member fun y => { y with bytes := copyLines bytes y.bytes lines }

/-- A herringbone joins: the remaining dirty lines are copied, the member votes again, its command is answered, and event 1796 is
raised (R473, R476). -/
def Dev.joinClimb (d : Dev) (x : Herringbone) : Dev :=
  let d := (d.copyState x (some x.marked)).modVoter x.member fun y => y.leave .voting
  let d := d.answerRepair x .ok
  (d.raise 1796 0 [evNat x.member, evNat ((d.sys.ticks - x.since) / 2560), evNat x.pass]).nextClimb

/-- The copy rate of a level in 0.1 MiB/s (R473). -/
def copyRate : Nat → Nat
  | 0 => 2560 | 1 => 2954 | 2 => 3339 | _ => 3840

/-- Lines that the pass under way has copied, at the copy rate of the level in force (R473). -/
def Dev.linesCopied (d : Dev) (x : Herringbone) : Nat :=
  (d.sys.ticks - x.passAt) * (copyRate d.pwr.level * 2 ^ 20) / (640 * ticksPerSecond)

/-- A voted write changes the members' state: the bytes go to every voting member, and a line that the pass under way has copied
already is marked dirty (R473). -/
def Dev.writeMembers (d : Dev) (r : VoteReq) : Dev :=
  match if r.kind = 0 then Config.memberOffset r.target else none with
  | none => d
  | some o =>
    let cells := (r.data.zipIdx.map fun b => (o + b.2, b.1.toNat)).filter (·.1 < memberBytes)
    let lines := (cells.map (·.1 / 64)).eraseDups
    let write := fun (y : TriadMember) =>
      if y.mode == .voting then { y with bytes := cells.foldl (fun m c => memWrite m c.1 c.2) y.bytes } else y
    let mark := fun (x : Herringbone) =>
      let done := fun (l : Nat) => match x.known with
        | none => l < d.linesCopied x
        | some ls => (ls.take (d.linesCopied x)).contains l
      { x with marked := x.marked ++ lines.filter fun l => done l && !x.marked.contains l }
    d.modTriad fun t => { t with members := t.members.map write, herringbone := t.herringbone.map mark }

/-- The pass under way has had the time its lines take at the copy rate of the level in force (R473). -/
def Dev.passCopied (d : Dev) : Bool :=
  d.triad.herringbone.any fun x =>
    x.lines * 64 * 10 * ticksPerSecond ≤ (d.sys.ticks - x.passAt + 1) * (copyRate d.pwr.level * 2 ^ 20)

/-- Two voting members' lines differ in the pass under way: in bytes that voted writes gave them, or otherwise (R473). -/
def Dev.linesDiffer (d : Dev) (x : Herringbone) (differ : Bool) : Bool :=
  match d.voting with
  | [a, b] => differ || !linesAgree (d.member a).bytes (d.member b).bytes x.known
  | _ => false

/-! ### Splits (R472) -/

/-- The triad is split: event 1792 with its cause, Fault-hold, and a restart, or a stop where the restart before it was
less than 10 s ago (R472). -/
def Dev.split (d : Dev) (cause : Nat) : Dev :=
  let second := d.triad.restartedAt.any fun t => d.sys.ticks ≤ t + 10 * ticksPerSecond
  let voters := d.voting.length
  let d := match d.triad.herringbone with
    | some x => d.answerRepair x .verifyFailed
    | none => d
  let d := (d.raise 1792 0 [evNat voters, evNat cause, evNat (b2n second)]).faultHold 0x0030
  let restart := fun (x : TriadMember) => { TriadMember.fresh with fencedTotal := x.fencedTotal }
  d.modTriad fun t =>
    { members := t.members.map restart, herringbone := none, queue := [], arbitrating := false, output := t.output
      lastVote := d.sys.ticks
      restartedAt := some d.sys.ticks, stopped := second }

/-- Nothing is left that could bring two members to agree: fewer than two vote and none climbs or waits (R470, R492). -/
def Dev.noMajority (d : Dev) : Bool :=
  d.voting.length < 2 && (List.range 3).all fun m => (d.member m).mode == .voting || (d.member m).mode == .fenced

/-- No member votes. -/
def Dev.noneVotes (d : Dev) : Bool := d.voting.isEmpty

/-- A member has left voting: where fewer than two can come to agree any more the triad is split (R470, R472). -/
def Dev.splitIfAlone (d : Dev) : Dev := if d.noMajority || d.noneVotes then d.split 0 else d

/-- A herringbone fails (R474): its command gets VERIFY_FAILED (R476), event 1797, and the member is fenced. -/
def Dev.failClimb (d : Dev) (x : Herringbone) (cause : Nat) : Dev :=
  let d := (d.answerRepair x .verifyFailed).raise 1797 0 [evNat x.member, evNat x.pass, evNat cause]
  ((d.fence x.member 1).nextClimb).splitIfAlone

/-- A pass of a herringbone ends: its lines are copied, and so many lines besides those that voted writes marked were marked dirty
in it (R473, R474). -/
def Dev.passEnds (d : Dev) (dirty : Nat) (differ : Bool) : Dev :=
  match d.triad.herringbone with
  | none => d
  | some x =>
    if d.linesDiffer x differ then d.failClimb x 1
    else
      let d := d.copyState x x.known
      if x.lines ≤ 64 then d.joinClimb x
      else if 8 ≤ x.pass then d.failClimb x 0
      else d.modTriad fun t => { t with herringbone := some { x with
        pass := x.pass + 1, lines := min (dirty + x.marked.length) memberLines, known := some x.marked, marked := []
        passAt := d.sys.ticks } }

/-! ### Disagreement (R465, R466) -/

/-- A member disagrees over a request: it leaves voting, and climbs or is fenced (R466, R475). -/
def Dev.disagree (d : Dev) (m : Nat) (r : VoteReq) : Dev :=
  let d := d.modVoter m fun x => x.leave .waiting
  let (d, reached) := d.occurrence 2 m
  let d :=
    if reached then (d.raise 1677 0 [evNat m]).fence m 0
    else
      let d := d.raise 1793 0
        [evNat m, evNat r.kind, evNat r.target, evNat (d.inWindow 2 (d.faultTimes 2 m))]
      if d.triad.herringbone.isSome then d.modTriad fun t => { t with queue := t.queue ++ [m] } else d.climb m 0 none
  d.splitIfAlone

/-! ### The voter (R464, R465, R469) -/

/-- The handshake of a request completes towards its target, which sees it once: a write changes the members' state where it lies
there, and the result of a read is delivered to all members (R463, R464, R473). -/
def Dev.completeRequest (d : Dev) (r : VoteReq) : Dev :=
  let d := (d.writeMembers r).modTriad fun t => { t with output := some r, lastVote := d.sys.ticks }
  if r.kind = 3 then { d.deliverInput (.readReply r.target (Config.readResult d.free)) with free := d.free + 1 } else d

/-- A request completes: the members that presented it are acknowledged, the other voting members owe it (R464, R465). -/
def Dev.completeVote (d : Dev) (r : VoteReq) : Dev :=
  let d := d.completeRequest r
  let take := fun (x : TriadMember) =>
    if x.mode != .voting then x
    else if x.owed.isEmpty && x.presented == some r then { x with presented := none }
    else { x with owed := x.owed ++ [(r, d.sys.ticks)] }
  d.modTriad fun t => { t with members := t.members.map take }

/-- A member that has presented another request in the position of the completed one, or that is 16 requests behind,
disagrees (R465). -/
def Dev.judgeThird (d : Dev) (m : Nat) : Dev :=
  let x := d.member m
  match x.mode == .voting, x.owed with
  | true, (r, _) :: rest =>
    match x.presented with
    | some p => if p == r then d else d.disagree m p
    | none => if 16 ≤ rest.length then d.disagree m r else d
  | _, _ => d

/-- Complete a request and judge the members that did not present it. -/
def Dev.completeAndJudge (d : Dev) (r : VoteReq) : Dev := (List.range 3).foldl Dev.judgeThird (d.completeVote r)

/-- The patrol blames a member for its request (R469). -/
def Dev.blamed (d : Dev) (m : Nat) (r : VoteReq) : Bool :=
  (d.member m).errorAt.any (fun t => d.sys.ticks ≤ t + usTicks 1000) || !Config.legalTarget r.kind r.target

/-- The patrol has arbitrated between two requests: exactly one member blamed disagrees, and the other's request completes; else the
triad is split (R469). -/
def Dev.arbitrate (d : Dev) (a b : Nat) (p q : VoteReq) : Dev :=
  let d := d.modTriad fun t => { t with arbitrating := false }
  let say := fun (n : Nat) => d.raise 1798 0 [evNat n, evNat p.kind, evNat q.kind]
  match d.blamed a p, d.blamed b q with
  | true, false => (((say a).modVoter b fun x => { x with presented := none }).completeRequest q).disagree a p
  | false, true => (((say b).modVoter a fun x => { x with presented := none }).completeRequest p).disagree b q
  | _, _ => (say 3).split 1

/-- The patrol ends its arbitration at the next tick, within the 2 µs it may take (R469). -/
def Dev.patrolTurn (d : Dev) : Dev :=
  if d.triad.arbitrating then
    match d.voting.filterMap fun m => (d.member m).presented.map fun r => (m, r) with
    | [(a, p), (b, q)] => d.arbitrate a b p q
    | _ => d.modTriad fun t => { t with arbitrating := false }
  else d

/-- The voter looks at what the voting members present; it holds two requests that differ while the patrol arbitrates (R464,
R469). -/
def Dev.vote (d : Dev) : Dev :=
  let up := d.voting.filterMap fun m => (d.member m).presented.map fun r => (m, r)
  match up with
  | [(_, p), (_, q)] =>
    if p == q then d.completeAndJudge p
    else if d.voting.length == 2 then d.modTriad fun t => { t with arbitrating := true }
    else d
  | [(_, p), (_, q), (_, r)] =>
    if p == q || p == r then d.completeAndJudge p else if q == r then d.completeAndJudge q else d.split 0
  | _ => d

/-- A member presents a request (R464, R465). -/
def Dev.present (d : Dev) (m : Nat) (r : VoteReq) : Dev :=
  let x := d.member m
  match x.owed with
  | (o, t) :: rest =>
    if o == r && d.sys.ticks ≤ t + usTicks 10 then d.modVoter m fun y => { y with owed := rest } else (d.disagree m r).vote
  | [] => (d.modVoter m fun y => { y with presented := some r }).vote

/-- A member reports an uncorrectable error in its own memory or registers (R465, R469, R474). -/
def Dev.memberError (d : Dev) (m : Nat) (r : VoteReq) : Dev :=
  let d := d.modVoter m fun x => { x with errorAt := some d.sys.ticks }
  match (d.member m).mode with
  | .voting =>
    match d.voting.length with
    | 3 => d.disagree m r
    | 2 => d
    | _ => d.split 0
  | .climbing =>
    match d.triad.herringbone with
    | some x => if x.member == m then d.failClimb x 2 else d
    | none => d
  | _ => d

/-- VOTER_REQUEST: a member presents a request, or reports an error beside the request it was at. -/
def execVoterRequest (member kind target : Nat) (data : List Byte) (error : Bool) (s : State) :
    Host.Outcome State Fault Refusal :=
  .next (s.onDev fun d =>
    if !d.triadRuns || 3 ≤ member then d
    else if error then (d.memberError member ⟨kind, target, data⟩).vote
    else if (d.member member).mode == .voting then d.present member ⟨kind, target, data⟩
    else d)

/-- DISAGREE_TIMEOUT: a member has presented nothing for 10 µs after a voted completion (R465). -/
def execDisagreeTimeout (member : Nat) (s : State) : Host.Outcome State Fault Refusal :=
  .next (s.onDev fun d =>
    match (d.member member).owed with
    | (r, t) :: _ => if d.triadRuns && member < 3 && t + usTicks 10 < d.sys.ticks then (d.disagree member r).vote else d
    | [] => d)

/-- HEARTBEAT_LOST: no request has completed for 10 ms while a member votes (R471). -/
def execHeartbeatLost (s : State) : Host.Outcome State Fault Refusal :=
  .next (s.onDev fun d =>
    if d.triadRuns && !d.noneVotes && d.triad.lastVote + usTicks 10000 ≤ d.sys.ticks then
      (d.raise 1799 0 [evNat ((d.sys.ticks - d.triad.lastVote) / 2560)]).split 2
    else d)

/-- HERRINGBONE_PASS: a copy pass ends; lines marked dirty in it beside those of voted writes, and whether two voting members' lines
differed in more than those; a difference ends it at once, else its lines have been copied (R473, R474). -/
def execHerringbonePass (dirty : Nat) (differ : Bool) (s : State) : Host.Outcome State Fault Refusal :=
  .next (s.onDev fun d => if d.triadRuns && (d.triad.herringbone.any (d.linesDiffer · differ) || d.passCopied) then d.passEnds dirty differ else d)

/-! ### Commands (R476, R493) -/

/-- `SYS.TRIAD_STATUS`. -/
def sysTriadStatusKind : CmdKind := ⟨0x0004, false, anyState⟩

/-- `member_state` (R455). -/
def MemberMode.code : MemberMode → Nat
  | .voting => 0
  | .fenced => 1
  | .climbing | .waiting => 2

/-- The 32 bytes of `SYS.TRIAD_STATUS` (R455). -/
def sysTriadStatusData (d : Dev) : List Byte :=
  ((List.range 3).map fun m =>
    leBytes 1 (d.member m).mode.code ++ zeros 1 ++ leBytes 2 (d.inWindow 2 (d.faultTimes 2 m))
      ++ leBytes 4 (d.member m).fencedTotal).flatten ++ leBytes 1 (b2n d.triad.arbitrating) ++ zeros 7

/-- SYS_TRIAD_STATUS. -/
def execSysTriadStatus (h : CmdHeader) (s : State) : Host.Outcome State Fault Refusal :=
  .next (hostRun (.sysTriadStatus h) sysTriadStatusKind h (reads sysTriadStatusData) s)

/-- `SYS.TRIAD_REPAIR`. -/
def sysTriadRepairKind : CmdKind := ⟨0x0005, false, upStates⟩

/-- Start a herringbone for a fenced member (R476, R493). -/
def sysTriadRepairEff (member : Nat) : Effect := onDev fun _ c d =>
  if 2 < member then (d, .done .outOfRange [])
  else if (d.member member).mode != .fenced || d.triad.herringbone.isSome then (d, .done .wrongState [])
  else (d.climb member 1 (some c), .wait)

/-- SYS_TRIAD_REPAIR. -/
def execSysTriadRepair (h : CmdHeader) (member : Nat) (s : State) : Host.Outcome State Fault Refusal :=
  .next (hostRun (.sysTriadRepair h member) sysTriadRepairKind h (sysTriadRepairEff member) s)

end Sys2Proof.Machine
end

