-- ==== Sys2Proof/Machine/Service.lean ====
section
/-! DEFINITION. Packets and the service port: which effect a host command has, the checks of a packet, the timed queue
falling due, and the transactions of the service port (R414 to R434). -/

namespace Sys2Proof.Machine

/-- The table entry and the effect of a host command, as its own meaning uses them; no other row is one. -/
def hostEff (i : Instr) : Option (CmdHeader × CmdKind × Effect) :=
  match i with
  | .sysIdentify h => some (h, sysIdentifyKind, (reads sysIdentifyData))
  | .sysState h => some (h, sysStateKind, (reads sysStateData))
  | .sysGo h target => some (h, sysGoKind, (sysGoEff target))
  | .sysReset h kind => some (h, sysResetKind, (sysResetEff kind))
  | .sysTriadStatus h => some (h, sysTriadStatusKind, (reads sysTriadStatusData))
  | .sysTriadRepair h member => some (h, sysTriadRepairKind, (sysTriadRepairEff member))
  | .sysUplinkStatus h => some (h, sysUplinkStatusKind, (reads uplinkStatusData))
  | .sysUplinkReturn h port => some (h, sysUplinkReturnKind, (sysUplinkReturnEff port))
  | .sysTimedList h start => some (h, sysTimedListKind, (sysTimedListEff start))
  | .sysTimedCancel h requester tag => some (h, sysTimedCancelKind, (sysTimedCancelEff requester tag))
  | .sysPing h data => some (h, sysPingKind, (sysPingEff data))
  | .mapStatus h => some (h, mapStatusKind, (readsFree mapStatusData))
  | .mapEraseSlot h slot => some (h, mapEraseSlotKind, (mapEraseSlotEff slot))
  | .mapWrite h slot offset data => some (h, mapWriteKind, (mapWriteEff slot offset data))
  | .mapVerify h slot => some (h, mapVerifyKind, (mapVerifyEff slot))
  | .mapLoad h slot => some (h, mapLoadKind, (mapLoadEff slot))
  | .mapSwap h patience => some (h, mapSwapKind, (mapSwapEff (.mapSwap h patience) patience))
  | .mapCancelSwap h => some (h, mapCancelSwapKind, mapCancelSwapEff)
  | .mapSetBoot h slot => some (h, mapSetBootKind, (mapSetBootEff slot))
  | .mapKeyAdd h key => some (h, mapKeyAddKind, (mapKeyAddEff key))
  | .mapKeyRemove h keyId => some (h, mapKeyRemoveKind, (mapKeyRemoveEff keyId))
  | .mapKeyLock h => some (h, mapKeyLockKind, mapKeyLockEff)
  | .mapKeyUnlock h => some (h, mapKeyUnlockKind, mapKeyUnlockEff)
  | .feStatus h start => some (h, feStatusKind, (feStatusEff start))
  | .feSetGain h first last gain immediate => some (h, feSetGainKind, (feSetGainEff first last gain immediate))
  | .feSetThreshold h first last gainStep setTiming setTrigger setHyst thrTiming thrTrigger hystTiming hystTrigger =>
    some (h, feSetThresholdKind,
      (feSetThresholdEff (.feSetThreshold h first last gainStep setTiming setTrigger setHyst thrTiming thrTrigger hystTiming
        hystTrigger) first last (thresholdChange gainStep setTiming setTrigger setHyst thrTiming thrTrigger hystTiming hystTrigger)))
  | .feSetBias h firstTile lastTile vSet =>
    some (h, feSetBiasKind, (feSetBiasEff (.feSetBias h firstTile lastTile vSet) firstTile lastTile vSet))
  | .feSetTrim h first last trim => some (h, feSetTrimKind, (feSetTrimEff (.feSetTrim h first last trim) first last))
  | .feGate h firstTile lastTile action pulseLen =>
    some (h, feGateKind, (feGateEff (.feGate h firstTile lastTile action pulseLen) firstTile lastTile action pulseLen))
  | .feOpenCheck h firstTile lastTile => some (h, feOpenCheckKind, (feOpenCheckEff firstTile lastTile))
  | .wfcStatus h start => some (h, wfcStatusKind, (reads fun d => page start 1024 8 (wfcEntry d)))
  | .wfcSetMode h first last mode => some (h, wfcSetModeKind, (wfcSetModeEff (.wfcSetMode h first last mode) first last))
  | .wfcCalControl h first last run => some (h, wfcCalControlKind, (wfcCalControlEff first last run))
  | .wfcReadCal h pixel => some (h, wfcReadCalKind, (wfcReadCalEff pixel))
  | .monStatus h => some (h, monStatusKind, (reads monStatusData))
  | .monRead h first last => some (h, monReadKind, (monReadEff first last))
  | .monSetMode h mode => some (h, monSetModeKind, (monSetModeEff (.monSetMode h mode) mode))
  | .timeStatus h => some (h, timeStatusKind, (reads timeStatusData))
  | .timeSwitchSource h source => some (h, timeSwitchSourceKind, (timeSwitchSourceEff (.timeSwitchSource h source) source))
  | .timeSetSeconds h seconds => some (h, timeSetSecondsKind, (timeSetSecondsEff seconds))
  | .timeAlign h => some (h, timeAlignKind, timeAlignEff)
  | .timeClearFail h source => some (h, timeClearFailKind, (timeClearFailEff source))
  | .timeSetSpread h sliceDepth switchDepth sliceRate switchRate =>
    some (h, timeSetSpreadKind, (timeSetSpreadEff ⟨sliceDepth, switchDepth, sliceRate, switchRate⟩))
  | .tdcStatus h start => some (h, tdcStatusKind, (reads fun d => page start 1024 4 (tdcEntry d)))
  | .tdcReadCal h pixel => some (h, tdcReadCalKind, (tdcReadCalEff pixel))
  | .tdcSetOffset h first last tOffset =>
    some (h, tdcSetOffsetKind, (tdcSetOffsetEff (.tdcSetOffset h first last tOffset) first last))
  | .slalomStatus h => some (h, slalomStatusKind, (reads slalomStatusData))
  | .slalomArm h mask => some (h, slalomArmKind, (armEff true mask))
  | .slalomDisarm h mask => some (h, slalomDisarmKind, (armEff false mask))
  | .slalomFire h course => some (h, slalomFireKind, (slalomFireEff course))
  | .slalomCounters h clear => some (h, slalomCountersKind, (slalomCountersEff clear))
  | .acqStatus h => some (h, acqStatusKind, (readsFree acqStatusData))
  | .acqCounters h clear => some (h, acqCountersKind, (acqCountersEff clear))
  | .acqTagControl h first last what value =>
    some (h, acqTagControlKind, (acqTagControlEff (.acqTagControl h first last what value) first last what))
  | .acqSetAverage h first last avg =>
    some (h, acqSetAverageKind, (acqSetAverageEff (.acqSetAverage h first last avg) first last avg))
  | .acqSetWater h descLow descHigh memLow memHigh =>
    some (h, acqSetWaterKind, (acqSetWaterEff descLow descHigh memLow memHigh))
  | .cmpStatus h => some (h, cmpStatusKind, (readsFree cmpStatusData))
  | .cmpCounters h clear => some (h, cmpCountersKind, (cmpCountersEff clear))
  | .cmpFlush h scope => some (h, cmpFlushKind, (cmpFlushEff scope))
  | .cmpSetParams h first last distance a b c enable k =>
    some (h, cmpSetParamsKind, (cmpSetParamsEff (.cmpSetParams h first last distance a b c enable k) first last distance c k))
  | .mrgStatus h start => some (h, mrgStatusKind, (readsFree (mrgStatusData start)))
  | .mrgCounters h clear => some (h, mrgCountersKind, (mrgCountersEff clear))
  | .mrgSetClose h closeTime lateMode =>
    some (h, mrgSetCloseKind, (mrgSetCloseEff (.mrgSetClose h closeTime lateMode) closeTime lateMode))
  | .mrgResumeStream h port vc address => some (h, mrgResumeStreamKind, (mrgResumeStreamEff port vc address))
  | .mrgCloseAll h => some (h, mrgCloseAllKind, mrgCloseAllEff)
  | .laneStatus h port => some (h, laneStatusKind, (laneStatusEff port))
  | .laneCounters h lane clear => some (h, laneCountersKind, (laneCountersEff lane clear))
  | .laneRetrain h port => some (h, laneRetrainKind, (laneRetrainEff port))
  | .laneClimb h port => some (h, laneClimbKind, (laneClimbEff port))
  | .laneSleep h port wakeKey => some (h, laneSleepKind, (laneSleepEff port wakeKey))
  | .laneWake h port direction => some (h, laneWakeKind, (laneWakeEff port direction))
  | .lanePrbs h port stage pattern generate check stop duration =>
    some (h, lanePrbsKind, (lanePrbsEff port stage pattern generate check stop duration))
  | .laneSetTx h lane swing pre post => some (h, laneSetTxKind, (laneSetTxEff lane swing pre post))
  | .laneLinkStatus h target clear => some (h, laneLinkStatusKind, (laneLinkStatusEff target clear))
  | .storeStatus h => some (h, storeStatusKind, (reads storeStatusData))
  | .storeCounters h clear => some (h, storeCountersKind, (storeCountersEff clear))
  | .storeFormat h extentCount => some (h, storeFormatKind, (storeFormatEff extentCount))
  | .storeCheckpoint h => some (h, storeCheckpointKind, storeCheckpointEff)
  | .storeFind h moment => some (h, storeFindKind, (storeFindEff moment))
  | .storeReplay h first last => some (h, storeReplayKind, (storeReplayEff first last))
  | .storeReplayStop h => some (h, storeReplayStopKind, storeReplayStopEff)
  | .integStatus h => some (h, integStatusKind, (reads integStatusData))
  | .integLogRead h => some (h, integLogReadKind, (reads integLogData))
  | .integLogClear h all => some (h, integLogClearKind, (onDev fun _ _ d => (d.clearLog all, .done .ok [])))
  | .integRemapRead h => some (h, integRemapReadKind, (reads remapData))
  | .integGroom h walk action rate => some (h, integGroomKind, (integGroomEff walk action rate))
  | .integInject h target subject mode bitA bitB address tile =>
    some (h, integInjectKind, (integInjectEff target subject mode bitA bitB address tile))
  | .evtStatus h => some (h, evtStatusKind, (reads evtStatusData))
  | .evtMask h first last set => some (h, evtMaskKind, (evtMaskEff first last set))
  | .evtAck h source => some (h, evtAckKind, (evtAckEff source))
  | .evtCounters h clear => some (h, evtCountersKind, (evtCountersEff clear))
  | .evtSetDelivery h up svc period => some (h, evtSetDeliveryKind, (evtSetDeliveryEff up svc period))
  | .pwrStatus h => some (h, pwrStatusKind, pwrStatusEff)
  | .pwrSetLevel h level => some (h, pwrSetLevelKind, (pwrSetLevelEff level))
  | .pwrSetLimit h limit => some (h, pwrSetLimitKind, (pwrSetLimitEff limit))
  | .calStatus h => some (h, calStatusKind, (readsFree calStatusData))
  | .calRun h firstTile lastTile => some (h, calRunKind, (calRunEff firstTile lastTile))
  | .calRead h pixel => some (h, calReadKind, (calReadEff pixel))
  | .bistRun h cls firstSlice lastSlice => some (h, bistRunKind, (bistRunEff cls firstSlice lastSlice))
  | .bistStatus h => some (h, bistStatusKind, (reads bistStatusData))
  | .bistFuse h => some (h, bistFuseKind, bistFuseEff)
  | .hmonRead h unit => some (h, hmonReadKind, (hmonReadEff unit))
  | .hmonClear h mask => some (h, hmonClearKind, (hmonClearEff mask))
  | .fwStatus h => some (h, fwStatusKind, (fun _ s => (s, .done .ok (fwStatusData s))))
  | .fwErase h image fwSlot => some (h, fwEraseKind, (fwEraseEff image fwSlot))
  | .fwWrite h image fwSlot offset data => some (h, fwWriteKind, (fwWriteEff image fwSlot offset data))
  | .fwVerify h image fwSlot => some (h, fwVerifyKind, (fwVerifyEff image fwSlot))
  | .fwActivate h ctrlSlot laneSlot => some (h, fwActivateKind, (fwActivateEff ctrlSlot laneSlot))
  | .fwConfirm h => some (h, fwConfirmKind, fwConfirmEff)
  | .flashRead h offset length => some (h, flashReadKind, (flashReadEff offset length))
  | .flashErase h sector => some (h, flashEraseKind, (flashEraseEff sector))
  | .flashWrite h offset data => some (h, flashWriteKind, (flashWriteEff offset data))
  | _ => none

/-! ### Checks of a packet (R414 to R418, R433) -/

/-- Port number that stands for the service port. -/
def servicePort : Nat := 255

/-- The header of a packet as read (R414). -/
def packetHeader (port : Nat) (bs : List Byte) : CmdHeader :=
  let w := fieldAt bs 4 2
  { path := if port == servicePort then .service else .uplink port
    requester := fieldAt bs 8 1, tag := fieldAt bs 2 2, timed := bit w 12, latePermitted := bit w 13
    broadcast := bit w 14, noReply := bit w 15, executeAt := timeWordAt bs 12 }

/-- Check 1: the trailer matches every byte before it (R390, R417). -/
def trailerOk (bs : List Byte) : Bool :=
  4 ≤ bs.length && crc32c (bs.take (bs.length - 4)) == fieldAt bs (bs.length - 4) 4

/-- Check 3: `broadcast` agrees with `partner`; a lane packet's requester, a service-port packet's partner (R417). -/
def addressOk (d : Dev) (port : Nat) (bs : List Byte) : Bool :=
  let partner := fieldAt bs 4 2 % 4096
  bit (fieldAt bs 4 2) 14 == (partner == 0xFFF)
    && (if port == servicePort then partner == 0 || partner == 0xFFF || partner == selfAddress d.map.active
        else fieldAt bs 8 1 != 255)

/-- Checks 1 to 3: the status of the first that fails (R417). -/
def packetFault (d : Dev) (port : Nat) (bs : List Byte) (poisoned : Bool) : Option Status :=
  let n := fieldAt bs 6 2
  if !trailerOk bs || poisoned then some .badCrc
  else if port == servicePort && (bs.length != 36 + n || 1024 < n) then some .outOfRange
  else if !addressOk d port bs then some .outOfRange
  else none

/-- A packet is taken: the members get it (R463); checks 1 to 4, then those of its command (R417). -/
def State.takePacket (s : State) (port : Nat) (bs : List Byte) (poisoned : Bool) : State :=
  let h := packetHeader port bs
  let op := fieldAt bs 0 2
  if !s.dev.hears h.path then s
  else
    let s := s.onDev (·.deliverInput (.packet port bs))
    match packetFault s.dev port bs poisoned with
    | some st => s.onDev (·.answer h op st false)
    | none =>
      match parseCommand op h ((bs.drop 32).take (fieldAt bs 6 2)) with
      | .unknown => s.onDev (·.answer h op .unknownOpcode false)
      | .badLength i => match hostEff i with
        | some (_, k, eff) => acceptCmd i true k h eff s
        | none => s
      | .command i => match hostEff i with
        | some (_, k, eff) => acceptCmd i false k h eff s
        | none => s

/-- A write buffer is freed as soon as the outcome of checks 1 to 8 is decided for its packet (R433). -/
def Dev.freeBuffer (d : Dev) (port : Nat) : Dev :=
  if port == servicePort then { d with cmd := { d.cmd with writeFree := min 2 (d.cmd.writeFree + 1) } } else d

/-- The packets that wait are taken in the order in which their last bytes arrived (R444). A reset that one of them brings
about loses those behind it (R431). -/
def State.takePackets (s : State) : Nat → State
  | 0 => s
  | n + 1 =>
    match s.dev.cmd.packets with
    | [] => s
    | (port, bs, poisoned) :: rest =>
      let s := s.onDev fun d => { d with cmd := { d.cmd with packets := rest } }.freeBuffer port
      (s.takePacket port bs poisoned).takePackets n

/-- CTRL takes every packet that waits. -/
def State.serve (s : State) : State := s.takePackets s.dev.cmd.packets.length

/-- PARCEL_RECEIVED: what the four lanes receive in a chair, and the upsets of the table words that the receiver reads for it. A
packet that it completes is taken (R417). -/
def execParcelReceived (port chair : Nat) (quarters : List LaneQuarter) (upsets : List Upset) (s : State) :
    Host.Outcome State Fault Refusal :=
  .next (s.onDev (·.receiveParcel port chair quarters upsets)).serve

/-! ### The timed queue falls due (R426 to R430) -/

/-- The first queued command that a jump of the time word has gone past, or whose `execute_at` has come. -/
def Dev.dueTimed (d : Dev) : Option Timed := d.cmd.timed.find? fun e => e.passed || e.header.executeAt.le d.now

/-- A queued command falls due: it executes; one that a jump has gone past executes late where it permits that, and else
gets TIME_PAST (R430). -/
def State.fallDue (s : State) (e : Timed) : State :=
  let s := s.onDev fun d => { d with cmd := { d.cmd with timed := d.cmd.timed.erase e } }
  match hostEff e.command with
  | none => s
  | some (_, k, eff) =>
    let run := if e.badLength then lengthEff else eff
    if !e.passed then runNow k e.header none run s
    else if e.header.latePermitted then
      runNow k e.header (some (s.dev.globalNow - e.header.executeAt.globalTick)) run s
    else s.onDev (·.finish ⟨e.header, e.opcode, none, s.dev.now⟩ .timePast [])

/-- The queued commands that have fallen due execute, in order, before anything else of the tick (R429, R444). -/
def State.runDue (s : State) : Nat → State
  | 0 => s
  | n + 1 =>
    match s.dev.dueTimed with
    | some e => (s.fallDue e).runDue n
    | none => s

/-- TIMED_COMMAND_DUE: one that a jump of the time word within the tick makes due or passes. -/
def execTimedCommandDue (s : State) : Host.Outcome State Fault Refusal :=
  .next (match s.dev.dueTimed with
    | some e => s.fallDue e
    | none => s)

/-! ### Transactions of the service port (R433, R434) -/

/-- A packet clocked in stands in a write buffer, or is discarded where none is free, with event 1827 (R433, R443). -/
def Dev.takeWrite (d : Dev) (bytes : List Byte) : Dev :=
  let d := d.onSvdo (zeros bytes.length)
  if d.cmd.writeFree = 0 then
    let d := { d with evt := { d.evt with ownCounts := modAt d.evt.ownCounts 3 fun n => (n + 1) % 2 ^ 32 } }
    d.raiseLimited 1827 0 0 [evNat (getD d.evt.ownCounts 3 0)]
  else
    { d with cmd := { d.cmd with
      writeFree := d.cmd.writeFree - 1, packets := d.cmd.packets ++ [(servicePort, bytes, false)] } }

/-- SERVICE_WRITE: the bytes after the first, up to the rise of SVSEL, and whether CTRL has decided the outcome of checks 1
to 8 before anything else happens; where it has not, the packet keeps its buffer until the next tick. -/
def execServiceWrite (bytes : List Byte) (decided : Bool) (s : State) : Host.Outcome State Fault Refusal :=
  .next (if s.dev.sys.state == .off then s
    else
      let s := s.onDev (·.takeWrite bytes)
      if decided then s.serve else s)

/-- The bytes of a READ: the length of the oldest item and its bytes, or length 0 (R433). -/
def Dev.oldestItem (d : Dev) : List Byte :=
  match d.evt.service with
  | [] => leBytes 4 0
  | i :: _ => leBytes 4 i.record.bytes.length ++ i.record.bytes

/-- A READ of so many bytes after the first: the item leaves only if all of it was clocked. -/
def Dev.serviceRead (d : Dev) (clocked : Nat) : Dev :=
  let out := d.oldestItem
  let d := d.onSvdo (out.take clocked)
  if out.length ≤ clocked then { d with evt := { d.evt with service := d.evt.service.drop 1 } } else d

/-- SERVICE_READ: how many bytes the host clocks after the first. -/
def execServiceRead (clocked : Nat) (s : State) : Host.Outcome State Fault Refusal :=
  .next (if s.dev.sys.state == .off then s else s.onDev (·.serviceRead clocked))

/-- The 8 bytes of STATUS (R433). -/
def Dev.portStatus (d : Dev) : List Byte :=
  leBytes 2 d.evt.service.length ++ leBytes 1 d.cmd.writeFree
    ++ leBytes 1 (d.cmd.inFlight.filter (·.1 == servicePort)).length ++ leBytes 4 d.evt.eventsLost

/-- SERVICE_STATUS: how many bytes the host clocks after the first. -/
def execServiceStatus (clocked : Nat) (s : State) : Host.Outcome State Fault Refusal :=
  .next (if s.dev.sys.state == .off then s else s.onDev fun d => d.onSvdo (d.portStatus.take clocked))

end Sys2Proof.Machine
end

