-- ==== Sys2Proof/Machine/Dispatch.lean ====
section
/-! DEFINITION. One arm per command: a direct call of its meaning. -/

namespace Sys2Proof.Machine

/-- The effect of a command on everything but the queue. -/
def exec (i : Instr) (s : State) : Host.Outcome State Fault Refusal :=
  match i with
  | .sysIdentify h => Sys2Proof.Machine.execSysIdentify h s
  | .sysState h => Sys2Proof.Machine.execSysState h s
  | .sysGo h target => Sys2Proof.Machine.execSysGo h target s
  | .sysReset h kind => Sys2Proof.Machine.execSysReset h kind s
  | .sysTriadStatus h => Sys2Proof.Machine.execSysTriadStatus h s
  | .sysTriadRepair h member => Sys2Proof.Machine.execSysTriadRepair h member s
  | .sysUplinkStatus h => Sys2Proof.Machine.execSysUplinkStatus h s
  | .sysUplinkReturn h port => Sys2Proof.Machine.execSysUplinkReturn h port s
  | .sysTimedList h start => Sys2Proof.Machine.execSysTimedList h start s
  | .sysTimedCancel h requester tag => Sys2Proof.Machine.execSysTimedCancel h requester tag s
  | .sysPing h data => Sys2Proof.Machine.execSysPing h data s
  | .mapStatus h => Sys2Proof.Machine.execMapStatus h s
  | .mapEraseSlot h slot => Sys2Proof.Machine.execMapEraseSlot h slot s
  | .mapWrite h slot offset data => Sys2Proof.Machine.execMapWrite h slot offset data s
  | .mapVerify h slot => Sys2Proof.Machine.execMapVerify h slot s
  | .mapLoad h slot => Sys2Proof.Machine.execMapLoad h slot s
  | .mapSwap h patience => Sys2Proof.Machine.execMapSwap h patience s
  | .mapCancelSwap h => Sys2Proof.Machine.execMapCancelSwap h s
  | .mapSetBoot h slot => Sys2Proof.Machine.execMapSetBoot h slot s
  | .mapKeyAdd h key => Sys2Proof.Machine.execMapKeyAdd h key s
  | .mapKeyRemove h keyId => Sys2Proof.Machine.execMapKeyRemove h keyId s
  | .mapKeyLock h => Sys2Proof.Machine.execMapKeyLock h s
  | .mapKeyUnlock h => Sys2Proof.Machine.execMapKeyUnlock h s
  | .feStatus h start => Sys2Proof.Machine.execFeStatus h start s
  | .feSetGain h first last gain immediate => Sys2Proof.Machine.execFeSetGain h first last gain immediate s
  | .feSetThreshold h first last gainStep setTiming setTrigger setHyst thrTiming thrTrigger hystTiming hystTrigger => Sys2Proof.Machine.execFeSetThreshold h first last gainStep setTiming setTrigger setHyst thrTiming thrTrigger hystTiming hystTrigger s
  | .feSetBias h firstTile lastTile vSet => Sys2Proof.Machine.execFeSetBias h firstTile lastTile vSet s
  | .feSetTrim h first last trim => Sys2Proof.Machine.execFeSetTrim h first last trim s
  | .feGate h firstTile lastTile action pulseLen => Sys2Proof.Machine.execFeGate h firstTile lastTile action pulseLen s
  | .feOpenCheck h firstTile lastTile => Sys2Proof.Machine.execFeOpenCheck h firstTile lastTile s
  | .wfcStatus h start => Sys2Proof.Machine.execWfcStatus h start s
  | .wfcSetMode h first last mode => Sys2Proof.Machine.execWfcSetMode h first last mode s
  | .wfcCalControl h first last run => Sys2Proof.Machine.execWfcCalControl h first last run s
  | .wfcReadCal h pixel => Sys2Proof.Machine.execWfcReadCal h pixel s
  | .monStatus h => Sys2Proof.Machine.execMonStatus h s
  | .monRead h first last => Sys2Proof.Machine.execMonRead h first last s
  | .monSetMode h mode => Sys2Proof.Machine.execMonSetMode h mode s
  | .timeStatus h => Sys2Proof.Machine.execTimeStatus h s
  | .timeSwitchSource h source => Sys2Proof.Machine.execTimeSwitchSource h source s
  | .timeSetSeconds h seconds => Sys2Proof.Machine.execTimeSetSeconds h seconds s
  | .timeAlign h => Sys2Proof.Machine.execTimeAlign h s
  | .timeClearFail h source => Sys2Proof.Machine.execTimeClearFail h source s
  | .timeSetSpread h sliceDepth switchDepth sliceRate switchRate => Sys2Proof.Machine.execTimeSetSpread h sliceDepth switchDepth sliceRate switchRate s
  | .tdcStatus h start => Sys2Proof.Machine.execTdcStatus h start s
  | .tdcReadCal h pixel => Sys2Proof.Machine.execTdcReadCal h pixel s
  | .tdcSetOffset h first last tOffset => Sys2Proof.Machine.execTdcSetOffset h first last tOffset s
  | .slalomStatus h => Sys2Proof.Machine.execSlalomStatus h s
  | .slalomArm h mask => Sys2Proof.Machine.execSlalomArm h mask s
  | .slalomDisarm h mask => Sys2Proof.Machine.execSlalomDisarm h mask s
  | .slalomFire h course => Sys2Proof.Machine.execSlalomFire h course s
  | .slalomCounters h clear => Sys2Proof.Machine.execSlalomCounters h clear s
  | .acqStatus h => Sys2Proof.Machine.execAcqStatus h s
  | .acqCounters h clear => Sys2Proof.Machine.execAcqCounters h clear s
  | .acqTagControl h first last what value => Sys2Proof.Machine.execAcqTagControl h first last what value s
  | .acqSetAverage h first last avg => Sys2Proof.Machine.execAcqSetAverage h first last avg s
  | .acqSetWater h descLow descHigh memLow memHigh => Sys2Proof.Machine.execAcqSetWater h descLow descHigh memLow memHigh s
  | .cmpStatus h => Sys2Proof.Machine.execCmpStatus h s
  | .cmpCounters h clear => Sys2Proof.Machine.execCmpCounters h clear s
  | .cmpFlush h scope => Sys2Proof.Machine.execCmpFlush h scope s
  | .cmpSetParams h first last distance a b c enable k => Sys2Proof.Machine.execCmpSetParams h first last distance a b c enable k s
  | .mrgStatus h start => Sys2Proof.Machine.execMrgStatus h start s
  | .mrgCounters h clear => Sys2Proof.Machine.execMrgCounters h clear s
  | .mrgSetClose h closeTime lateMode => Sys2Proof.Machine.execMrgSetClose h closeTime lateMode s
  | .mrgResumeStream h port vc address => Sys2Proof.Machine.execMrgResumeStream h port vc address s
  | .mrgCloseAll h => Sys2Proof.Machine.execMrgCloseAll h s
  | .laneStatus h port => Sys2Proof.Machine.execLaneStatus h port s
  | .laneCounters h lane clear => Sys2Proof.Machine.execLaneCounters h lane clear s
  | .laneRetrain h port => Sys2Proof.Machine.execLaneRetrain h port s
  | .laneClimb h port => Sys2Proof.Machine.execLaneClimb h port s
  | .laneSleep h port wakeKey => Sys2Proof.Machine.execLaneSleep h port wakeKey s
  | .laneWake h port direction => Sys2Proof.Machine.execLaneWake h port direction s
  | .lanePrbs h port stage pattern generate check stop duration => Sys2Proof.Machine.execLanePrbs h port stage pattern generate check stop duration s
  | .laneSetTx h lane swing pre post => Sys2Proof.Machine.execLaneSetTx h lane swing pre post s
  | .laneLinkStatus h target clear => Sys2Proof.Machine.execLaneLinkStatus h target clear s
  | .storeStatus h => Sys2Proof.Machine.execStoreStatus h s
  | .storeCounters h clear => Sys2Proof.Machine.execStoreCounters h clear s
  | .storeFormat h extentCount => Sys2Proof.Machine.execStoreFormat h extentCount s
  | .storeCheckpoint h => Sys2Proof.Machine.execStoreCheckpoint h s
  | .storeFind h moment => Sys2Proof.Machine.execStoreFind h moment s
  | .storeReplay h first last => Sys2Proof.Machine.execStoreReplay h first last s
  | .storeReplayStop h => Sys2Proof.Machine.execStoreReplayStop h s
  | .integStatus h => Sys2Proof.Machine.execIntegStatus h s
  | .integLogRead h => Sys2Proof.Machine.execIntegLogRead h s
  | .integLogClear h all => Sys2Proof.Machine.execIntegLogClear h all s
  | .integRemapRead h => Sys2Proof.Machine.execIntegRemapRead h s
  | .integGroom h walk action rate => Sys2Proof.Machine.execIntegGroom h walk action rate s
  | .integInject h target subject mode bitA bitB address tile => Sys2Proof.Machine.execIntegInject h target subject mode bitA bitB address tile s
  | .evtStatus h => Sys2Proof.Machine.execEvtStatus h s
  | .evtMask h first last set => Sys2Proof.Machine.execEvtMask h first last set s
  | .evtAck h source => Sys2Proof.Machine.execEvtAck h source s
  | .evtCounters h clear => Sys2Proof.Machine.execEvtCounters h clear s
  | .evtSetDelivery h toUplink toService period => Sys2Proof.Machine.execEvtSetDelivery h toUplink toService period s
  | .pwrStatus h => Sys2Proof.Machine.execPwrStatus h s
  | .pwrSetLevel h level => Sys2Proof.Machine.execPwrSetLevel h level s
  | .pwrSetLimit h limit => Sys2Proof.Machine.execPwrSetLimit h limit s
  | .calStatus h => Sys2Proof.Machine.execCalStatus h s
  | .calRun h firstTile lastTile => Sys2Proof.Machine.execCalRun h firstTile lastTile s
  | .calRead h pixel => Sys2Proof.Machine.execCalRead h pixel s
  | .bistRun h cls firstSlice lastSlice => Sys2Proof.Machine.execBistRun h cls firstSlice lastSlice s
  | .bistStatus h => Sys2Proof.Machine.execBistStatus h s
  | .bistFuse h => Sys2Proof.Machine.execBistFuse h s
  | .hmonRead h unit => Sys2Proof.Machine.execHmonRead h unit s
  | .hmonClear h mask => Sys2Proof.Machine.execHmonClear h mask s
  | .fwStatus h => Sys2Proof.Machine.execFwStatus h s
  | .fwErase h image fwSlot => Sys2Proof.Machine.execFwErase h image fwSlot s
  | .fwWrite h image fwSlot offset data => Sys2Proof.Machine.execFwWrite h image fwSlot offset data s
  | .fwVerify h image fwSlot => Sys2Proof.Machine.execFwVerify h image fwSlot s
  | .fwActivate h ctrlSlot laneSlot => Sys2Proof.Machine.execFwActivate h ctrlSlot laneSlot s
  | .fwConfirm h => Sys2Proof.Machine.execFwConfirm h s
  | .flashRead h offset length => Sys2Proof.Machine.execFlashRead h offset length s
  | .flashErase h sector => Sys2Proof.Machine.execFlashErase h sector s
  | .flashWrite h offset data => Sys2Proof.Machine.execFlashWrite h offset data s
  | .serviceWrite bytes decided => Sys2Proof.Machine.execServiceWrite bytes decided s
  | .serviceRead clocked => Sys2Proof.Machine.execServiceRead clocked s
  | .serviceStatus clocked => Sys2Proof.Machine.execServiceStatus clocked s
  | .lodge code => Sys2Proof.Machine.execLodge code s
  | .timedCommandDue => Sys2Proof.Machine.execTimedCommandDue s
  | .nmiRepeat source => Sys2Proof.Machine.execNmiRepeat source s
  | .powerOn => Sys2Proof.Machine.execPowerOn s
  | .imagesStarted => Sys2Proof.Machine.execImagesStarted s
  | .bootMapLoad => Sys2Proof.Machine.execBootMapLoad s
  | .powerFailWarning vin power => Sys2Proof.Machine.execPowerFailWarning vin power s
  | .powerFailWarningCleared => Sys2Proof.Machine.execPowerFailWarningCleared s
  | .underVoltageLockOut => Sys2Proof.Machine.execUnderVoltageLockOut s
  | .overVoltageShutdown => Sys2Proof.Machine.execOverVoltageShutdown s
  | .overVoltageRestart => Sys2Proof.Machine.execOverVoltageRestart s
  | .operatingRangeLeft vin => Sys2Proof.Machine.execOperatingRangeLeft vin s
  | .railFault rail voltage => Sys2Proof.Machine.execRailFault rail voltage s
  | .railRestart => Sys2Proof.Machine.execRailRestart s
  | .lidOverheatHold => Sys2Proof.Machine.execLidOverheatHold s
  | .biasCurrentLimitOff tile => Sys2Proof.Machine.execBiasCurrentLimitOff tile s
  | .biasOutOfTolerance tile measured => Sys2Proof.Machine.execBiasOutOfTolerance tile measured s
  | .biasRampDone tile => Sys2Proof.Machine.execBiasRampDone tile s
  | .powerWindowEnd average => Sys2Proof.Machine.execPowerWindowEnd average s
  | .snowploughCauseEnd => Sys2Proof.Machine.execSnowploughCauseEnd s
  | .vcoreSettled => Sys2Proof.Machine.execVcoreSettled s
  | .drainDone => Sys2Proof.Machine.execDrainDone s
  | .drainLimit => Sys2Proof.Machine.execDrainLimit s
  | .fireTokenAdd => Sys2Proof.Machine.execFireTokenAdd s
  | .countingWindowEnd na nb ni => Sys2Proof.Machine.execCountingWindowEnd na nb ni s
  | .sourceAbsent source => Sys2Proof.Machine.execSourceAbsent source s
  | .sourcePresent source => Sys2Proof.Machine.execSourcePresent source s
  | .loopUnlock => Sys2Proof.Machine.execLoopUnlock s
  | .slewDone => Sys2Proof.Machine.execSlewDone s
  | .autoReturn => Sys2Proof.Machine.execAutoReturn s
  | .ppsEdge fine => Sys2Proof.Machine.execPpsEdge fine s
  | .ppsAbsent => Sys2Proof.Machine.execPpsAbsent s
  | .secondBoundary => Sys2Proof.Machine.execSecondBoundary s
  | .intCorrectionSave => Sys2Proof.Machine.execIntCorrectionSave s
  | .timeRequestSend => Sys2Proof.Machine.execTimeRequestSend s
  | .timeRequest lane received since => Sys2Proof.Machine.execTimeRequest lane received since s
  | .timeResponse lane received since => Sys2Proof.Machine.execTimeResponse lane received since s
  | .timeExchangeTimeout lane => Sys2Proof.Machine.execTimeExchangeTimeout lane s
  | .timingEdge pixel rising raw onBoundary hitsTaken tagsTaken parity => Sys2Proof.Machine.execTimingEdge pixel rising raw onBoundary hitsTaken tagsTaken parity s
  | .hitWordTimeout pixel hitsTaken tagsTaken parity => Sys2Proof.Machine.execHitWordTimeout pixel hitsTaken tagsTaken parity s
  | .calSlotStart => Sys2Proof.Machine.execCalSlotStart s
  | .triggerEdge edges => Sys2Proof.Machine.execTriggerEdge edges s
  | .xtEdge xt level => Sys2Proof.Machine.execXtEdge xt level s
  | .pixelStretchEnd pixel => Sys2Proof.Machine.execPixelStretchEnd pixel s
  | .gateTimeout course => Sys2Proof.Machine.execGateTimeout course s
  | .fireMessage lane received => Sys2Proof.Machine.execFireMessage lane received s
  | .armMessage lane received => Sys2Proof.Machine.execArmMessage lane received s
  | .disarmMessage lane received => Sys2Proof.Machine.execDisarmMessage lane received s
  | .armApply => Sys2Proof.Machine.execArmApply s
  | .busyMessage lane received => Sys2Proof.Machine.execBusyMessage lane received s
  | .busyRepeat => Sys2Proof.Machine.execBusyRepeat s
  | .busyExpire => Sys2Proof.Machine.execBusyExpire s
  | .keyExpire => Sys2Proof.Machine.execKeyExpire s
  | .schussIdleMessage lane received => Sys2Proof.Machine.execSchussIdleMessage lane received s
  | .schussDelineationLost lane => Sys2Proof.Machine.execSchussDelineationLost lane s
  | .schussSlot lane fine => Sys2Proof.Machine.execSchussSlot lane fine s
  | .segmentBuildStart read overrun parity => Sys2Proof.Machine.execSegmentBuildStart read overrun parity s
  | .hitListClose => Sys2Proof.Machine.execHitListClose s
  | .tagFrameEdge slots => Sys2Proof.Machine.execTagFrameEdge slots s
  | .tagFrameClose => Sys2Proof.Machine.execTagFrameClose s
  | .swapMarkerDone => Sys2Proof.Machine.execSwapMarkerDone s
  | .sectionReload typ inst address => Sys2Proof.Machine.execSectionReload typ inst address s
  | .cmpSegment blocks findings upsets parity => Sys2Proof.Machine.execCmpSegment blocks findings upsets parity s
  | .chainBufferFreed => Sys2Proof.Machine.execChainBufferFreed s
  | .parcelReceived port chair quarters upsets => Sys2Proof.Machine.execParcelReceived port chair quarters upsets s
  | .eventDeadline => Sys2Proof.Machine.execEventDeadline s
  | .passReturnDelay => Sys2Proof.Machine.execPassReturnDelay s
  | .chairTransmit port chair upsets => Sys2Proof.Machine.execChairTransmit port chair upsets s
  | .alignmentBlockSend port => Sys2Proof.Machine.execAlignmentBlockSend port s
  | .replayTimeout port => Sys2Proof.Machine.execReplayTimeout port s
  | .windowStall port => Sys2Proof.Machine.execWindowStall port s
  | .wheelSwitchTimeout port => Sys2Proof.Machine.execWheelSwitchTimeout port s
  | .copyLagTimeout => Sys2Proof.Machine.execCopyLagTimeout s
  | .memberLeftBehind port => Sys2Proof.Machine.execMemberLeftBehind port s
  | .alignmentBlockReceived port blocks words => Sys2Proof.Machine.execAlignmentBlockReceived port blocks words s
  | .relockTimeout port => Sys2Proof.Machine.execRelockTimeout port s
  | .kMarkerLock port => Sys2Proof.Machine.execKMarkerLock port s
  | .kLockLost port => Sys2Proof.Machine.execKLockLost port s
  | .laneControlSend port => Sys2Proof.Machine.execLaneControlSend port s
  | .laneControlMessage port frames => Sys2Proof.Machine.execLaneControlMessage port frames s
  | .trainDone training => Sys2Proof.Machine.execTrainDone training s
  | .checkDone port streams => Sys2Proof.Machine.execCheckDone port streams s
  | .alignTimeout port => Sys2Proof.Machine.execAlignTimeout port s
  | .decideTimeout port => Sys2Proof.Machine.execDecideTimeout port s
  | .retryDelayEnd port => Sys2Proof.Machine.execRetryDelayEnd port s
  | .upAReentryDelay => Sys2Proof.Machine.execUpAReentryDelay s
  | .sleepAckTimeout port => Sys2Proof.Machine.execSleepAckTimeout port s
  | .wakeWindowOpen port => Sys2Proof.Machine.execWakeWindowOpen port s
  | .wakeWindowEnd port => Sys2Proof.Machine.execWakeWindowEnd port s
  | .wakeKeyDue port => Sys2Proof.Machine.execWakeKeyDue port s
  | .wakeBurst port => Sys2Proof.Machine.execWakeBurst port s
  | .wakeFailed port => Sys2Proof.Machine.execWakeFailed port s
  | .prbsTestEnd port streams => Sys2Proof.Machine.execPrbsTestEnd port streams s
  | .drivePresencePoll drive present => Sys2Proof.Machine.execDrivePresencePoll drive present s
  | .srstRelease drive => Sys2Proof.Machine.execSrstRelease drive s
  | .pcieLinkUp drive generation width => Sys2Proof.Machine.execPcieLinkUp drive generation width s
  | .pcieLinkTimeout drive => Sys2Proof.Machine.execPcieLinkTimeout drive s
  | .controllerReady drive identity => Sys2Proof.Machine.execControllerReady drive identity s
  | .nvmeCompletion drive id status data damage => Sys2Proof.Machine.execNvmeCompletion drive id status data damage s
  | .nvmeTimeout drive => Sys2Proof.Machine.execNvmeTimeout drive s
  | .checkpointPeriod => Sys2Proof.Machine.execCheckpointPeriod s
  | .groomerLine walk upsets => Sys2Proof.Machine.execGroomerLine walk upsets s
  | .remapLine => Sys2Proof.Machine.execRemapLine s
  | .bistSlice cls vcoreOk upsets first again => Sys2Proof.Machine.execBistSlice cls vcoreOk upsets first again s
  | .dwellEnd pixel active shadow before after first second third fourth => Sys2Proof.Machine.execDwellEnd pixel active shadow before after first second third fourth s
  | .monSettleEnd => Sys2Proof.Machine.execMonSettleEnd s
  | .monResult code => Sys2Proof.Machine.execMonResult code s
  | .excitationWindowEnd => Sys2Proof.Machine.execExcitationWindowEnd s
  | .monAfterEnd => Sys2Proof.Machine.execMonAfterEnd s
  | .marginPeriod cycles => Sys2Proof.Machine.execMarginPeriod cycles s
  | .openCheckDue tile => Sys2Proof.Machine.execOpenCheckDue tile s
  | .openCheckCompare tile above => Sys2Proof.Machine.execOpenCheckCompare tile above s
  | .openCheckEnd tile => Sys2Proof.Machine.execOpenCheckEnd tile s
  | .gatePeriodEdge tile => Sys2Proof.Machine.execGatePeriodEdge tile s
  | .gatedFlagEnd tile => Sys2Proof.Machine.execGatedFlagEnd tile s
  | .gainScheduleDue => Sys2Proof.Machine.execGainScheduleDue s
  | .gainChangeApply pixel => Sys2Proof.Machine.execGainChangeApply pixel s
  | .gainDeferTimeout pixel => Sys2Proof.Machine.execGainDeferTimeout pixel s
  | .rangeTransitionEnd pixel timing trigger => Sys2Proof.Machine.execRangeTransitionEnd pixel timing trigger s
  | .calRunStart => Sys2Proof.Machine.execCalRunStart s
  | .calRepeatEnd tile pulses => Sys2Proof.Machine.execCalRepeatEnd tile pulses s
  | .voterRequest member kind target data error => Sys2Proof.Machine.execVoterRequest member kind target data error s
  | .disagreeTimeout member => Sys2Proof.Machine.execDisagreeTimeout member s
  | .heartbeatLost => Sys2Proof.Machine.execHeartbeatLost s
  | .herringbonePass dirty differ => Sys2Proof.Machine.execHerringbonePass dirty differ s
  | .trialTimeLimit => Sys2Proof.Machine.execTrialTimeLimit s
  | .flashOperationDone wrong => Sys2Proof.Machine.execFlashOperationDone wrong s
  | .gatePulseEnd tile => Sys2Proof.Machine.execGatePulseEnd tile s
  | .acknowledgementWaiting port => Sys2Proof.Machine.execAcknowledgementWaiting port s
  | .calibrationPeriod tile => Sys2Proof.Machine.execCalibrationPeriod tile s
  | .clampConducts pixel conducts => Sys2Proof.Machine.execClampConducts pixel conducts s
  | .partnerFireWindowEnd => Sys2Proof.Machine.execPartnerFireWindowEnd s
  | .driveRemoved drive => Sys2Proof.Machine.execDriveRemoved drive s

end Sys2Proof.Machine
end

