-- ==== Sys2Proof/Machine/Tick.lean ====
section
/-! DEFINITION. The passing of one tick: the clocks, the counters that count ticks, and what waits for the next tick. -/

namespace Sys2Proof.Machine

/-! ### Clocks (R9, R144, R405) -/

/-- The time word of the next tick (R9, R144). -/
def TimeState.advance (t : TimeState) : TimeState :=
  if t.tick + 1 < ticksPerSecond then { t with tick := t.tick + 1 }
  else { t with tick := 0, seconds := (t.seconds + 1) % 2 ^ 40 }

/-- The tick counter runs: from the start at second 0, tick 0 on, and in Lodge once the loop is locked (R561, R571). -/
def Dev.timeRuns (d : Dev) : Bool := d.sys.imagesStarted || d.time.locked

/-- The clocks go on by one tick; the time since power on is taken until the images start (R572). -/
def Dev.advance (d : Dev) : Dev :=
  let since := if d.sys.imagesStarted then d.sys.sinceStart else d.sys.sinceStart + 1
  let d := if d.timeRuns then { d with time := d.time.advance } else d
  { d with sys := { d.sys with ticks := d.sys.ticks + 1, sinceStart := since } }

/-- The Offs of cause 0x0042 grow older by one tick (R573). -/
def Dev.ageOffs (d : Dev) : Dev := { d with sys := { d.sys with offs42 := d.sys.offs42.map (· + 1) } }

/-! ### Dead-time counters (R241) -/

/-- The present tick is dead: it lies in the 512 ticks from an accepted fire, busy hold refuses candidates, or a freeze
order would become a stub (R204, R237, R241). -/
def Dev.deadTick (d : Dev) : Bool :=
  (d.slalom.fires.any fun f => f ≤ d.globalNow && d.globalNow < f + 512) || d.holdsBusy || d.freeDesc = 0 || d.freeMem < 1048576

/-- A tick joins the spans of live ticks, latest first. -/
def addTick (l : List Span) (t : Nat) : List Span :=
  match l with
  | [] => [⟨t, some (t + 1)⟩]
  | s :: rest => if s.stop == some t then ⟨s.start, some (t + 1)⟩ :: rest else ⟨t, some (t + 1)⟩ :: l

/-- The present tick is counted, in Running (R241). -/
def Dev.countTick (d : Dev) : Dev :=
  if d.sys.state != .running then d
  else
    let armed := d.slalom.courses.any (·.armed)
    let dead := armed && d.deadTick
    let up := fun (b : Bool) (n : Nat) => (n + b2n b) % 2 ^ 64
    let d := d.modAcqCounters fun c => { c with
      armedTicks := up armed c.armedTicks, deadTicks := up dead c.deadTicks
      busyTicks := up d.acq.busySince.isSome c.busyTicks }
    let live := if armed && !dead then addTick d.acq.liveSpans d.sys.ticks else d.acq.liveSpans
    { d with acq := { d.acq with deadTotal := d.acq.deadTotal + b2n dead, liveSpans := live } }

/-! ### Level quantities of the monitor units (R536) -/

/-- The present value of a level quantity: entries of a crossing, parcels of a replay buffer, or descriptors in use. -/
def Dev.levelValue (d : Dev) (s : HmonSetting) : Nat :=
  if s.quantity = 10 then d.acq.segments.length
  else if s.quantity = 9 then (d.linkPort s.index).tx.held.length
  else if s.index = 0 then d.acq.orders.length
  else if s.index < 128 then (getD d.acq.hitFifo (s.index - 64) []).length
  else if s.index < 192 then (d.linkPort (s.index - 128)).rx.crossing.length
  else (getD d.acq.tagFifo (s.index - 192) []).length

/-- Units that watch a level take a value once per microsecond (R536). -/
def Dev.sampleLevels (d : Dev) : Dev :=
  if d.sys.ticks % 2560 != 0 then d
  else
    (List.range 32).foldl (fun d u =>
      match hmonSetting d.map.active u with
      | some s => if [4, 9, 10].contains s.quantity then d.unitTake u s (d.levelValue s) else d
      | none => d) d

/-! ### The tick -/

/-- FO falls 64 ticks after it rose (R205). -/
def Dev.foFalls (d : Dev) : Dev :=
  if d.slalom.foEnds.any (· ≤ d.sys.ticks) then d.modSlalom fun s => { s with foEnds := none } else d

/-- What the new tick brings: actions that waited for it, converters and replies that it settles, levels, the bring-up of the
drives, and STORE's own work. -/
def Dev.newTick (d : Dev) : Dev :=
  ((((d.patrolTurn.foFalls.tickBoundary.convCheck.settleGo).drainTest.sampleLevels).bringUp 0).bringUp 1).storeTurn

/-- One tick passes: at its end the courses step (R188), then the clocks go on, and the queued commands that fall due execute
before anything else that the new tick brings (R429, R444). In Off nothing runs, and only the time since the latest Offs goes on. -/
def State.tick (s : State) : State :=
  if s.dev.sys.state == .off then s.onDev (·.ageOffs)
  else
    let s := (s.onDev fun d => d.slalomTick.countTick.advance.ageOffs).resetTick
    let s := (s.runDue s.dev.cmd.timed.length).onDev (·.newTick)
    s.serve.drainList

end Sys2Proof.Machine
end

