-- ==== Sys2Proof/Safety.lean ====
section
/-! DEFINITION. The terms in which statements speak of the block: the canonical form of the flash, when a host command is
carried out at once, and how its answer stands in the state. -/

namespace Sys2Proof.Machine

/-- The flash lists each byte that is not blank once, by rising offset (R542). -/
def State.flashCanonical (s : State) : Bool := flashWf s.flash

/-- What R417 asks before an untimed command is carried out at once: its packet's path is heard, the bounds of R419 leave
room, and its opcode is legal in the device state while the control members run. -/
def Dev.carries (d : Dev) (h : CmdHeader) (legal : List DevState) : Bool :=
  d.hears h.path && d.flightRoom h && !h.timed && legal.contains d.sys.state && !d.triad.stopped

/-- The state in which a command's own effect begins: the command is in flight (R419), and what events it raises go behind its
reply (R444). -/
def State.taken (s : State) (h : CmdHeader) (opcode : Nat) : State := (s.onDev (·.takeFlight h opcode)).onDev (·.holdEvents)

/-- The state with the final reply of an untimed command formed, and the events of the command behind it (R422, R424, R444). -/
def State.replied (s : State) (h : CmdHeader) (opcode : Nat) (t : TimeWord) (st : Status) (data : List Byte) : State :=
  s.onDev fun d => (d.finish ⟨h, opcode, none, t⟩ st data).releaseEvents

/-- The state with the events of a command delivered whose reply comes later. -/
def State.released (s : State) : State := s.onDev (·.releaseEvents)

/-- A command that is carried out under `pre` answers with `st` and `data`, and `eff` is all that it does besides. -/
def Answers (i : Instr) (h : CmdHeader) (opcode : Nat) (legal : List DevState) (pre : State → Prop) (st : Status)
    (data : State → List Byte) (eff : State → State) : Prop :=
  ∀ s : State, s.dev.carries h legal = true → pre s →
    exec i s = .next ((eff (s.taken h opcode)).replied h opcode s.dev.now st (data (s.taken h opcode)))

/-- A command that is carried out under `pre` answers OK with data of which `post` holds, and `eff` is all that it does
besides. -/
def AnswersData (i : Instr) (h : CmdHeader) (opcode : Nat) (legal : List DevState) (pre : State → Prop)
    (post : State → List Byte → Prop) (eff : State → State) : Prop :=
  ∀ s : State, s.dev.carries h legal = true → pre s →
    ∃ data, post (s.taken h opcode) data ∧
      exec i s = .next ((eff (s.taken h opcode)).replied h opcode s.dev.now .ok data)

/-- A command that is carried out under `pre` has an effect of which `post` holds, and answers with `st` and no data. -/
def AnswersWith (i : Instr) (h : CmdHeader) (opcode : Nat) (legal : List DevState) (pre : State → Prop) (st : Status)
    (post : State → State → Prop) : Prop :=
  ∀ s : State, s.dev.carries h legal = true → pre s →
    ∃ t, post (s.taken h opcode) t ∧ exec i s = .next (t.replied h opcode s.dev.now st [])

/-- A command that is carried out under `pre` has the effect `eff`, and its reply follows later. -/
def AnswersLater (i : Instr) (h : CmdHeader) (opcode : Nat) (legal : List DevState) (pre : State → Prop)
    (eff : State → State) : Prop :=
  ∀ s : State, s.dev.carries h legal = true → pre s → exec i s = .next (eff (s.taken h opcode)).released

/-- The packet of R414 that carries a command of the service port: header, parameter bytes and trailer. -/
def packetBytes (h : CmdHeader) (opcode : Nat) (params : List Byte) : List Byte :=
  withCrc (leBytes 2 opcode ++ leBytes 2 h.tag
    ++ leBytes 2 (4096 * b2n h.timed + 8192 * b2n h.latePermitted + 16384 * b2n h.broadcast + 32768 * b2n h.noReply)
    ++ leBytes 2 params.length ++ leBytes 1 h.requester ++ zeros 3 ++ twBytes h.executeAt ++ zeros 8 ++ params)

/-- The 64 line bits that a running, delineated Schuss lane receives complete a message with a valid check (R356, R358). -/
def Dev.gets (d : Dev) (l received : Nat) (m : Schuss) : Prop :=
  ∃ x w, d.schuss[l]? = some x ∧ d.schussRuns l = true ∧ x.delineated = true ∧ (x.takeBits received).2 = some w ∧
    schussOk w = true ∧ schussOf (w / 4096) = m

/-- The receiver of a Schuss lane after the 64 line bits of a message with a valid check (R358, R366). -/
def Dev.afterBits (d : Dev) (l received : Nat) : Dev :=
  d.modSchuss l fun x => { (x.takeBits received).1 with run := 0, receivedCount := (x.receivedCount + 1) % 2 ^ 64 }

/-- The start conditions of R314 hold for a port that is out of the chairlift. -/
def Dev.startsAnew (d : Dev) (p : Nat) : Prop :=
  let x := d.port p
  wilurRole (portRole d.map.active p) = true ∧ x.knLocked = true ∧ x.delineated = true ∧ x.received.tx ≠ 5 ∧ d.endsMatch p = true

/-- Between two states a port has left the chairlift, or a test: it is out with both directions off, or, where the start
conditions hold, at the train step of C0 again (R314, R321). -/
def Dev.outOrAnew (d t : Dev) (p : Nat) : Prop :=
  let y := t.port p
  (y.step = .out ∧ y.tx = .off ∧ y.rx = .off ∨ y.step = .train ∧ y.tx = .train ∧ y.stage = 0) ∧
    (y.step = .train ↔ d.startsAnew p) ∧ y.test = none ∧ y.upDue = false

/-- Nothing else changes. -/
def unchanged (s : State) : State := s

/-- A change of the volatile state alone. -/
def devOnly (f : Dev → Dev) (s : State) : State := s.onDev f

/-- No condition. -/
def always (_ : State) : Prop := True

end Sys2Proof.Machine
end

