-- ==== Sys2Proof/Certificates/Slice0/Obligations.lean ====
section
/-! DEFINITION. The statements for the provers. A statement about a value or a behaviour that the spec leaves open says so
in its docstring and names the row of the assumption log. -/

open Sys2Proof Sys2Proof.Machine

/-! ### The machine -/

/-- A step takes the command at the front of the queue and runs it on the state with the queue's rest. The queue of commands
is the model's own. -/
def Obligations.StepRunsFront : Prop :=
  ∀ (c : Instr) (rest : List Instr) (s : State), step { s with pending := c :: rest } = exec c { s with pending := rest }

/-- That a step on an empty queue is one tick is the model's own choice (assumption 1). -/
def Obligations.EmptyQueueTick : Prop :=
  (∀ s : State, s.pending = [] → step s = .next s.tick) ∧
  (∀ s : State, s.pending = [] → s.dev.sys.state = .off →
    step s = .next { s with dev := { s.dev with sys := { s.dev.sys with offs42 := s.dev.sys.offs42.map (· + 1) } } }) ∧
  (∀ d : Dev, d.advance.sys.ticks = d.sys.ticks + 1) ∧
  (∀ d : Dev, d.timeRuns = true → d.time.tick < 2559999999 →
    d.advance.time = { d.time with tick := d.time.tick + 1 }) ∧
  (∀ d : Dev, d.timeRuns = true → 2559999999 ≤ d.time.tick →
    d.advance.time = { d.time with tick := 0, seconds := (d.time.seconds + 1) % 2 ^ 40 })

/-- No command stops the block, and none touches the queue. -/
def Obligations.EveryCommandAnswers : Prop :=
  ∀ (i : Instr) (s : State), ∃ t, exec i s = .next t ∧ t.pending = s.pending

/-- The list of flash bytes stays canonical over every step, so that equal flash contents are equal data. -/
def Obligations.FlashStaysCanonical : Prop :=
  ∀ s t : State, s.flashCanonical = true → step s = .next t → t.flashCanonical = true

/-- The base case of `FlashStaysCanonical`. -/
def Obligations.FlashCanonicalAtReset : Prop := State.reset.flashCanonical = true

/-- Host commands that erase or program queue their work; no byte changes before FLASH_OPERATION_DONE. -/
def Obligations.FlashFrame : Prop :=
  ∀ (i : Instr) (s t : State), exec i s = .next t →
    (match i with
      | .flashOperationDone _ | .imagesStarted | .lodge _ | .powerOn | .underVoltageLockOut | .overVoltageShutdown
      | .overVoltageRestart | .railFault _ _ | .railRestart => True
      | _ => t.flash = s.flash)

/-- The state after power-on reset, for the values that the spec gives. -/
def Obligations.ResetLeaves : Prop :=
  let d := State.reset.dev
  State.reset.pending = [] ∧ d.sys.state = .boot ∧ d.sys.previous = .off ∧ d.sys.cause = 0x0001 ∧
  d.map.active = none ∧ d.map.shadow = none ∧ d.map.swap = none ∧
  d.evt.mask = 0 ∧ d.evt.toUplink = true ∧ d.evt.toService = true ∧ d.evt.nmiPeriod = 1 ∧ d.evt.latches = [] ∧
  (d.evt.service.map fun i => fieldAt i.record.body 0 2) = [1800] ∧
  d.cmd.inFlight = [] ∧ d.cmd.timed = [] ∧ d.cmd.deferred = [] ∧ d.cmd.writeFree = 2 ∧
  d.time.seconds = 0 ∧ d.time.tick = 0 ∧ d.time.locked = false ∧
  d.triad.members.toList.map (·.mode) = [.voting, .voting, .voting]

/-! ### Packets, acceptance and replies -/

/-- The refusals of R417, in their order, for every host command. -/
def Obligations.RefusalsBeforeExecution : Prop :=
  ∀ (i : Instr) (h : CmdHeader) (k : CmdKind) (eff : Effect) (s : State), hostEff i = some (h, k, eff) →
    let heard := s.dev.sys.state ≠ .off ∧
      ((s.dev.sys.state = .lodge ∨ s.dev.sys.state = .boot) → h.path = .service)
    let room := s.dev.cmd.inFlight.length < 256 ∧
      (s.dev.cmd.inFlight.filter (·.1 == requesterOf h)).length < 64
    let timely := k.timable = true ∧ h.executeAt.tick ≤ 2559999999 ∧ h.executeAt.fine ≤ 127 ∧
      h.executeAt.globalTick ≤ s.dev.globalNow + 86400 * 2560000000
    let answers := s.dev.triad.stopped = false ∨ patrolAnswers.contains k.opcode = true
    (¬ heard → exec i s = .next s) ∧
    (heard → ¬ room → exec i s = .next (s.onDev (·.answer h k.opcode .busy false))) ∧
    (heard → room → h.timed = true → ¬ answers →
      exec i s = .next (s.onDev (·.answer h k.opcode .wrongState false))) ∧
    (heard → room → h.timed = true → answers → ¬ timely →
      exec i s = .next (s.onDev (·.answer h k.opcode .outOfRange false))) ∧
    (heard → room → h.timed = true → answers → timely → h.executeAt.le s.dev.now = true → h.latePermitted = false →
      exec i s = .next (s.onDev (·.answer h k.opcode .timePast false))) ∧
    (heard → room → h.timed = true → answers → timely → h.executeAt.le s.dev.now = false → 1024 ≤ s.dev.cmd.timed.length →
      exec i s = .next (s.onDev (·.answer h k.opcode .busy false))) ∧
    (heard → room → h.timed = false → (k.legal.contains s.dev.sys.state = false ∨ ¬ answers) →
      exec i s = .next (s.onDev fun d => (d.takeFlight h k.opcode).finish ⟨h, k.opcode, none, s.dev.now⟩ .wrongState []))

/-- The timed queue (R426 to R430). -/
def Obligations.TimedCommands : Prop :=
  (∀ (i : Instr) (h : CmdHeader) (k : CmdKind) (eff : Effect) (s : State), hostEff i = some (h, k, eff) →
    s.dev.hears h.path = true → s.dev.flightRoom h = true → h.timed = true → k.timable = true →
    (s.dev.triad.stopped = false ∨ patrolAnswers.contains k.opcode = true) →
    h.executeAt.tick ≤ 2559999999 → h.executeAt.fine ≤ 127 →
    h.executeAt.globalTick ≤ s.dev.globalNow + 86400 * 2560000000 →
    (h.executeAt.le s.dev.now = false → s.dev.cmd.timed.length < 1024 →
      exec i s = .next (s.onDev (·.enqueueTimed i false k h))) ∧
    (h.executeAt.le s.dev.now = true → h.latePermitted = true →
      exec i s = .next (runNow k { h with timed := false } (some (s.dev.globalNow - h.executeAt.globalTick)) eff
        (s.onDev (·.takeFlight h k.opcode))))) ∧
  (∀ (d : Dev) (i : Instr) (k : CmdKind) (h : CmdHeader),
    (d.enqueueTimed i false k h).cmd.timed = insertTimed d.cmd.timed ⟨i, h, k.opcode, false, false⟩) ∧
  (∀ (q : List Timed) (e : Timed), q.Pairwise (fun x y => x.header.executeAt.le y.header.executeAt = true) →
    (insertTimed q e).Pairwise (fun x y => x.header.executeAt.le y.header.executeAt = true) ∧
    (insertTimed q e).length = q.length + 1) ∧
  (∀ s : State, (∀ e ∈ s.dev.cmd.timed, e.passed = false ∧ e.header.executeAt.le s.dev.now = false) →
    exec .timedCommandDue s = .next s) ∧
  (∀ (s : State) (before after : List Timed) (e : Timed) (h : CmdHeader) (k : CmdKind) (eff : Effect),
    s.dev.cmd.timed = before ++ e :: after →
    (∀ x ∈ before, x ≠ e ∧ x.passed = false ∧ x.header.executeAt.le s.dev.now = false) →
    hostEff e.command = some (h, k, eff) → e.badLength = false →
    let left := s.onDev fun d => { d with cmd := { d.cmd with timed := before ++ after } }
    (e.passed = false → e.header.executeAt.le s.dev.now = true →
      exec .timedCommandDue s = .next (runNow k e.header none eff left)) ∧
    (e.passed = true → e.header.latePermitted = true →
      exec .timedCommandDue s =
        .next (runNow k e.header (some (s.dev.globalNow - e.header.executeAt.globalTick)) eff left)) ∧
    (e.passed = true → e.header.latePermitted = false →
      exec .timedCommandDue s =
        .next (left.onDev (·.finish ⟨e.header, e.opcode, none, s.dev.now⟩ .timePast [])))) ∧
  (∀ s : State, s.dev.sys.state ≠ .off →
    let t := (s.onDev fun d => d.slalomTick.countTick.advance.ageOffs).resetTick
    s.tick = (((t.runDue t.dev.cmd.timed.length).onDev (·.newTick)).serve).drainList) ∧
  (∀ (s t : State) (n : Nat), s.dev.dueTimed ≠ none → exec .timedCommandDue s = .next t → s.runDue (n + 1) = t.runDue n)

/-- Where an answer goes. -/
def Obligations.FinalReply : Prop :=
  ∀ (d : Dev) (h : CmdHeader) (op : Nat) (t : TimeWord) (st : Status) (data : List Byte),
    let d' := d.finish ⟨h, op, none, t⟩ st data
    let r := replyRec d op h.tag (requesterOf h) st false (st == .refusedBoundary) 0 t data
    d'.cmd = { d.cmd with
      inFlight := if h.timed = true ∧ h.path ≠ .service then d.cmd.inFlight else d.cmd.inFlight.erase (requesterOf h, h.tag, op)
      answered := modAt d.cmd.answered st.code fun n => (n + 1) % 2 ^ 64 } ∧
    (st ≠ .lateExecuted → h.noReply = false → h.path = .service →
      d'.evt = { d.evt with service := d'.evt.service } ∧ d'.mrg = d.mrg ∧ d'.link = d.link ∧
      (h.timed = false → d'.evt.service = d.evt.service ++ [⟨.reply, r⟩]) ∧
      ((∀ y ∈ d.evt.service, y.kind ≠ .interim h.tag op h.executeAt) → d'.evt.service = d.evt.service ++ [⟨.reply, r⟩]) ∧
      (∀ before y after, h.timed = true → d.evt.service = before ++ y :: after → y.kind = .interim h.tag op h.executeAt →
        (∀ z ∈ before, z.kind ≠ .interim h.tag op h.executeAt) → d'.evt.service = before ++ ⟨.reply, r⟩ :: after)) ∧
    (st ≠ .lateExecuted → h.noReply = false → ∀ p, h.path = .uplink p →
      d' = ((d.endFlight h op).countAnswer st).sendUp 0 r) ∧
    (h.noReply = true → st.success = true → d' = (d.endFlight h op).countAnswer st) ∧
    (h.noReply = true → st.success = false →
      d' = { (d.endFlight h op).countAnswer st with evt := { d.evt with
        ownCounts := modAt d.evt.ownCounts 1 fun n => (n + 1) % 2 ^ 32 } }.raiseLimited 1825 0 0
          [evNat op, evNat h.tag, evNat (requesterOf h), evNat st.code]) ∧
    d'.sys = d.sys ∧ d'.map = d.map ∧ d'.fe = d.fe ∧ d'.wfc = d.wfc ∧ d'.mon = d.mon ∧ d'.time = d.time ∧ d'.tdc = d.tdc ∧
    d'.slalom = d.slalom ∧ d'.schuss = d.schuss ∧ d'.acq = d.acq ∧ d'.cmp = d.cmp ∧ d'.lift = d.lift ∧
    d'.lanes = d.lanes ∧ d'.pair = d.pair ∧ d'.store = d.store ∧ { d'.integ with mem := d.integ.mem, injected := d.integ.injected } = d.integ ∧
    d'.pwr = d.pwr ∧ d'.triad = d.triad ∧ d'.cal = d.cal ∧ d'.bist = d.bist ∧ d'.hmon = d.hmon ∧ d'.fw = d.fw

/-- The layout of the records a command or an event brings about. -/
def Obligations.RecordLayouts : Prop :=
  (∀ (d : Dev) (op tag rq : Nat) (st : Status) (interim deferred : Bool) (late : Nat) (t : TimeWord) (data : List Byte),
    let b := (replyRec d op tag rq st interim deferred late t data).bytes
    b.length = 52 + data.length ∧ sliceBytes b 0 2 = [0x31, 0x01] ∧ sliceBytes b 10 6 = leBytes 6 (eventKey (coalesce d.map.active) t) ∧
    sliceBytes b 16 12 = twBytes t ∧ sliceBytes b 32 2 = leBytes 2 op ∧ sliceBytes b 34 2 = leBytes 2 tag ∧
    sliceBytes b 36 2 = leBytes 2 st.code ∧ sliceBytes b 38 1 = leBytes 1 rq ∧
    sliceBytes b 39 1 = leBytes 1 (b2n interim + 2 * b2n deferred) ∧ sliceBytes b 40 2 = leBytes 2 data.length ∧
    sliceBytes b 44 4 = leBytes 4 late ∧ sliceBytes b 48 data.length = data) ∧
  (∀ (d : Dev) (src kind seq lost : Nat) (rep : Bool) (t : TimeWord) (items : List EvItem),
    let data := (items.map EvItem.bytes).flatten
    let b := (eventRec d src kind seq lost rep t items).bytes
    b.length = 52 + data.length ∧ sliceBytes b 0 2 = [0x30, 0x01] ∧ sliceBytes b 16 12 = twBytes t ∧
    sliceBytes b 32 2 = leBytes 2 src ∧ sliceBytes b 34 1 = leBytes 1 (b2n (isNmi src) + 2 * b2n rep) ∧
    sliceBytes b 35 1 = leBytes 1 kind ∧ sliceBytes b 36 4 = leBytes 4 seq ∧ sliceBytes b 40 2 = leBytes 2 lost ∧
    sliceBytes b 42 2 = leBytes 2 data.length ∧ sliceBytes b 48 data.length = data) ∧
  (∀ r : Rec, r.poisoned = false → trailerOk r.bytes = true) ∧
  (∀ r : Rec, r.poisoned = true → trailerOk r.bytes = false)

/-- The common header loses no bit. -/
def Obligations.RecordRoundTrip : Prop :=
  ∀ r : Rec, r.typ < 256 → r.version < 256 → r.origin < 4096 → r.flags < 2 ^ 20 → r.eventKey < 2 ^ 48 →
    r.time.seconds < 2 ^ 40 → r.time.tick < 2 ^ 32 → r.time.fine < 256 → r.aux < 2 ^ 32 → 36 + r.body.length < 2 ^ 32 →
    Rec.ofBytes r.bytes = r

/-- The packet decoder, the checks 1 to 4 and the port's buffers lose nothing of a command. -/
def Obligations.ServiceWriteRunsPacket : Prop :=
  (∀ (s : State) (bs : List Byte) (b : Bool), ∃ t : State, exec (.serviceWrite bs b) s = .next t) ∧
  (∀ (s : State) (bs : List Byte), s.dev.sys.state ≠ .off → s.dev.cmd.writeFree ≠ 0 → ∃ t : State,
    exec (.serviceWrite bs false) s = .next t ∧ t.dev.cmd.writeFree = s.dev.cmd.writeFree - 1 ∧
    t.dev.cmd.packets = s.dev.cmd.packets ++ [(servicePort, bs, false)] ∧
    t.dev.cmd.svdo = s.dev.statusByte :: zeros bs.length) ∧
  ∀ (s : State) (h : CmdHeader) (op : Nat) (p : List Byte) (i : Instr) (k : CmdKind) (eff : Effect),
    h.path = .service → h.requester < 256 → h.tag < 65536 → h.broadcast = false →
    h.executeAt.seconds < 2 ^ 40 → h.executeAt.tick < 2 ^ 32 → h.executeAt.fine < 256 → op < 65536 → p.length ≤ 1024 →
    parseCommand op h p = .command i → hostEff i = some (h, k, eff) →
    s.dev.sys.state ≠ .off → s.dev.cmd.packets = [] → (s.dev.cmd.writeFree = 1 ∨ s.dev.cmd.writeFree = 2) →
    let bs := packetBytes h op p
    let s' := s.onDev fun d => (d.onSvdo (zeros (36 + p.length))).deliverInput (.packet 255 bs)
    (∃ t : State, exec (.serviceWrite bs true) s = .next t ∧ exec i s' = .next t ∧ t = hostRun i k h eff s') ∧
    ∀ (t : State) (st : Status) (data : List Byte), s.dev.carries h k.legal = true →
      eff ⟨h, k.opcode, none, s.dev.now⟩ (s'.taken h k.opcode) = (t, .done st data) →
      exec (.serviceWrite bs true) s = .next (t.replied h k.opcode s.dev.now st data)

/-- The first checks of R417 and the write buffers of R433. -/
def Obligations.ServiceWriteRefusals : Prop :=
  (∀ (s : State) (bs : List Byte), s.dev.sys.state ≠ .off → s.dev.cmd.packets = [] →
    (s.dev.cmd.writeFree = 1 ∨ s.dev.cmd.writeFree = 2) →
    let d := (s.dev.onSvdo (zeros bs.length)).deliverInput (.packet 255 bs)
    let h := packetHeader servicePort bs
    let op := fieldAt bs 0 2
    let n := fieldAt bs 6 2
    let p := (bs.drop 32).take n
    (trailerOk bs = false →
      exec (.serviceWrite bs true) s = .next { s with dev := d.answer h op .badCrc false }) ∧
    (trailerOk bs = true → (bs.length ≠ 36 + n ∨ 1024 < n) →
      exec (.serviceWrite bs true) s = .next { s with dev := d.answer h op .outOfRange false }) ∧
    (trailerOk bs = true → bs.length = 36 + n → n ≤ 1024 → addressOk s.dev servicePort bs = false →
      exec (.serviceWrite bs true) s = .next { s with dev := d.answer h op .outOfRange false }) ∧
    (trailerOk bs = true → bs.length = 36 + n → n ≤ 1024 → addressOk s.dev servicePort bs = true →
      (parseCommand op h p = .unknown →
        exec (.serviceWrite bs true) s = .next { s with dev := d.answer h op .unknownOpcode false }) ∧
      (∀ i k eff, parseCommand op h p = .badLength i → hostEff i = some (h, k, eff) →
        s.dev.carries h k.legal = true →
        exec (.serviceWrite bs true) s =
          .next ((({ s with dev := d } : State).taken h k.opcode).replied h k.opcode s.dev.now .outOfRange [])))) ∧
  (∀ (s : State) (bs : List Byte) (b : Bool), s.dev.sys.state ≠ .off → s.dev.cmd.packets = [] → s.dev.cmd.writeFree = 0 →
    exec (.serviceWrite bs b) s = .next (s.onDev fun d =>
      { d.onSvdo (zeros bs.length) with evt := { d.evt with
        ownCounts := modAt d.evt.ownCounts 3 fun n => (n + 1) % 2 ^ 32 } }.raiseLimited 1827 0 0
          [evNat (getD (modAt d.evt.ownCounts 3 fun n => (n + 1) % 2 ^ 32) 3 0)])) ∧
  (∀ (s : State) (bs : List Byte), s.dev.sys.state ≠ .off → s.dev.cmd.writeFree ≠ 0 →
    exec (.serviceWrite bs false) s = .next (s.onDev fun d =>
      { d.onSvdo (zeros bs.length) with cmd := { (d.onSvdo (zeros bs.length)).cmd with
        writeFree := d.cmd.writeFree - 1, packets := d.cmd.packets ++ [(servicePort, bs, false)] } }))

/-- The transactions of the service port that bring no packet. -/
def Obligations.ServicePortReads : Prop :=
  (∀ (s : State) (n : Nat), s.dev.sys.state ≠ .off →
    (s.dev.evt.service = [] →
      exec (.serviceRead n) s = .next (s.onDev fun d => d.onSvdo ((zeros 4).take n))) ∧
    (∀ x rest, s.dev.evt.service = x :: rest →
      exec (.serviceRead n) s = .next (s.onDev fun d =>
        let out := leBytes 4 x.record.bytes.length ++ x.record.bytes
        { d.onSvdo (out.take n) with evt := { d.evt with
          service := if 4 + x.record.bytes.length ≤ n then rest else d.evt.service } })) ∧
    exec (.serviceStatus n) s = .next (s.onDev fun d => d.onSvdo ((leBytes 2 d.evt.service.length ++ leBytes 1 d.cmd.writeFree
      ++ leBytes 1 (d.cmd.inFlight.filter (·.1 == 255)).length ++ leBytes 4 d.evt.eventsLost).take n))) ∧
  (∀ d : Dev, d.statusByte.getLsbD 0 = !d.evt.service.isEmpty ∧ d.statusByte.getLsbD 1 = (d.cmd.writeFree != 0) ∧
    d.statusByte.getLsbD 2 = !d.evt.latches.isEmpty ∧ d.statusByte.getLsbD 3 = (d.sys.state == .lodge) ∧
    d.statusByte.toNat < 16) ∧
  (∀ (s : State) (code : List Byte), s.dev.sys.state ≠ .off →
    (code ≠ [0x4C, 0x4F, 0x44, 0x47] → exec (.lodge code) s = .next (s.onDev (·.onSvdo (zeros code.length)))) ∧
    (code = [0x4C, 0x4F, 0x44, 0x47] → ∃ t, exec (.lodge code) s = .next t ∧ t.dev.sys.state = .lodge ∧
      t.dev.sys.cause = 0x0007 ∧ t.dev.sys.previous = s.dev.sys.state ∧ t.dev.map.active = none ∧ t.dev.time.locked = true ∧
      t.dev.cmd.timed = [] ∧ t.dev.cmd.inFlight = [] ∧ t.dev.bist.fuses = s.dev.bist.fuses)) ∧
  (∀ (s : State) (n : Nat) (bs : List Byte) (b : Bool), s.dev.sys.state = .off →
    exec (.serviceRead n) s = .next s ∧ exec (.serviceStatus n) s = .next s ∧ exec (.serviceWrite bs b) s = .next s ∧
    exec (.lodge bs) s = .next s)

/-! ### Events -/

/-- R11. -/
def Obligations.EventKeyRule : Prop :=
  (∀ (w : Nat) (t : TimeWord), 1 ≤ w → w ≤ 25600 → t.tick ≤ 2559999999 →
    eventKey w t / 2 ^ 32 = t.seconds % 65536 ∧ eventKey w t % 2 ^ 32 = t.tick / w * w ∧ eventKey w t < 2 ^ 48 ∧
    eventKey w t % 2 ^ 32 ≤ t.tick ∧ t.tick < eventKey w t % 2 ^ 32 + w) ∧
  (∀ (w : Nat) (t u : TimeWord), 1 ≤ w → w ≤ 25600 → t.tick ≤ 2559999999 → u.tick ≤ 2559999999 → t.seconds = u.seconds →
    (eventKey w t = eventKey w u ↔ t.tick / w = u.tick / w)) ∧
  coalesce none = 64 ∧ eventKey 64 ⟨1000000, 1234567890, 77⟩ = 0x4240499602C0

/-- What an event leaves, for every source, kind and items. -/
def Obligations.RaisedEvent : Prop :=
  ∀ (d : Dev) (src kind : Nat) (items : List EvItem),
    let counted : EvtState := { d.evt with raised := modAt d.evt.raised (band src) fun n => (n + 1) % 2 ^ 64 }
    let seq := (d.evt.eventSeq + 1) % 2 ^ 32
    let free := 128 - d.evt.service.length
    let queued : EvtState := { counted with
      eventSeq := seq, lostSince := 0
      service := d.evt.service ++
        [⟨.event, eventRec d src kind seq (saturate 16 d.evt.lostSince) false d.now items⟩] }
    let dropped : EvtState := { counted with
      eventSeq := seq, lostSince := satInc 16 d.evt.lostSince, eventsLost := (d.evt.eventsLost + 1) % 2 ^ 32
      droppedSvc := (d.evt.droppedSvc + 1) % 2 ^ 64 }
    let latched : List Latch := d.evt.latches.filter (·.source != src) ++ [⟨src, d.now, seq, items, d.sys.ticks⟩]
    let up := hasUp d.map.active || hasStore d.map.active
    (d.sys.state = .off → d.raise src kind items = d) ∧
    (d.sys.state ≠ .off → isNmi src = false → d.evt.mask.getLsbD src = true →
      d.raise src kind items =
        { d with evt := { counted with masked := modAt d.evt.masked (band src) fun n => (n + 1) % 2 ^ 64 } }) ∧
    (d.evt.hold = none → d.sys.state ≠ .off → isNmi src = false → d.evt.mask.getLsbD src = false → (up && d.evt.toUplink) = false →
      (64 < free → d.raise src kind items = { d with evt := queued }) ∧
      (free ≤ 64 → d.raise src kind items = { d with evt := dropped })) ∧
    (d.evt.hold = none → d.sys.state ≠ .off → isNmi src = true → up = false →
      (8 < free → d.raise src kind items = { d with evt := { queued with latches := latched } }) ∧
      (free ≤ 8 → d.raise src kind items = { d with evt := { dropped with latches := latched } })) ∧
    (∀ q : List HeldEvent, d.evt.hold = some q → d.sys.state ≠ .off →
      (isNmi src = true ∨ d.evt.mask.getLsbD src = false) → d.raise src kind items = { d with evt := { counted with
        eventSeq := seq, hold := some (q ++ [⟨src, kind, seq, d.now, items⟩])
        latches := if isNmi src then latched else d.evt.latches } }) ∧
    (∀ (e : HeldEvent) (q : List HeldEvent), d.evt.hold = some (e :: q) → (d.uplinkRuns = false) →
      d.releaseEvents = (e :: q).foldl (fun d e => d.serviceEvent e.source e.kind e.seq false e.time e.items)
        { d with evt := { d.evt with hold := none } }) ∧
    (d.evt.hold = none → d.sys.state ≠ .off → isNmi src = false → d.evt.mask.getLsbD src = false → up = true →
      d.evt.toUplink = true →
      let r := (eventRec d src kind seq 0 false d.now items).bytes
      chainBuffers r.length ≤ d.localFree → d.mrg.waiting = [] →
      (∀ c, d.waitsForBuffer c = false) →
      ((d.upStream 0).items.filter fun i => i.recs.any (·.ownMarker)) = [] →
      (d.upStream 0).items.length < upItems d.map.active 0 →
      (∃ q : QRec, ((d.raise src kind items).upStream 0).items = (d.upStream 0).items ++ [⟨[q]⟩] ∧ q.rid = d.mrg.nextRid ∧
        q.bytes = r ∧ q.key = (eventRec d src kind seq 0 false d.now items).eventKey ∧ q.pool = .loc ∧
        q.chain.length = chainBuffers r.length) ∧
      (d.evt.toService = false → (d.raise src kind items).evt = { counted with eventSeq := seq }) ∧
      (d.evt.toService = true → 64 < free → (d.raise src kind items).evt = queued))

/-- R598: the interval is counted in ticks since Boot. -/
def Obligations.OncePerSecond : Prop :=
  (∀ (d : Dev) (src kind key : Nat) (items : List EvItem),
    ((∃ i ∈ d.evt.intervals, i.source = src ∧ i.kind = kind ∧ i.key = key ∧ d.sys.ticks - i.raisedAt < 2560000000) →
      d.raiseLimited src kind key items = d) ∧
    ((∀ i ∈ d.evt.intervals, i.source = src → i.kind = kind → i.key = key → 2560000000 ≤ d.sys.ticks - i.raisedAt) →
      d.raiseLimited src kind key items = (d.startInterval src kind key).raise src kind items ∧
      (⟨src, kind, key, d.sys.ticks⟩ : Interval) ∈ (d.startInterval src kind key).evt.intervals ∧
      (∀ i : Interval, (i.source = src ∧ i.kind = kind ∧ i.key = key) ∨
        (i ∈ (d.startInterval src kind key).evt.intervals ↔ i ∈ d.evt.intervals)))) ∧
  (∀ (d : Dev) (src kind key seconds tick : Nat),
    ({ d with time := { d.time with seconds := seconds, tick := tick } } : Dev).intervalPassed src kind key =
      d.intervalPassed src kind key)

/-- The event commands, each with its opcode, legal states, effect and answer. -/
def Obligations.EventCommands : Prop :=
  ∀ h : CmdHeader,
    (∀ first last set : Nat, first ≤ last → last ≤ 2047 → set ≤ 1 →
      Answers (.evtMask h first last set) h 0x0F01 upStates always .ok
        (fun s => maskBytes (maskRange s.dev.evt.mask first last (set == 1)) first last)
        (devOnly fun d => { d with evt := { d.evt with mask := maskRange d.evt.mask first last (set == 1) } })) ∧
    (∀ (m : BitVec 2048) (first last n : Nat) (b : Bool), n < 2048 →
      (maskRange m first last b).getLsbD n =
        (if first ≤ n ∧ n ≤ last ∧ isNmi n = false ∧ n < 2016 then b else m.getLsbD n) ∧
      (maskBytes m first last).length = (last + 1 - first + 7) / 8) ∧
    (∀ first last set : Nat, (last < first ∨ 2047 < last ∨ 1 < set) →
      Answers (.evtMask h first last set) h 0x0F01 upStates always .outOfRange (fun _ => []) unchanged) ∧
    (∀ source : Nat, source ∈ [1536, 1537, 1600, 1601, 1792] →
      Answers (.evtAck h source) h 0x0F02 [.boot, .standby, .ready, .running, .quiesce, .faultHold] always .ok (fun _ => [])
        (devOnly fun d => { d with evt := { d.evt with latches := d.evt.latches.filter (·.source != source) } })) ∧
    (∀ source : Nat, source ∉ [1536, 1537, 1600, 1601, 1792] →
      Answers (.evtAck h source) h 0x0F02 [.boot, .standby, .ready, .running, .quiesce, .faultHold] always .outOfRange
        (fun _ => []) unchanged) ∧
    (∀ (up svc : Bool) (period : Nat), 1 ≤ period → period ≤ 60 →
      Answers (.evtSetDelivery h up svc period) h 0x0F04 upStates always .ok (fun _ => [])
        (devOnly fun d => { d with evt := { d.evt with toUplink := up, toService := svc, nmiPeriod := period } })) ∧
    (∀ (up svc : Bool) (period : Nat), (period = 0 ∨ 60 < period) →
      Answers (.evtSetDelivery h up svc period) h 0x0F04 upStates always .outOfRange (fun _ => []) unchanged) ∧
    AnswersData (.evtStatus h) h 0x0F00 [.boot, .standby, .ready, .running, .quiesce, .faultHold] always
      (fun s b => b.length = 292 ∧ sliceBytes b 8 4 = leBytes 4 s.dev.evt.eventSeq ∧
        sliceBytes b 12 2 = leBytes 2 s.dev.cmd.timed.length ∧ sliceBytes b 14 2 = leBytes 2 s.dev.cmd.deferred.length ∧
        sliceBytes b 16 2 = leBytes 2 s.dev.evt.service.length) unchanged ∧
    AnswersData (.evtCounters h false) h 0x0F03 upStates always
      (fun s b => b.length = 520 ∧ b = evtCountersData s.dev) unchanged ∧
    AnswersData (.evtCounters h true) h 0x0F03 upStates always (fun s b => b.length = 520 ∧ b = evtCountersData s.dev)
      (devOnly fun d => { d with
        evt := { d.evt with raised := fill 16 0, masked := fill 16 0, droppedUp := 0, droppedSvc := 0 }
        cmd := { d.cmd with answered := fill 30 0, peakTimed := 0, peakDeferred := 0 } })

/-- The repetition of R440. -/
def Obligations.NmiRepetition : Prop :=
  ∀ (s : State) (source : Nat),
    ((∀ l ∈ s.dev.evt.latches, l.source ≠ source) → exec (.nmiRepeat source) s = .next s) ∧
    (∀ l : Latch, s.dev.evt.latches.find? (·.source == source) = some l →
      (s.dev.sys.ticks - l.last < s.dev.evt.nmiPeriod * 2560000000 → exec (.nmiRepeat source) s = .next s) ∧
      (s.dev.evt.nmiPeriod * 2560000000 ≤ s.dev.sys.ticks - l.last → isNmi source = true →
        (hasUp s.dev.map.active || hasStore s.dev.map.active) = false →
        let latches := s.dev.evt.latches.filter (·.source != source) ++ [{ l with last := s.dev.sys.ticks }]
        (8 < 128 - s.dev.evt.service.length →
          exec (.nmiRepeat source) s = .next (s.onDev fun d => { d with evt := { d.evt with
            service := d.evt.service ++
              [⟨.event, eventRec d source 0 l.seq (saturate 16 d.evt.lostSince) true l.time l.items⟩]
            lostSince := 0, latches := latches } })) ∧
        (128 - s.dev.evt.service.length ≤ 8 →
          exec (.nmiRepeat source) s = .next (s.onDev fun d => { d with evt := { d.evt with
            lostSince := satInc 16 d.evt.lostSince, eventsLost := (d.evt.eventsLost + 1) % 2 ^ 32
            droppedSvc := (d.evt.droppedSvc + 1) % 2 ^ 64, latches := latches } }))))

/-! ### Commands that read -/

/-- The status replies. The counter of free values that the second group moves is the model's own (log entry 2). -/
def Obligations.StatusReads : Prop :=
  ∀ h : CmdHeader,
    AnswersData (.sysIdentify h) h 0x0000 anyState always (fun s b => b.length = 48 ∧
      sliceBytes b 0 8 = textBytes "NYLVAIDE" ∧ sliceBytes b 18 1 = leBytes 1 s.dev.sys.state.code) unchanged ∧
    AnswersData (.sysState h) h 0x0001 anyState always (fun s b => b.length = 24 ∧
      sliceBytes b 0 1 = leBytes 1 s.dev.sys.state.code ∧ sliceBytes b 1 1 = leBytes 1 s.dev.sys.previous.code ∧
      sliceBytes b 2 2 = leBytes 2 s.dev.sys.cause ∧ sliceBytes b 4 12 = twBytes s.dev.sys.since ∧
      sliceBytes b 16 1 = leBytes 1 s.dev.pwr.level) unchanged ∧
    AnswersData (.sysTriadStatus h) h 0x0004 anyState always (fun s b => b.length = 32 ∧
      sliceBytes b 0 1 = leBytes 1 (s.dev.member 0).mode.code ∧ sliceBytes b 4 4 = leBytes 4 (s.dev.member 0).fencedTotal ∧
      sliceBytes b 8 1 = leBytes 1 (s.dev.member 1).mode.code) unchanged ∧
    AnswersData (.sysUplinkStatus h) h 0x0006 upStates always (fun s b => b.length = 16 ∧
      sliceBytes b 0 1 = leBytes 1 (s.dev.activeUplink.getD 255) ∧
      sliceBytes b 4 4 = leBytes 4 s.dev.pair.mismatches ∧ sliceBytes b 8 4 = leBytes 4 s.dev.pair.switches) unchanged ∧
    AnswersData (.monStatus h) h 0x0310 upStates always (fun s b => b.length = 24 ∧
      sliceBytes b 0 1 = leBytes 1 (b2n s.dev.mon.lowPower) ∧ sliceBytes b 8 4 = leBytes 4 s.dev.mon.pass) unchanged ∧
    AnswersData (.timeStatus h) h 0x0400 bootStates always (fun s b => b.length = 64 ∧
      sliceBytes b 0 1 = leBytes 1 s.dev.time.inUse ∧ sliceBytes b 1 1 = leBytes 1 s.dev.time.code ∧
      sliceBytes b 32 12 = twBytes s.dev.now) unchanged ∧
    AnswersData (.slalomStatus h) h 0x0500 upStates always (fun s b =>
      b.length = 76 + 2 * min 2010 s.dev.slalom.busySet.length ∧ sliceBytes b 0 2 = leBytes 2 s.dev.armedMask) unchanged ∧
    AnswersData (.storeStatus h) h 0x0A00 upStates always (fun s b => b.length = 80 ∧
      sliceBytes b 40 8 = leBytes 8 s.dev.store.head ∧ sliceBytes b 48 8 = leBytes 8 s.dev.store.tail ∧
      sliceBytes b 56 8 = leBytes 8 s.dev.store.fwdSeq) unchanged ∧
    AnswersData (.integStatus h) h 0x0B00 bootStates always (fun s b =>
      b.length = 264 + 8 * min 479 s.dev.integ.histories.length ∧
      sliceBytes b 32 1 = leBytes 1 (s.dev.integ.log.toList.filter Option.isSome).length) unchanged ∧
    AnswersData (.integLogRead h) h 0x0B01 upStates always (fun s b => b.length = 1536 ∧ b = integLogData s.dev) unchanged ∧
    AnswersData (.integRemapRead h) h 0x0B03 upStates always (fun s b => b.length = 128 ∧ b = remapData s.dev) unchanged ∧
    AnswersData (.bistStatus h) h 0x0D11 bootStates always (fun s b => b.length = 32 ∧
      sliceBytes b 0 8 = leBytes 8 s.dev.bist.tested ∧ sliceBytes b 8 8 = leBytes 8 s.dev.bist.failed ∧
      sliceBytes b 16 8 = leBytes 8 s.dev.bist.skipped) unchanged ∧
    AnswersData (.fwStatus h) h 0x0E00 anyState always (fun s b => b.length = 32 ∧
      sliceBytes b 4 4 = leBytes 4 (slotVersion s.flash 0 0) ∧ sliceBytes b 8 4 = leBytes 4 (slotVersion s.flash 0 1)) unchanged ∧
    (let free := devOnly fun d => { d with free := d.free + 1 }
     AnswersData (.mapStatus h) h 0x0100 upStates always (fun s b => b.length = 64 ∧
       sliceBytes b 0 1 = leBytes 1 (s.dev.map.active.elim 255 (·.slot)) ∧
       sliceBytes b 16 1 = leBytes 1 (s.dev.map.shadow.elim 255 (·.slot)) ∧
       sliceBytes b 32 1 = leBytes 1 (b2n s.dev.map.swap.isSome)) free ∧
     AnswersData (.acqStatus h) h 0x0600 upStates always (fun s b => b.length = 40 ∧
       sliceBytes b 0 4 = leBytes 4 s.dev.freeDesc ∧ sliceBytes b 4 4 = leBytes 4 s.dev.freeMem ∧
       (s.dev.acq.nextSeq ≠ 1 → sliceBytes b 12 4 = leBytes 4 (s.dev.acq.nextSeq - 1))) free ∧
     AnswersData (.cmpStatus h) h 0x0700 upStates always (fun s b => b.length = 152 ∧
       (∀ j, s.dev.cmp.job = some j → sliceBytes b 0 4 = leBytes 4 s.dev.cmp.seq ∧ sliceBytes b 4 2 = leBytes 2 j.chain.length ∧
         sliceBytes b 8 8 = leBytes 8 (j.wait.elim 0 fun w => 2 ^ w.pipeline)) ∧
       (s.dev.cmp.job = none → sliceBytes b 4 2 = [0, 0] ∧ sliceBytes b 8 8 = zeros 8)) free ∧
     AnswersData (.pwrStatus h) h 0x0C00 bootStates always (fun s b => b.length = 32 ∧
       sliceBytes b 0 1 = leBytes 1 s.dev.pwr.level ∧ sliceBytes b 1 1 = leBytes 1 s.dev.pwr.requested ∧
       sliceBytes b 3 1 = leBytes 1 s.dev.pwr.ceilingCause) free ∧
     AnswersData (.calStatus h) h 0x0D00 upStates always (fun s b => b.length = 1536 ∧
       sliceBytes b 0 24 = calStatusEntry s.dev 0) free)

/-- R450, over every paged row. The counter of free values is the model's own (log entry 2). -/
def Obligations.PagedReads : Prop :=
  (∀ (start total size : Nat) (entry : Nat → List Byte), 0 < size → total ≤ 65535 → start ≤ 65535 →
    (∀ k, start ≤ k → k < total → (entry k).length = size) →
    let b := page start total size entry
    let n := min (total - start) (4088 / size)
    sliceBytes b 0 2 = leBytes 2 start ∧ sliceBytes b 2 2 = leBytes 2 n ∧ sliceBytes b 4 2 = leBytes 2 total ∧
    sliceBytes b 6 2 = [0, 0] ∧ b.length = 8 + n * size ∧ n * size ≤ 4088 ∧ (total ≤ start → n = 0) ∧
    (∀ k < n, sliceBytes b (8 + k * size) size = entry (start + k))) ∧
  ∀ h : CmdHeader,
    (let free := devOnly fun d => { d with free := d.free + 1 }
     (∀ start < 1024, Answers (.feStatus h start) h 0x0200 upStates always .ok
        (fun s => page start 1024 16 (fePixelEntry s.dev)) free) ∧
     (∀ start, 1024 ≤ start → start ≤ 1087 → Answers (.feStatus h start) h 0x0200 upStates always .ok
        (fun s => leBytes 2 start ++ (page (start - 1024) 64 16 (feTileEntry s.dev)).drop 2) free) ∧
     (∀ start, 1087 < start → Answers (.feStatus h start) h 0x0200 upStates always .outOfRange (fun _ => []) unchanged) ∧
     (∀ start, AnswersData (.mrgStatus h start) h 0x0800 upStates always
        (fun s b => ∃ fixed, fixed.length = 56 ∧
          b = fixed ++ page start (mapCount s.dev.map.active 0x0049 0) 8 (creditStatus s.dev)) free)) ∧
    (∀ start, Answers (.wfcStatus h start) h 0x0300 upStates always .ok
      (fun s => page start 1024 8 (wfcEntry s.dev)) unchanged) ∧
    (∀ start, Answers (.tdcStatus h start) h 0x0420 upStates always .ok
      (fun s => page start 1024 4 (tdcEntry s.dev)) unchanged) ∧
    (∀ start, Answers (.sysTimedList h start) h 0x0008 upStates always .ok
      (fun s => page start s.dev.cmd.timed.length 24 (timedEntry s.dev.cmd.timed)) unchanged) ∧
    (∀ d : Dev, (∀ p < 1024, (fePixelEntry d p).length = 16 ∧ (wfcEntry d p).length = 8 ∧ (tdcEntry d p).length = 4) ∧
      (∀ n < 64, (feTileEntry d n).length = 16) ∧ (∀ k, (creditStatus d k).length = 8) ∧
      (∀ k < d.cmd.timed.length, (timedEntry d.cmd.timed k).length = 24))

/-- R451, over every counter row but EVT.COUNTERS, which has its own statement. -/
def Obligations.CounterReads : Prop :=
  ∀ h : CmdHeader,
    (∀ clear : Bool,
      AnswersData (.slalomCounters h clear) h 0x0504 upStates always
        (fun s b => b.length = 992 ∧ b = slalomCountersData s.dev)
        (if clear then devOnly Dev.clearSlalomCounters else unchanged) ∧
      AnswersData (.acqCounters h clear) h 0x0601 upStates always
        (fun s b => b.length = 144 ∧ b = acqCountersData s.dev)
        (if clear then devOnly fun d => { d with acq := { d.acq with counters := AcqCounters.zero } } else unchanged) ∧
      AnswersData (.cmpCounters h clear) h 0x0701 upStates always
        (fun s b => b.length = 96 ∧ b = cmpCountersData s.dev)
        (if clear then devOnly Dev.clearCmpCounters else unchanged) ∧
      AnswersData (.mrgCounters h clear) h 0x0801 upStates always
        (fun s b => b.length = 176 ∧ b = mrgCountersData s.dev)
        (if clear then devOnly fun d => { d with mrg := { d.mrg with counters := MrgCounters.zero } } else unchanged) ∧
      AnswersData (.storeCounters h clear) h 0x0A01 upStates always
        (fun s b => b.length = 88 ∧ b = s.dev.store.counters.toBytes)
        (if clear then devOnly fun d => { d with store := { d.store with counters := StoreCounters.zero } } else unchanged) ∧
      (∀ lane ≤ 31, AnswersData (.laneCounters h lane clear) h 0x0901 upStates always
        (fun s b => b.length = 56 ∧ b = (getD s.dev.lanes lane Lane.initial).counters.bytes)
        (if clear then devOnly fun d => d.modLane lane fun l => { l with counters := l.counters.clear } else unchanged)) ∧
      (∀ lane, 31 < lane →
        Answers (.laneCounters h lane clear) h 0x0901 upStates always .outOfRange (fun _ => []) unchanged) ∧
      (∀ port ≤ 7, AnswersData (.laneLinkStatus h port clear) h 0x0908 upStates always
        (fun s b => b.length = 64 ∧ b = linkStatusPort s.dev port ∧
          sliceBytes b 0 2 = leBytes 2 (s.dev.linkPort port).rx.expected)
        (if clear then fun s => s.onDev (·.modLink port (LinkPort.clear s.dev.sys.ticks)) else unchanged)) ∧
      (∀ target, 8 ≤ target → target ≤ 11 → AnswersData (.laneLinkStatus h target clear) h 0x0908 upStates always
        (fun s b => b.length = 40 ∧ ∃ x, s.dev.schussLane (target - 8) = some x ∧ b = linkStatusSchuss x)
        (if clear then devOnly (·.modSchuss (target - 8) fun x =>
          { x with sentCount := 0, receivedCount := 0, discardedCount := 0 }) else unchanged)) ∧
      (∀ target, 11 < target →
        Answers (.laneLinkStatus h target clear) h 0x0908 upStates always .outOfRange (fun _ => []) unchanged)) ∧
    (∀ d : Dev, (∀ c ∈ d.clearSlalomCounters.slalom.counters.toList, c.completions = 0 ∧ c.accepted = 0 ∧ c.merged = 0 ∧
        c.notArmed = 0 ∧ c.rearm = 0 ∧ c.cap = 0 ∧ c.busyHold = 0) ∧
      (∀ l ∈ d.clearSlalomCounters.schuss.toList, l.slalomSent = 0 ∧ l.slalomRelayed = 0 ∧ l.slalomDropped = 0) ∧
      d.clearSlalomCounters.slalom.courses = d.slalom.courses ∧ d.clearSlalomCounters.acq = d.acq) ∧
    (∀ now (l : LinkPort), (l.clear now).counters = ⟨0, 0, 0, 0, 0, 0⟩ ∧ (l.clear now).rx = l.rx ∧
      (l.clear now).tx.base = l.tx.base ∧ (l.clear now).tx.held = l.tx.held)

/-- The indexed reads; what FLASH.READ returns is said for a flash in the form that every step keeps. -/
def Obligations.IndexedReads : Prop :=
  ∀ h : CmdHeader,
    (∀ pixel < 1024,
      AnswersData (.wfcReadCal h pixel) h 0x0303 upStates always
        (fun s b => b.length = 108 ∧ ∃ w, s.dev.wfc[pixel]? = some w ∧ b = wfcCalData w) unchanged ∧
      AnswersData (.tdcReadCal h pixel) h 0x0421 upStates always (fun s b => b.length = 40 ∧
        ∃ t, s.dev.tdcPixel pixel = some t ∧ b = tdcCalData pixel s.dev.free t)
        (devOnly fun d => { d with free := d.free + 1 }) ∧
      AnswersData (.calRead h pixel) h 0x0D02 upStates always
        (fun s b => b.length = 36 ∧ sliceBytes b 0 2 = leBytes 2 pixel ∧
          ∃ x, s.dev.cal.pixels[pixel]? = some x ∧ b.drop 4 = (x.charges.toList.map (leBytes 4)).flatten) unchanged) ∧
    (∀ pixel, 1024 ≤ pixel →
      Answers (.wfcReadCal h pixel) h 0x0303 upStates always .outOfRange (fun _ => []) unchanged ∧
      Answers (.tdcReadCal h pixel) h 0x0421 upStates always .outOfRange (fun _ => []) unchanged ∧
      Answers (.calRead h pixel) h 0x0D02 upStates always .outOfRange (fun _ => []) unchanged) ∧
    (∀ unit ≤ 31, AnswersData (.hmonRead h unit) h 0x0D20 upStates always
      (fun s b => b.length = 272 ∧ b = hmonBytes s.dev unit) unchanged) ∧
    (∀ unit, 31 < unit → Answers (.hmonRead h unit) h 0x0D20 upStates always .outOfRange (fun _ => []) unchanged) ∧
    (∀ first last, first ≤ last → last ≤ 255 → AnswersData (.monRead h first last) h 0x0311 upStates always
      (fun s b => b.length = 16 * (last + 1 - first) ∧
        ∀ k < last + 1 - first, sliceBytes b (16 * k) 16 = latestBytes (getD s.dev.mon.latest (first + k) none)) unchanged) ∧
    (∀ first last, (last < first ∨ 255 < last) →
      Answers (.monRead h first last) h 0x0311 upStates always .outOfRange (fun _ => []) unchanged) ∧
    (∀ port ≤ 7, AnswersData (.laneStatus h port) h 0x0900 upStates always
      (fun s b => b.length = 40 ∧ sliceBytes b 0 1 = leBytes 1 (portRole s.dev.map.active port) ∧
        sliceBytes b 2 1 = leBytes 1 (s.dev.port port).stage) unchanged) ∧
    (∀ port, 7 < port → Answers (.laneStatus h port) h 0x0900 upStates always .outOfRange (fun _ => []) unchanged) ∧
    (∀ offset length, 1 ≤ length → length ≤ 4096 → offset + length ≤ 67108864 →
      AnswersData (.flashRead h offset length) h 0x0E06 [.lodge, .standby, .ready, .running, .quiesce, .faultHold]
        (fun s => s.flashCanonical = true)
        (fun s b => b.length = length ∧ ∀ k < length, b[k]? = some (flashByte s.flash (offset + k))) unchanged) ∧
    (∀ offset length, (length = 0 ∨ 4096 < length ∨ 67108864 < offset + length) →
      Answers (.flashRead h offset length) h 0x0E06 [.lodge, .standby, .ready, .running, .quiesce, .faultHold] always
        .outOfRange (fun _ => []) unchanged)

/-! ### Device states, resets and the system commands -/

/-- The transitions that a command makes. -/
def Obligations.SysGoTransitions : Prop :=
  ∀ h : CmdHeader,
    let names : List (Nat × DevState) := [(3, .standby), (4, .ready), (5, .running), (6, .quiesce)]
    let moves : List (DevState × DevState) := [(.standby, .ready), (.ready, .running), (.quiesce, .running), (.ready, .quiesce),
      (.running, .quiesce), (.quiesce, .ready), (.ready, .standby), (.quiesce, .standby), (.faultHold, .standby)]
    let blocked := fun (s : State) (st : DevState) =>
      (st = .ready ∧ s.dev.map.active = none) ∨
      ((st = .ready ∨ st = .running) ∧ (s.dev.time.locked = false ∨ s.dev.pwr.warning ≠ none)) ∨
      (st = .running ∧ s.dev.time.code = 0) ∨
      (s.dev.sys.state = .faultHold ∧
        ((∃ r ∈ s.dev.pwr.rails.toList, r.good = false ∨ ∃ t, r.restartedAt = some t ∧ s.dev.sys.ticks < t + 2560000) ∨
          s.dev.pwr.vcoreNear s.dev.sys.ticks = false ∨
          (∃ w, s.dev.latestValue 224 = some w ∧ atLeast w 1300 = true) ∨ s.dev.time.locked = false))
    (∀ target, (∀ p ∈ names, p.1 ≠ target) →
      Answers (.sysGo h target) h 0x0002 upStates always .outOfRange (fun _ => []) unchanged) ∧
    (∀ p ∈ names,
      Answers (.sysGo h p.1) h 0x0002 upStates (fun s => s.dev.sys.state = p.2) .ok (fun _ => []) unchanged ∧
      Answers (.sysGo h p.1) h 0x0002 upStates (fun s => s.dev.sys.state ≠ p.2 ∧ (s.dev.sys.state, p.2) ∉ moves) .wrongState
        (fun _ => []) unchanged ∧
      Answers (.sysGo h p.1) h 0x0002 upStates (fun s => (s.dev.sys.state, p.2) ∈ moves ∧ blocked s p.2) .notReady
        (fun _ => []) unchanged ∧
      ∀ s : State, s.dev.carries h upStates = true → (s.dev.sys.state, p.2) ∈ moves → ¬ blocked s p.2 →
        ∃ t : State, exec (.sysGo h p.1) s = .next t ∧ t.dev.sys.state = p.2 ∧ t.dev.sys.previous = s.dev.sys.state ∧
          t.dev.sys.cause = 0x0020 ∧ t.dev.sys.since = s.dev.now ∧ t.dev.map = s.dev.map ∧ t.dev.sys.ticks = s.dev.sys.ticks ∧
          (s.dev.sys.state = .standby →
            t.dev.acq.conv = some ⟨s.dev.sys.ticks + 8 - s.dev.now.tick % 8, none⟩ ∧ t.dev.acq.convStop = false ∧
            t.dev.sys.goPending = some (⟨h, 0x0002, none, s.dev.now⟩, .ready)) ∧
          (p.2 = .running → s.dev.acq.framing = false →
            t.dev.sys.goPending = some (⟨h, 0x0002, none, s.dev.now⟩, .running)) ∧
          (p.2 = .quiesce ∨ p.2 = .standby → ∀ c ∈ t.dev.slalom.courses.toList, c.armed = false) ∧
          (p.2 = .quiesce → s.dev.acq.framing = false → t.dev.sys.goPending = none))

/-- The other commands of the system group. -/
def Obligations.SysCommands : Prop :=
  ∀ h : CmdHeader,
    (∀ kind ≤ 1, Answers (.sysReset h kind) h 0x0003 anyState always .ok (fun _ => [])
      (devOnly fun d => { d with sys := { d.sys with resetDue := some (d.sys.resetDue.getD (kind, 512000)) } })) ∧
    (∀ kind, 1 < kind → Answers (.sysReset h kind) h 0x0003 anyState always .outOfRange (fun _ => []) unchanged) ∧
    (∀ data : List Byte, data.length ≤ 1008 →
      Answers (.sysPing h data) h 0x000A anyState always .ok (fun s => twBytes s.dev.now ++ zeros 4 ++ data) unchanged) ∧
    (∀ data : List Byte, 1008 < data.length →
      Answers (.sysPing h data) h 0x000A anyState always .outOfRange (fun _ => []) unchanged) ∧
    (∀ requester tag : Nat,
      Answers (.sysTimedCancel h requester tag) h 0x0009 workStates
        (fun s => ∀ e ∈ s.dev.cmd.timed, e.matches requester tag = false) .outOfRange (fun _ => []) unchanged ∧
      ∀ s : State, s.dev.carries h workStates = true → (∃ e ∈ s.dev.cmd.timed, e.matches requester tag = true) →
        ∃ t : State, exec (.sysTimedCancel h requester tag) s = .next (t.replied h 0x0009 s.dev.now .ok
            (leBytes 2 (s.dev.cmd.timed.filter (·.matches requester tag)).length)) ∧
          t.dev.cmd.timed = s.dev.cmd.timed.filter (fun e => !e.matches requester tag) ∧
          t.dev.map = s.dev.map ∧ t.dev.sys = s.dev.sys) ∧
    (∀ member, 2 < member →
      Answers (.sysTriadRepair h member) h 0x0005 upStates always .outOfRange (fun _ => []) unchanged) ∧
    (∀ member ≤ 2,
      Answers (.sysTriadRepair h member) h 0x0005 upStates
        (fun s => (s.dev.member member).mode ≠ .fenced ∨ s.dev.triad.herringbone ≠ none) .wrongState (fun _ => []) unchanged ∧
      ∀ s : State, s.dev.carries h upStates = true → (s.dev.member member).mode = .fenced → s.dev.triad.herringbone = none →
        ∃ t : State, exec (.sysTriadRepair h member) s = .next t ∧
          t.dev.triad.herringbone = some ⟨member, 1, 8256, none, [], s.dev.sys.ticks, s.dev.sys.ticks, some ⟨h, 0x0005, none, s.dev.now⟩⟩ ∧
          (t.dev.member member).mode = .climbing ∧ (∀ m, m ≠ member → t.dev.member m = s.dev.member m) ∧
          t.dev.cmd.inFlight = s.dev.cmd.inFlight ++ [(requesterOf h, h.tag, 0x0005)]) ∧
    (∀ port : Nat,
      let legal : List DevState := [.ready, .running, .quiesce]
      Answers (.sysUplinkReturn h port) h 0x0007 legal
        (fun s => 7 < port ∨ inPair s.dev.map.active port = false) .outOfRange (fun _ => []) unchanged ∧
      Answers (.sysUplinkReturn h port) h 0x0007 legal
        (fun s => port ≤ 7 ∧ inPair s.dev.map.active port = true ∧
          (s.dev.memberState port = .active ∨ s.dev.memberState port = .down)) .wrongState (fun _ => []) unchanged ∧
      Answers (.sysUplinkReturn h port) h 0x0007 legal
        (fun s => port ≤ 7 ∧ inPair s.dev.map.active port = true ∧ s.dev.memberState port = .suspect) .ok (fun _ => [])
        (devOnly (·.modMember port fun x => { x with proof := some 0 })) ∧
      AnswersWith (.sysUplinkReturn h port) h 0x0007 legal
        (fun s => port ≤ 7 ∧ inPair s.dev.map.active port = true ∧ s.dev.memberState port = .standby) .ok
        (fun s t => t.dev.memberState port = .active ∧
          ∀ o, otherMember s.dev.map.active port = some o → o ≠ port → s.dev.memberState o = .active →
            t.dev.memberState o = .standby))

/-- Off, and the starts. -/
def Obligations.SupplyRows : Prop :=
  (∀ s : State,
    (s.dev.sys.state = .off → exec .powerOn s = .next (s.startBoot 0x0001)) ∧
    (s.dev.sys.state ≠ .off → exec .powerOn s = .next s) ∧
    (s.dev.sys.state = .off ∧ s.dev.sys.cause = 0x0041 → exec .overVoltageRestart s = .next (s.startBoot 0x0002)) ∧
    (¬ (s.dev.sys.state = .off ∧ s.dev.sys.cause = 0x0041) → exec .overVoltageRestart s = .next s) ∧
    (let due := s.dev.sys.state = .off ∧ s.dev.sys.railRestartDue = true ∧
        ∃ n rest, s.dev.sys.offs42 = n :: rest ∧ 2560000000 ≤ n
     (due → exec .railRestart s = .next (s.startBoot 0x0003)) ∧ (¬ due → exec .railRestart s = .next s))) ∧
  (∀ (s : State) (cause : Nat),
    let t := s.startBoot cause
    t.pending = s.pending ∧ t.dev.sys.resetCause = cause ∧ t.dev.cmd.timed = [] ∧ t.dev.cmd.deferred = [] ∧
    t.dev.cmd.inFlight = [] ∧ t.dev.map.active = none ∧ t.dev.sys.ticks = 0 ∧ t.dev.sys.imagesStarted = false ∧
    t.dev.bist.fuses = s.dev.bist.fuses ∧
    ((∃ r, bootRecord s.tornFlash = some r) → t.dev.sys.state = .boot ∧ t.dev.sys.cause = cause ∧
      t.dev.sys.previous = s.dev.sys.state) ∧
    (bootRecord s.tornFlash = none → t.dev.sys.state = .lodge ∧ t.dev.sys.cause = 0x0012 ∧ t.dev.time.locked = true ∧
      t.flash = s.tornFlash)) ∧
  (∀ s : State, s.dev.sys.state ≠ .off → ∀ p ∈ [(Instr.underVoltageLockOut, 0x0040), (Instr.overVoltageShutdown, 0x0041)],
    ∃ t : State, exec p.1 s = .next t ∧ t.dev.sys.state = .off ∧ t.dev.sys.cause = p.2 ∧ t.dev.sys.since = s.dev.now ∧
      (∀ r ∈ t.dev.pwr.rails.toList, r.good = false) ∧ t.flash = s.tornFlash ∧ t.dev.evt.service = [] ∧
      (p.2 = 0x0040 → t.dev.sys.railRestartDue = false)) ∧
  (∀ (s : State) (rail v : Nat), s.dev.sys.state ≠ .off → (rail = 0 ∨ rail = 6) →
    s.dev.pwr.railBad s.dev.sys.ticks rail v = true →
    ∃ t : State, exec (.railFault rail v) s = .next t ∧ t.dev.sys.state = .off ∧ t.dev.sys.cause = 0x0042 ∧
      t.dev.sys.resetRail = some rail ∧ t.dev.sys.offs42 = 0 :: s.dev.sys.offs42.filter (· < 153600000000) ∧
      (t.dev.sys.railRestartDue = true ↔ t.dev.sys.offs42.length < 3))

/-- The boot steps 4 to 6, and the LODGE transaction. -/
def Obligations.StartRows : Prop :=
  (∀ s : State, (s.dev.sys.state ≠ .boot ∨ s.dev.sys.imagesStarted = true ∨ s.dev.triad.stopped = true) →
    exec .imagesStarted s = .next s) ∧
  (∀ (s : State) (r : BootRecord), s.dev.sys.state = .boot → s.dev.sys.imagesStarted = false → s.dev.triad.stopped = false →
    bootRecord s.flash = some r → r.trial = false →
    (testedPairing s.flash r.ctrlSlot r.laneSlot = true →
      ∃ t : State, exec .imagesStarted s = .next t ∧ t.dev.sys.state = .standby ∧ t.dev.sys.previous = .boot ∧
        t.dev.sys.cause = 0x0010 ∧ t.dev.sys.imagesStarted = true ∧ t.dev.time.locked = true ∧
        t.dev.fw.running = some (slotVersion s.flash 0 r.ctrlSlot, slotVersion s.flash 1 r.laneSlot,
          schemaMinor s.flash r.ctrlSlot) ∧ t.flash = s.flash) ∧
    (testedPairing s.flash r.ctrlSlot r.laneSlot = false →
      ∃ t : State, exec .imagesStarted s = .next t ∧ t.dev.sys.state = .lodge ∧ t.dev.sys.imagesStarted = false ∧
        t.dev.sys.cause = (if s.dev.fw.rolledBack then 0x0014 else 0x0013) ∧ t.flash = s.flash)) ∧
  (∀ s : State,
    (s.dev.sys.imagesStarted = false ∨ s.dev.sys.bootMapDone = true ∨ s.dev.sys.state ≠ .standby ∨ 3 < bootMapOf s.flash) →
      exec .bootMapLoad s = .next s) ∧
  (∀ s : State, s.dev.sys.imagesStarted = true → s.dev.sys.bootMapDone = false → s.dev.sys.state = .standby →
    bootMapOf s.flash ≤ 3 → ∃ t : State, exec .bootMapLoad s = .next t ∧ t.dev.sys.bootMapDone = true ∧ t.flash = s.flash ∧
      ((∃ e, s.checkSlot (bootMapOf s.flash) = .error e) → t.dev.map = s.dev.map ∧ t.dev.sys.state = .standby) ∧
      (∀ m, s.checkSlot (bootMapOf s.flash) = .ok m → t.dev.map.active = some m ∧
        t.dev.sys.state = (if s.dev.time.locked then .ready else .standby) ∧
        (s.dev.time.locked = true → t.dev.sys.cause = 0x0011))) ∧
  (∀ (s : State) (code : List Byte),
    (s.dev.sys.state = .off → exec (.lodge code) s = .next s) ∧
    (s.dev.sys.state ≠ .off → code ≠ textBytes "LODG" →
      ∃ driven, exec (.lodge code) s = .next (s.onDev fun d => { d with cmd := { d.cmd with svdo := driven } })) ∧
    (s.dev.sys.state ≠ .off → code = textBytes "LODG" →
      ∃ t : State, exec (.lodge code) s = .next t ∧ t.dev.sys.state = .lodge ∧ t.dev.sys.cause = 0x0007 ∧
        t.dev.sys.previous = s.dev.sys.state ∧ t.dev.time.locked = true ∧ t.dev.cmd.timed = [] ∧ t.flash = s.tornFlash))

/-! ### Power, faults and Fault-hold -/

/-- The sequencer of R502 and R503, and the bucket of R504. -/
def Obligations.PowerLevels : Prop :=
  (∀ h : CmdHeader,
    (∀ level, 3 < level → Answers (.pwrSetLevel h level) h 0x0C01 workStates always .outOfRange (fun _ => []) unchanged) ∧
    (∀ limit, (limit < 200 ∨ 1100 < limit) →
      Answers (.pwrSetLimit h limit) h 0x0C02 upStates always .outOfRange (fun _ => []) unchanged) ∧
    (∀ limit, 200 ≤ limit → limit ≤ 1100 → Answers (.pwrSetLimit h limit) h 0x0C02 upStates always .ok (fun _ => [])
      (devOnly fun d => { d with pwr := { d.pwr with limitDue := some limit } })) ∧
    (∀ level ≤ 3,
      Answers (.pwrSetLevel h level) h 0x0C01 workStates
        (fun s => s.dev.pwr.level = level ∧ s.dev.pwr.seq = none ∧ s.dev.pwr.setters = [] ∧
          ∀ c ∈ s.dev.pwr.causes.toList, c.active = false) .ok (fun _ => [])
        (devOnly fun d => { d with pwr := { d.pwr with requested := level } }) ∧
      AnswersLater (.pwrSetLevel h level) h 0x0C01 workStates
        (fun s => s.dev.pwr.level < level ∧ s.dev.pwr.seq = none ∧ ∀ c ∈ s.dev.pwr.causes.toList, c.active = false)
        (fun s => s.onDev fun d => { d with pwr := { d.pwr with
          requested := level, setters := d.pwr.setters ++ [⟨h, 0x0C01, none, d.now⟩]
          seq := some ⟨true, d.pwr.level, level, 1, d.sys.ticks, d.pwr.warning.isSome, none⟩
          rampFrom := d.pwr.setPoint d.sys.ticks, rampTo := 600 + 80 * level, rampAt := d.sys.ticks } }))) ∧
  (∀ s : State,
    (s.dev.pwr.level ≠ 3 ∧ s.dev.pwr.nextToken ≤ s.dev.sys.ticks →
      exec .fireTokenAdd s = .next (s.onDev fun d => { d with pwr := { d.pwr with
        fireTokens := min (d.pwr.fireTokens + 1) (fireBurst d.map.active d.pwr.level)
        nextToken := d.sys.ticks + 2560000000 / fireCap d.map.active d.pwr.level } })) ∧
    (¬ (s.dev.pwr.level ≠ 3 ∧ s.dev.pwr.nextToken ≤ s.dev.sys.ticks) → exec .fireTokenAdd s = .next s)) ∧
  (∀ (s : State) (q : LevelSeq), s.dev.pwr.seq = some q →
    let cool := ∀ w, s.dev.latestValue 224 = some w → hotter w 1050 = false
    let ramped : PwrState := { s.dev.pwr with
      seq := some { q with step := 3 }, rampFrom := s.dev.pwr.setPoint s.dev.sys.ticks, rampTo := 600 + 80 * q.goal
      rampAt := s.dev.sys.ticks }
    (s.dev.sys.ticks < s.dev.pwr.rampEnd + 5120 → exec .vcoreSettled s = .next s) ∧
    (s.dev.pwr.rampEnd + 5120 ≤ s.dev.sys.ticks → q.up = true → q.goal = s.dev.pwr.target → (q.goal < 3 ∨ cool) →
      ∃ t : State, exec .vcoreSettled s = .next t ∧ t.dev.pwr.level = q.goal ∧ t.dev.pwr.seq = none ∧ t.dev.pwr.setters = []) ∧
    (s.dev.pwr.rampEnd + 5120 ≤ s.dev.sys.ticks → q.up = false → q.step = 3 → s.dev.pwr.level = s.dev.pwr.target →
      (s.dev.pwr.level < 3 ∨ cool) →
      ∃ t : State, exec .vcoreSettled s = .next t ∧ t.dev.pwr.level = s.dev.pwr.level ∧ t.dev.pwr.seq = none ∧
        t.dev.pwr.setters = []) ∧
    (let due := q.up = false ∧ q.step = 2 ∧ s.dev.drained = true ∧ ∃ t, q.drainSince = some t ∧ t + 25600 ≤ s.dev.sys.ticks
     (due → exec .drainDone s = .next (s.onDev fun d => { d with pwr := ramped })) ∧ (¬ due → exec .drainDone s = .next s)) ∧
    (let due := q.up = false ∧ q.step = 2 ∧ q.start + drainLimit s.dev.map.active ≤ s.dev.sys.ticks
     (due → ∃ t : State, exec .drainLimit s = .next t ∧ t.dev.pwr = ramped ∧ t.dev.acq = s.dev.acq ∧ t.dev.map = s.dev.map) ∧
     (¬ due → exec .drainLimit s = .next s))) ∧
  (∀ s : State, s.dev.pwr.seq = none → ∀ i ∈ [Instr.vcoreSettled, .drainDone, .drainLimit], exec i s = .next s)

/-- The causes of R507 and their ends. -/
def Obligations.SnowploughCauses : Prop :=
  (∀ (s : State) (mw : Nat), s.dev.sys.ticks < s.dev.pwr.windowAt + 25600000 → exec (.powerWindowEnd mw) s = .next s) ∧
  (∀ (s : State) (mw : Nat), s.dev.pwr.windowAt + 25600000 ≤ s.dev.sys.ticks →
    ∃ t : State, exec (.powerWindowEnd mw) s = .next t ∧ t.dev.pwr.inputPower = some mw ∧ t.dev.pwr.windowAt = s.dev.sys.ticks ∧
    t.dev.pwr.limit = s.dev.pwr.limitDue.getD s.dev.pwr.limit ∧ t.dev.pwr.limitDue = none ∧
    (mw ≤ 100 * s.dev.pwr.limit → (s.dev.pwr.cause 4).active = false → t.dev.pwr.causes = s.dev.pwr.causes ∧
      t.dev.pwr.level = s.dev.pwr.level ∧ t.dev.evt = s.dev.evt) ∧
    (100 * s.dev.pwr.limit < mw → s.dev.pwr.level = 0 → t.dev.pwr.causes = s.dev.pwr.causes ∧ t.dev.pwr.level = 0) ∧
    (100 * s.dev.pwr.limit < mw → 0 < s.dev.pwr.level → (s.dev.pwr.cause 4).active = false →
      t.dev.pwr.cause 4 = ⟨true, s.dev.pwr.level - 1, none⟩ ∧ t.dev.pwr.loweredAt = some s.dev.sys.ticks)) ∧
  (∀ s : State, (ploughReturns s.dev.map.active = false → exec .snowploughCauseEnd s = .next s) ∧
    (ploughReturns s.dev.map.active = true → ∃ t : State, exec .snowploughCauseEnd s = .next t ∧
      ∀ code ∈ [1, 2, 3, 4, 5],
        let due := code ≤ 3 ∧ ∃ n, (s.dev.pwr.cause code).calmSince = some n ∧ n + returnDelay s.dev.map.active ≤ s.dev.sys.ticks
        (due → (t.dev.pwr.cause code).active = false) ∧ (¬ due → t.dev.pwr.cause code = s.dev.pwr.cause code))) ∧
  (∀ (s : State) (vin power : Nat),
    (s.dev.sys.state = .off ∨ s.dev.pwr.warning ≠ none → exec (.powerFailWarning vin power) s = .next s) ∧
    (s.dev.sys.state ≠ .off → s.dev.pwr.warning = none → ∃ t : State, exec (.powerFailWarning vin power) s = .next t ∧
      t.dev.pwr.warning = some s.dev.sys.ticks ∧ (t.dev.pwr.cause 5).active = true ∧ (t.dev.pwr.cause 5).ceiling = 0 ∧
      (∀ c ∈ t.dev.slalom.courses.toList, c.armed = false) ∧ (∀ x ∈ t.dev.fe.tiles.toList, x.heldOff = true) ∧
      (s.dev.sys.state = .ready ∨ s.dev.sys.state = .running → t.dev.sys.state = .quiesce ∧ t.dev.sys.cause = 0x0021) ∧
      (¬ (s.dev.sys.state = .ready ∨ s.dev.sys.state = .running) → t.dev.sys.state = s.dev.sys.state))) ∧
  (∀ s : State, (s.dev.pwr.warning = none → exec .powerFailWarningCleared s = .next s) ∧
    (s.dev.pwr.warning ≠ none → ∃ t : State, exec .powerFailWarningCleared s = .next t ∧ t.dev.pwr.warning = none ∧
      t.dev.sys = s.dev.sys ∧
      (ploughReturns s.dev.map.active = true → (t.dev.pwr.cause 5).active = false) ∧
      (ploughReturns s.dev.map.active = false → t.dev.pwr.causes = s.dev.pwr.causes))) ∧
  (∀ (s : State) (vin : Nat),
    let left := hotter vin 750 = true ∨ (atLeast vin 360 = false ∧ s.dev.pwr.warning = none)
    (left → exec (.operatingRangeLeft vin) s = .next (s.onDev (·.raiseLimited 1603 0 0 [.real vin]))) ∧
    (¬ left → exec (.operatingRangeLeft vin) s = .next s))

/-- The faults that hold the device. -/
def Obligations.FaultHoldRows : Prop :=
  let holds : List DevState := [.boot, .standby, .ready, .running, .quiesce]
  (∀ (d : Dev) (cause : Nat), (d.sys.state ∉ holds → d.faultHold cause = d) ∧
    (d.sys.state ∈ holds → let t := d.faultHold cause
      t.sys.state = .faultHold ∧ t.sys.previous = d.sys.state ∧ t.sys.cause = cause ∧ t.sys.since = d.now ∧
      t.cmd.timed = [] ∧ t.cmd.deferred = [] ∧ t.cmd.nextTick = [] ∧
      (∀ c ∈ t.slalom.courses.toList, c.armed = false) ∧ (∀ x ∈ t.fe.tiles.toList, x.heldOff = true))) ∧
  (∀ (s : State) (rail v : Nat),
    (s.dev.sys.state = .off ∨ s.dev.pwr.railBad s.dev.sys.ticks rail v = false →
      exec (.railFault rail v) s = .next s) ∧
    (s.dev.sys.state ≠ .off → 1 ≤ rail → rail ≤ 5 → s.dev.pwr.railBad s.dev.sys.ticks rail v = true →
      ∃ t : State, exec (.railFault rail v) s = .next t ∧
        (s.dev.sys.state ∈ holds → t.dev.sys.state = .faultHold ∧ t.dev.sys.cause = 0x0031) ∧
        (s.dev.sys.state ∉ holds → t.dev.sys.state = s.dev.sys.state ∧ t.dev.sys.cause = s.dev.sys.cause) ∧
        (let since := (getD s.dev.pwr.rails rail ⟨false, none⟩).restartedAt
         ((∀ x, since = some x → x + 2560000000 < s.dev.sys.ticks) →
           getD t.dev.pwr.rails rail ⟨false, none⟩ = ⟨true, some s.dev.sys.ticks⟩ ∧
           (s.dev.sys.state ≠ .boot → t.dev.triad.stopped = s.dev.triad.stopped)) ∧
         (∀ x, since = some x → s.dev.sys.ticks ≤ x + 2560000000 → t.dev.triad.stopped = true ∧
           ∀ r, 1 ≤ r → r ≤ 5 → (getD t.dev.pwr.rails r ⟨true, none⟩).good = false)))) ∧
  (∀ s : State,
    (let due := s.dev.pwr.lidHeld = false ∧ ∃ t, s.dev.pwr.lidHot = some t ∧ t + 25600000000 ≤ s.dev.sys.ticks
     (¬ due → exec .lidOverheatHold s = .next s) ∧
     (due → ∃ t : State, exec .lidOverheatHold s = .next t ∧ t.dev.pwr.lidHeld = true ∧
       (s.dev.sys.state ∈ holds → t.dev.sys.state = .faultHold ∧ t.dev.sys.cause = 0x0033) ∧
       (s.dev.sys.state ∉ holds → t.dev.sys = s.dev.sys))) ∧
    (s.dev.time.locked = false → exec .loopUnlock s = .next s) ∧
    (s.dev.time.locked = true → ∃ t : State, exec .loopUnlock s = .next t ∧ t.dev.time.locked = false ∧
      (s.dev.sys.state ∈ holds → t.dev.sys.state = .faultHold ∧ t.dev.sys.cause = 0x0032) ∧
      (s.dev.sys.state ∉ holds → t.dev.sys.state = s.dev.sys.state)) ∧
    (let due := s.dev.sys.imagesStarted = true ∧ s.dev.time.savedAt + 221184000000000 ≤ s.dev.sys.ticks
     (¬ due → exec .intCorrectionSave s = .next s) ∧
     (due → ∃ t : State, exec .intCorrectionSave s = .next t ∧ t.dev.time.savedAt = s.dev.sys.ticks ∧ t.flash = s.flash)) ∧
    (let due := 600 ≤ s.trialSeconds ∧ s.recordAhead.trial = true
     (¬ due → exec .trialTimeLimit s = .next s) ∧
     (due → exec .trialTimeLimit s = .next (s.ownWrite (.boot .rollBack none))) ∧
     (due → s.dev.fw.busy ≠ .idle → exec .trialTimeLimit s =
       .next (s.onDev fun d => { d with fw := { d.fw with own := d.fw.own ++ [.boot .rollBack none] } }))))

/-! ### The control triad -/

/-- The triad's rows. -/
def Obligations.TriadRows : Prop :=
  (∀ (s : State) (member kind target : Nat) (data : List Byte) (error : Bool),
    (s.dev.sys.state = .off ∨ s.dev.sys.imagesStarted = false ∨ s.dev.triad.stopped = true ∨ 3 ≤ member →
      exec (.voterRequest member kind target data error) s = .next s) ∧
    (s.dev.triadRuns = true → member < 3 → error = false →
      let r : VoteReq := ⟨kind, target, data⟩
      let set := fun (f : TriadMember → TriadMember) (d : Dev) =>
        { d with triad := { d.triad with members := modAt d.triad.members member f } }
      ((s.dev.member member).mode ≠ .voting → exec (.voterRequest member kind target data error) s = .next s) ∧
      ((∀ m < 3, (s.dev.member m).mode = .voting ∧ (s.dev.member m).presented = none ∧ (s.dev.member m).owed = []) →
        exec (.voterRequest member kind target data error) s =
          .next (s.onDev (set fun x => { x with presented := some r }))) ∧
      (∀ other q, other < 3 → other ≠ member → (∀ m < 3, (s.dev.member m).mode = .voting ↔ m = member ∨ m = other) →
        (s.dev.member member).owed = [] → (s.dev.member other).presented = some q → q ≠ r →
        exec (.voterRequest member kind target data error) s = .next (s.onDev fun d =>
          let d := set (fun x => { x with presented := some r }) d
          { d with triad := { d.triad with arbitrating := true } })) ∧
      (∀ other third, other < 3 → third < 3 → other ≠ member → third ≠ member → third ≠ other →
        (∀ m < 3, (s.dev.member m).mode = .voting ∧ (s.dev.member m).owed = []) →
        (s.dev.member member).presented = none → (s.dev.member other).presented = some r →
        (s.dev.member third).presented = none →
        ∃ t : State, exec (.voterRequest member kind target data error) s = .next t ∧
          (t.dev.member member).presented = none ∧ (t.dev.member other).presented = none ∧
          (t.dev.member member).owed = [] ∧ (t.dev.member other).owed = [] ∧
          (t.dev.member third).owed = [(r, s.dev.sys.ticks)] ∧ t.dev.triad.lastVote = s.dev.sys.ticks ∧
          t.dev.triad.output = some r ∧ (∀ m < 3, (t.dev.member m).mode = .voting) ∧ t.dev.evt = s.dev.evt ∧ t.dev.sys = s.dev.sys) ∧
      (∀ o t0 rest, (s.dev.member member).mode = .voting → (s.dev.member member).owed = (o, t0) :: rest →
        (o = r → s.dev.sys.ticks ≤ t0 + 25600 →
          exec (.voterRequest member kind target data error) s = .next (s.onDev (set fun x => { x with owed := rest }))) ∧
        (o ≠ r → (∀ m < 3, (s.dev.member m).mode = .voting) → (∀ m < 3, m ≠ member → (s.dev.member m).presented = none) →
          ∃ t : State, exec (.voterRequest member kind target data error) s = .next t ∧
            (t.dev.member member).mode ≠ .voting ∧ ∀ m < 3, m ≠ member → (t.dev.member m).mode = .voting)))) ∧
  (∀ (s : State) (member : Nat),
    ((∀ o t0 rest, (s.dev.member member).owed = (o, t0) :: rest → s.dev.sys.ticks ≤ t0 + 25600) →
      exec (.disagreeTimeout member) s = .next s) ∧
    (∀ o t0 rest, s.dev.triadRuns = true → member < 3 →
      (s.dev.member member).owed = (o, t0) :: rest → t0 + 25600 < s.dev.sys.ticks → (∀ m < 3, (s.dev.member m).mode = .voting) →
      (∀ m < 3, m ≠ member → (s.dev.member m).presented = none) →
      ∃ t : State, exec (.disagreeTimeout member) s = .next t ∧ (t.dev.member member).mode ≠ .voting ∧
        ∀ m < 3, m ≠ member → t.dev.member m = s.dev.member m)) ∧
  (∀ s : State,
    let due := s.dev.triadRuns = true ∧ (∃ m < 3, (s.dev.member m).mode = .voting) ∧
      s.dev.triad.lastVote + 25600000 ≤ s.dev.sys.ticks
    (¬ due → exec .heartbeatLost s = .next s) ∧
    (due → ∃ t : State, exec .heartbeatLost s = .next t ∧
      (∀ m < 3, t.dev.member m = ⟨.voting, (s.dev.member m).fencedTotal, none, [], none, none, []⟩) ∧
      t.dev.triad.herringbone = none ∧ t.dev.triad.queue = [] ∧ t.dev.triad.restartedAt = some s.dev.sys.ticks ∧
      (t.dev.triad.stopped = true ↔ ∃ r, s.dev.triad.restartedAt = some r ∧ s.dev.sys.ticks ≤ r + 25600000000) ∧
      (s.dev.sys.state ∈ [.boot, .standby, .ready, .running, .quiesce] →
        t.dev.sys.state = .faultHold ∧ t.dev.sys.cause = 0x0030))) ∧
  (∀ (s : State) (dirty : Nat) (differ : Bool),
    (s.dev.triadRuns = false ∨ s.dev.triad.herringbone = none →
      exec (.herringbonePass dirty differ) s = .next s) ∧
    (∀ x : Herringbone, s.dev.triadRuns = true → s.dev.triad.herringbone = some x →
      x.member < 3 → (s.dev.member x.member).mode = .climbing → s.dev.triad.queue = [] →
      let bad := s.dev.linesDiffer x differ = true
      let d' := s.dev.copyState x x.known
      let copied := s.dev.passCopied = true
      (¬ bad → ¬ copied → exec (.herringbonePass dirty differ) s = .next s) ∧
      (¬ bad → copied → 64 < x.lines → x.pass < 8 → exec (.herringbonePass dirty differ) s =
        .next { s with dev := { d' with triad := { d'.triad with
          herringbone := some { x with
            pass := x.pass + 1, lines := min (dirty + x.marked.length) 8256, known := some x.marked, marked := []
            passAt := s.dev.sys.ticks } } } }) ∧
      (¬ bad → copied → x.lines ≤ 64 → ∃ t : State, exec (.herringbonePass dirty differ) s = .next t ∧
        (t.dev.member x.member).mode = .voting ∧ t.dev.triad.herringbone = none) ∧
      (s.dev.voting.length = 2 → differ = true → bad) ∧ (s.dev.voting.length ≠ 2 → ¬ bad) ∧
      (¬ bad → copied → 64 < x.lines → 8 ≤ x.pass → s.dev.voting.length = 1 →
        (∀ m < 3, m ≠ x.member → (s.dev.member m).mode = .voting ∨ (s.dev.member m).mode = .fenced) →
        ∃ t : State, exec (.herringbonePass dirty differ) s = .next t ∧ (∀ m < 3, (t.dev.member m).mode = .voting) ∧
          t.dev.triad.restartedAt = some s.dev.sys.ticks) ∧
      (s.dev.voting.length = 2 → bad ∨ (copied ∧ 64 < x.lines ∧ 8 ≤ x.pass) → ∃ t : State, exec (.herringbonePass dirty differ) s = .next t ∧
        (t.dev.member x.member).mode = .fenced ∧ t.dev.triad.herringbone = none ∧
        (t.dev.member x.member).fencedTotal = min ((s.dev.member x.member).fencedTotal + 1) 4294967295)))

/-! ### Flash, firmware and map slots -/

/-- The flash as a memory, and the operations on it. The statements about bytes are for a flash in the form that every step keeps. -/
def Obligations.FlashOperations : Prop :=
  (∀ h : CmdHeader,
    (∀ sector, 1023 < sector → Answers (.flashErase h sector) h 0x0E07 flashStates always .outOfRange (fun _ => []) unchanged) ∧
    (∀ sector, sector < 840 → Answers (.flashErase h sector) h 0x0E07 flashStates always .locked (fun _ => []) unchanged) ∧
    (∀ sector, 840 ≤ sector → sector ≤ 1023 → AnswersLater (.flashErase h sector) h 0x0E07 flashStates always
      (fun s => s.hostJob ⟨⟨h, 0x0E07, none, s.dev.now⟩, [.erase sector], .answer⟩)) ∧
    (∀ (offset : Nat) (data : List Byte),
      let legal := 1 ≤ data.length ∧ data.length ≤ 1016 ∧ offset + data.length ≤ 67108864
      (¬ legal → Answers (.flashWrite h offset data) h 0x0E08 flashStates always .outOfRange (fun _ => []) unchanged) ∧
      (legal → offset < 55050240 →
        Answers (.flashWrite h offset data) h 0x0E08 flashStates always .locked (fun _ => []) unchanged) ∧
      (legal → 55050240 ≤ offset →
        Answers (.flashWrite h offset data) h 0x0E08 flashStates (fun s => isBlank s.flashAhead offset data.length = false)
          .notErased (fun _ => []) unchanged ∧
        AnswersLater (.flashWrite h offset data) h 0x0E08 flashStates (fun s => isBlank s.flashAhead offset data.length = true)
          (fun s => s.hostJob ⟨⟨h, 0x0E08, none, s.dev.now⟩, programSteps offset data, .answer⟩)))) ∧
  (∀ (s : State) (j : FlashJob),
    (s.dev.fw.busy ≠ .idle → s.hostJob j = s.onDev fun d => { d with fw := { d.fw with jobs := d.fw.jobs ++ [j] } }) ∧
    (s.dev.fw.busy = .idle → s.dev.fw.own = [] →
      (∀ k, (s.dev.fw.jobs ++ [j]).head? = some k → ∀ x, k.steps.head? = some x → x.blank s.flash = true) →
      s.hostJob j = s.onDev fun d => { d with fw := { d.fw with jobs := d.fw.jobs ++ [j], busy := .host } })) ∧
  (∀ (offset : Nat) (data : List Byte),
    ((programSteps offset data).map fun x => match x with | .program _ bs => bs | .erase _ => []).flatten = data ∧
    ∀ x ∈ programSteps offset data, ∃ a bs, x = .program a bs ∧ 0 < bs.length ∧ offset ≤ a ∧
      a + bs.length ≤ offset + data.length ∧ a / 256 = (a + bs.length - 1) / 256) ∧
  (∀ (s : State) (wrong : List FlashFault),
    (s.dev.fw.present = none → exec (.flashOperationDone wrong) s = .next s) ∧
    (∀ sector, s.flashCanonical = true → s.dev.fw.present = some (.erase sector) →
      ∃ t : State, exec (.flashOperationDone []) s = .next t ∧ ∀ a, flashByte t.flash a =
        (if sector * 65536 ≤ a ∧ a < sector * 65536 + 65536 then 0xFF else flashByte s.flash a)) ∧
    (∀ (p : Nat) (bs : List Byte), s.flashCanonical = true → s.dev.fw.present = some (.program p bs) →
      ∃ t : State, exec (.flashOperationDone []) s = .next t ∧ ∀ a, flashByte t.flash a =
        (if p ≤ a then (bs[a - p]?).getD (flashByte s.flash a) else flashByte s.flash a)) ∧
    (∀ x, s.dev.fw.present = some x → ∃ t : State, exec (.flashOperationDone wrong) s = .next t ∧
      ∀ a, (∀ w ∈ wrong, w.offset ≠ a) → ∀ u, exec (.flashOperationDone []) s = .next u →
        s.flashCanonical = true → flashByte t.flash a = flashByte u.flash a) ∧
    (∀ (x : FlashStep) (j : FlashJob) (js : List FlashJob), s.dev.fw.busy = .host → s.dev.fw.jobs = j :: js → j.steps = [x] →
      j.then_ = .answer → js = [] → s.dev.fw.own = [] → j.ctx.late = none →
      (firstDifference x (spoil x wrong (x.apply s.flash)) = none →
        exec (.flashOperationDone wrong) s = .next
          ((({ s with flash := spoil x wrong (x.apply s.flash) } : State).onDev fun d =>
            { d with fw := { d.fw with jobs := [], busy := .idle } }).onDev (·.finish j.ctx .ok []))) ∧
      (∀ o, firstDifference x (spoil x wrong (x.apply s.flash)) = some o →
        exec (.flashOperationDone wrong) s = .next
          (((({ s with flash := spoil x wrong (x.apply s.flash) } : State).onDev fun d =>
            { d with fw := { d.fw with jobs := [], busy := .idle } }).onDev (·.finish j.ctx .verifyFailed [])).onDev
            (·.raiseLimited 1860 0 0 [evNat o, evNat (b2n (match x with | .erase _ => true | .program _ _ => false))])))))

/-- The firmware commands. Codes of the failures 1 to 3 of FW.ACTIVATE carry 4 bytes with code 0. -/
def Obligations.FirmwareCommands : Prop :=
  ∀ h : CmdHeader,
    let ctx := fun (op : Nat) (s : State) => (⟨h, op, none, s.dev.now⟩ : Ctx)
    let unmark := fun (i n : Nat) => devOnly fun d => { d with fw := { d.fw with
      verified := modAt d.fw.verified (2 * i + n) fun _ => false } }
    (∀ image slot : Nat,
      let named := image ≤ 1 ∧ slot ≤ 1
      let base := if image = 0 then 0x220000 + slot * 0x800000 else 0x1220000 + slot * 0x100000
      let size := if image = 0 then 0x800000 else 0x100000
      (¬ named →
        Answers (.fwErase h image slot) h 0x0E01 flashStates always .outOfRange (fun _ => []) unchanged ∧
        Answers (.fwVerify h image slot) h 0x0E03 flashStates always .outOfRange (fun _ => []) unchanged) ∧
      (named →
        Answers (.fwErase h image slot) h 0x0E01 flashStates (fun s => s.fwLocked image slot = true) .locked
          (fun _ => []) unchanged ∧
        Answers (.fwErase h image slot) h 0x0E01 flashStates
          (fun s => s.fwLocked image slot = false ∧ s.fwHeld image slot = true) .wrongState (fun _ => []) unchanged ∧
        AnswersLater (.fwErase h image slot) h 0x0E01 flashStates
          (fun s => s.fwLocked image slot = false ∧ s.fwHeld image slot = false)
          (fun s => (unmark image slot s).hostJob
            ⟨ctx 0x0E01 s, (List.range (size / 65536)).map fun k => .erase (base / 65536 + k), .answer⟩) ∧
        Answers (.fwVerify h image slot) h 0x0E03 flashStates (fun s => s.fwHeld image slot = true) .wrongState
          (fun _ => []) unchanged ∧
        Answers (.fwVerify h image slot) h 0x0E03 flashStates
          (fun s => s.fwHeld image slot = false ∧ checkImage s.flash image slot = none) .ok
          (fun s => leBytes 4 (slotVersion s.flash image slot))
          (devOnly fun d => { d with fw := { d.fw with verified := modAt d.fw.verified (2 * image + slot) fun _ => true } }) ∧
        (∀ code st, Answers (.fwVerify h image slot) h 0x0E03 flashStates
          (fun s => s.fwHeld image slot = false ∧ checkImage s.flash image slot = some (code, st)) st
          (fun _ => leBytes 4 code) unchanged)) ∧
      (∀ (offset : Nat) (data : List Byte),
        let legal := named ∧ 1 ≤ data.length ∧ data.length ≤ 1016 ∧ offset + data.length ≤ size
        (¬ legal → Answers (.fwWrite h image slot offset data) h 0x0E02 flashStates always .outOfRange (fun _ => []) unchanged) ∧
        (legal →
          Answers (.fwWrite h image slot offset data) h 0x0E02 flashStates (fun s => s.fwLocked image slot = true) .locked
            (fun _ => []) unchanged ∧
          Answers (.fwWrite h image slot offset data) h 0x0E02 flashStates
            (fun s => s.fwLocked image slot = false ∧ s.fwHeld image slot = true) .wrongState (fun _ => []) unchanged ∧
          Answers (.fwWrite h image slot offset data) h 0x0E02 flashStates
            (fun s => s.fwLocked image slot = false ∧ s.fwHeld image slot = false ∧
              isBlank s.flash (base + offset) data.length = false) .notErased (fun _ => []) unchanged ∧
          AnswersLater (.fwWrite h image slot offset data) h 0x0E02 flashStates
            (fun s => s.fwLocked image slot = false ∧ s.fwHeld image slot = false ∧
              isBlank s.flash (base + offset) data.length = true)
            (fun s => (unmark image slot s).hostJob ⟨ctx 0x0E02 s, programSteps (base + offset) data, .answer⟩)))) ∧
    (∀ c l : Nat,
      let legal := (c ≤ 1 ∨ c = 255) ∧ (l ≤ 1 ∨ l = 255) ∧ ¬ (c = 255 ∧ l = 255)
      let fit := fun (s : State) =>
        let r := s.recordAhead
        testedPairing s.flash (if c = 255 then r.ctrlSlot else c) (if l = 255 then r.laneSlot else l) = true
      let schema := fun (s : State) =>
        let r := s.recordAhead
        3 < r.bootMap ∨ mapMinor s.flash r.bootMap ≤ schemaMinor s.flash (if c = 255 then r.ctrlSlot else c)
      let marked := fun (s : State) => s.dev.fwNamed 0 c = true ∧ s.dev.fwNamed 1 l = true
      (¬ legal → Answers (.fwActivate h c l) h 0x0E04 flashStates always .outOfRange (fun _ => zeros 4) unchanged) ∧
      (legal →
        Answers (.fwActivate h c l) h 0x0E04 flashStates (fun s => s.recordAhead.trial = true ∨ ¬ marked s) .wrongState
          (fun _ => zeros 4) unchanged ∧
        Answers (.fwActivate h c l) h 0x0E04 flashStates (fun s => s.recordAhead.trial = false ∧ marked s ∧ ¬ fit s)
          .incompatible (fun _ => leBytes 4 0x0310) unchanged ∧
        Answers (.fwActivate h c l) h 0x0E04 flashStates
          (fun s => s.recordAhead.trial = false ∧ marked s ∧ fit s ∧ ¬ schema s)
          .incompatible (fun _ => leBytes 4 0x0311) unchanged ∧
        AnswersLater (.fwActivate h c l) h 0x0E04 flashStates
          (fun s => s.recordAhead.trial = false ∧ marked s ∧ fit s ∧ schema s)
          (fun s => s.ownWrite (.boot (.activate c l) (some (ctx 0x0E04 s)))))) ∧
    Answers (.fwConfirm h) h 0x0E05 workStates
      (fun s => (s.onDev (·.withdrawRollBack)).recordAhead.trial = false) .wrongState (fun _ => []) unchanged ∧
    AnswersLater (.fwConfirm h) h 0x0E05 workStates
      (fun s => (s.onDev (·.withdrawRollBack)).recordAhead.trial = true)
      (fun s => (s.onDev (·.withdrawRollBack)).ownWrite (.boot .confirm (some (ctx 0x0E05 s)))) ∧
    (∀ r : BootRecord,
      (∀ c l, c ≠ 255 → l ≠ 255 → (BootChange.activate c l).apply r =
        { r with ctrlSlot := c, laneSlot := l, prevCtrl := r.ctrlSlot, prevLane := r.laneSlot, trial := true, trialBoots := 0 }) ∧
      (BootChange.confirm.apply r).trial = false ∧ (BootChange.confirm.apply r).ctrlSlot = r.ctrlSlot ∧
      (BootChange.rollBack.apply r).ctrlSlot = r.prevCtrl ∧ (BootChange.rollBack.apply r).laneSlot = r.prevLane ∧
      (BootChange.rollBack.apply r).trial = false)

/-- The commands on the map slots. -/
def Obligations.MapSlotCommands : Prop :=
  ∀ h : CmdHeader,
    let ctx := fun (op : Nat) (s : State) => (⟨h, op, none, s.dev.now⟩ : Ctx)
    (∀ slot, 3 < slot →
      Answers (.mapEraseSlot h slot) h 0x0101 flashStates always .outOfRange (fun _ => []) unchanged ∧
      Answers (.mapVerify h slot) h 0x0103 workStates always .outOfRange (fun _ => []) unchanged ∧
      Answers (.mapSetBoot h slot) h 0x0107 workStates always .outOfRange (fun _ => []) unchanged ∧
      Answers (.mapLoad h slot) h 0x0104 workStates (fun s => s.dev.map.swap = none ∧ s.dev.map.old = none) .outOfRange
        (fun _ => []) unchanged) ∧
    (∀ slot, slot ≤ 3 →
      let base := 0x1420000 + slot * 0x800000
      Answers (.mapEraseSlot h slot) h 0x0101 flashStates (fun s => s.mapLocked slot = true) .locked (fun _ => []) unchanged ∧
      Answers (.mapEraseSlot h slot) h 0x0101 flashStates
        (fun s => s.mapLocked slot = false ∧ s.dev.mapHeld slot = true) .wrongState (fun _ => []) unchanged ∧
      AnswersLater (.mapEraseSlot h slot) h 0x0101 flashStates (fun s => s.mapLocked slot = false ∧ s.dev.mapHeld slot = false)
        (fun s => s.hostJob ⟨ctx 0x0101 s, (List.range 128).map fun k => .erase (base / 65536 + k), .answer⟩) ∧
      (∀ (offset : Nat) (data : List Byte),
        let legal := 1 ≤ data.length ∧ data.length ≤ 1016 ∧ offset + data.length ≤ 0x800000
        (¬ legal → Answers (.mapWrite h slot offset data) h 0x0102 flashStates always .outOfRange (fun _ => []) unchanged) ∧
        (legal →
          Answers (.mapWrite h slot offset data) h 0x0102 flashStates (fun s => s.mapLocked slot = true) .locked (fun _ => [])
            unchanged ∧
          Answers (.mapWrite h slot offset data) h 0x0102 flashStates
            (fun s => s.mapLocked slot = false ∧ s.dev.mapHeld slot = false ∧
              isBlank s.flash (base + offset) data.length = false) .notErased (fun _ => []) unchanged ∧
          AnswersLater (.mapWrite h slot offset data) h 0x0102 flashStates
            (fun s => s.mapLocked slot = false ∧ s.dev.mapHeld slot = false ∧
              isBlank s.flash (base + offset) data.length = true)
            (fun s => s.hostJob ⟨ctx 0x0102 s, programSteps (base + offset) data, .answer⟩))) ∧
      (∀ e, Answers (.mapVerify h slot) h 0x0103 workStates
          (fun s => s.dev.mapHeld slot = false ∧ s.checkSlot slot = .error e) e.status (fun _ => e.bytes) unchanged ∧
        Answers (.mapSetBoot h slot) h 0x0107 workStates
          (fun s => s.dev.mapHeld slot = false ∧ s.checkSlot slot = .error e) e.status (fun _ => e.bytes) unchanged ∧
        (e.status ≠ .ok → e.status ≠ .wrongState →
          Answers (.mapLoad h slot) h 0x0104 workStates
            (fun s => s.dev.map.swap = none ∧ s.dev.map.old = none ∧ s.dev.mapHeld slot = false ∧ s.checkSlot slot = .error e)
            e.status (fun _ => e.bytes) (devOnly fun d => { d with map := { d.map with shadow := none } }))) ∧
      (∀ m, AnswersData (.mapVerify h slot) h 0x0103 workStates
          (fun s => s.dev.mapHeld slot = false ∧ s.checkSlot slot = .ok m)
          (fun _ b => b.length = 16 ∧ sliceBytes b 0 8 = leBytes 8 m.mapId ∧ sliceBytes b 8 1 = leBytes 1 m.level ∧
            sliceBytes b 10 2 = leBytes 2 m.margin) unchanged ∧
        AnswersLater (.mapSetBoot h slot) h 0x0107 workStates
          (fun s => s.dev.mapHeld slot = false ∧ s.checkSlot slot = .ok m)
          (fun s => s.ownWrite (.boot (.setBoot slot) (some (ctx 0x0107 s)))) ∧
        AnswersData (.mapLoad h slot) h 0x0104 workStates
          (fun s => s.dev.map.swap = none ∧ s.dev.map.old = none ∧ s.dev.mapHeld slot = false ∧ s.checkSlot slot = .ok m)
          (fun s b => b = verifiedData s.flash m)
          (devOnly fun d => { d.writeBanks 8388608 8388608 with map := { d.map with shadow := some m } })) ∧
      Answers (.mapLoad h slot) h 0x0104 workStates (fun s => s.dev.map.swap ≠ none ∨ s.dev.map.old ≠ none) .wrongState
        (fun _ => []) unchanged)

/-- The keys, the swap, and the reload of a section. -/
def Obligations.MapKeysAndSwap : Prop :=
  (∀ h : CmdHeader,
    let ctx := fun (op : Nat) (s : State) => (⟨h, op, none, s.dev.now⟩ : Ctx)
    (∀ key : List Byte,
      Answers (.mapKeyAdd h key) h 0x0108 [.standby] (fun s => s.ringAhead.locked = true) .locked (fun _ => []) unchanged ∧
      Answers (.mapKeyAdd h key) h 0x0108 [.standby] (fun s => s.ringAhead.locked = false ∧ key ∈ s.ringAhead.keys) .ok
        (fun _ => leBytes 8 (keyIdOf key)) unchanged ∧
      Answers (.mapKeyAdd h key) h 0x0108 [.standby]
        (fun s => s.ringAhead.locked = false ∧ key ∉ s.ringAhead.keys ∧ 8 ≤ s.ringAhead.keys.length) .outOfRange
        (fun _ => []) unchanged ∧
      AnswersLater (.mapKeyAdd h key) h 0x0108 [.standby]
        (fun s => s.ringAhead.locked = false ∧ key ∉ s.ringAhead.keys ∧ s.ringAhead.keys.length < 8)
        (fun s => s.ownWrite (.keys (.add key) (some (ctx 0x0108 s))))) ∧
    (∀ id : Nat,
      Answers (.mapKeyRemove h id) h 0x0109 [.standby] (fun s => s.ringAhead.locked = true) .locked (fun _ => []) unchanged ∧
      Answers (.mapKeyRemove h id) h 0x0109 [.standby]
        (fun s => s.ringAhead.locked = false ∧ ∀ k ∈ s.ringAhead.keys, keyIdOf k ≠ id) .outOfRange (fun _ => []) unchanged ∧
      AnswersLater (.mapKeyRemove h id) h 0x0109 [.standby]
        (fun s => s.ringAhead.locked = false ∧ ∃ k ∈ s.ringAhead.keys, keyIdOf k = id)
        (fun s => s.ownWrite (.keys (.remove id) (some (ctx 0x0109 s))))) ∧
    Answers (.mapKeyLock h) h 0x010A [.standby] (fun s => s.ringAhead.locked = true) .locked (fun _ => []) unchanged ∧
    AnswersLater (.mapKeyLock h) h 0x010A [.standby] (fun s => s.ringAhead.locked = false)
      (fun s => s.ownWrite (.keys .lock (some (ctx 0x010A s)))) ∧
    AnswersLater (.mapKeyUnlock h) h 0x010B [.lodge] always
      (fun s => s.hostJob ⟨ctx 0x010B s, (List.range 512).map fun k => .erase (322 + k), .unlock⟩) ∧
    (∀ patience : Nat,
      let legal : List DevState := [.standby, .ready, .running]
      let free := fun (s : State) => s.dev.map.swap = none ∧ s.dev.map.shadow ≠ none ∧ s.dev.samePhase = true
      let queued := fun (d : Dev) => { d with map := { d.map with swap := some ⟨patience, 0⟩ } }
      Answers (.mapSwap h patience) h 0x0105 legal (fun s => ¬ free s) .wrongState (fun _ => []) unchanged ∧
      Answers (.mapSwap h patience) h 0x0105 legal
        (fun s => free s ∧ (s.dev.sys.state = .standby ∨ s.dev.sys.state = .ready)) .ok (fun _ => [])
        (devOnly fun d => queued { d with cmd := { d.cmd with nextTick := d.cmd.nextTick ++ [.mapSwap h patience] } }) ∧
      Answers (.mapSwap h patience) h 0x0105 legal
        (fun s => free s ∧ s.dev.sys.state = .running ∧ 256 ≤ s.dev.cmd.deferred.length) .busy (fun _ => []) unchanged ∧
      Answers (.mapSwap h patience) h 0x0105 legal
        (fun s => free s ∧ s.dev.sys.state = .running ∧ s.dev.cmd.deferred.length < 256) .refusedBoundary (fun _ => [])
        (devOnly fun d => queued { d with cmd := { d.cmd with
          deferred := d.cmd.deferred ++ [.mapSwap h patience]
          peakDeferred := max d.cmd.peakDeferred (d.cmd.deferred.length + 1) } })) ∧
    Answers (.mapCancelSwap h) h 0x0106 [.ready, .running] (fun s => s.dev.map.swap = none) .wrongState (fun _ => []) unchanged ∧
    AnswersWith (.mapCancelSwap h) h 0x0106 [.ready, .running] (fun s => s.dev.map.swap ≠ none) .ok
      (fun s t => t.dev.map = { s.dev.map with swap := none } ∧
        t.dev.cmd.deferred = s.dev.cmd.deferred.filter (fun i => !isSwap i) ∧
        t.dev.cmd.nextTick = s.dev.cmd.nextTick.filter (fun i => !isSwap i) ∧ t.dev.sys = s.dev.sys)) ∧
  (∀ s : State,
    (s.dev.markerPassed = true → exec .swapMarkerDone s = .next (s.onDev fun d => { d with map := { d.map with old := none } })) ∧
    (s.dev.markerPassed = false → exec .swapMarkerDone s = .next s)) ∧
  (∀ (s : State) (typ inst address : Nat),
    (s.dev.map.active = none → exec (.sectionReload typ inst address) s = .next s) ∧
    (∀ m, s.dev.map.active = some m →
      (m.sect? typ inst = none → exec (.sectionReload typ inst address) s = .next s) ∧
      (m.sect? typ inst ≠ none → s.sectionGood m typ inst = true → exec (.sectionReload typ inst address) s =
        .next (s.onDev fun d => { d with map := { d.map with reloads := d.map.reloads ++ [(typ, inst, address)] } })) ∧
      (m.sect? typ inst ≠ none → s.sectionGood m typ inst = false →
        s.dev.sys.state ∈ [.standby, .ready, .running, .quiesce] →
        ∃ t : State, exec (.sectionReload typ inst address) s = .next t ∧ t.dev.sys.state = .faultHold ∧
          t.dev.sys.cause = 0x0034)))

/-! ### Commands that wait for a boundary -/

/-- The acceptance of actions that apply at a boundary. -/
def Obligations.BoundaryCommands : Prop :=
  let waits := fun (i : Instr) (h : CmdHeader) (op : Nat) (legal : List DevState) (pre : State → Prop) =>
    let now := fun (s : State) => s.dev.sys.state = .ready ∨ s.dev.sys.state = .standby
    Answers i h op legal (fun s => pre s ∧ now s) .ok (fun _ => [])
      (devOnly fun d => { d with cmd := { d.cmd with nextTick := d.cmd.nextTick ++ [i] } }) ∧
    Answers i h op legal (fun s => pre s ∧ ¬ now s ∧ 256 ≤ s.dev.cmd.deferred.length) .busy (fun _ => []) unchanged ∧
    Answers i h op legal (fun s => pre s ∧ ¬ now s ∧ s.dev.cmd.deferred.length < 256) .refusedBoundary (fun _ => [])
      (devOnly fun d => { d with cmd := { d.cmd with
        deferred := d.cmd.deferred ++ [i], peakDeferred := max d.cmd.peakDeferred (d.cmd.deferred.length + 1) } })
  let refuses := fun (i : Instr) (h : CmdHeader) (op : Nat) (legal : List DevState) (pre : State → Prop) =>
    Answers i h op legal pre .outOfRange (fun _ => []) unchanged
  ∀ (h : CmdHeader) (f l : Nat),
    let px := f ≤ l ∧ l ≤ 1023
    let rr : List DevState := [.ready, .running]
    let rq : List DevState := [.ready, .running, .quiesce]
    (∀ (step : Nat) (st sg sh : Bool) (t g ht hg : Nat),
      let i := Instr.feSetThreshold h f l step st sg sh t g ht hg
      let ok := px ∧ step ≤ 7
      (ok → waits i h 0x0202 rr always) ∧ (¬ ok → refuses i h 0x0202 rr always)) ∧
    (∀ v : Nat,
      let i := Instr.feSetBias h f l v
      let ok := f ≤ l ∧ l ≤ 63 ∧ (v = 0 ∨ (2000 ≤ v ∧ v ≤ 7200))
      (ok → waits i h 0x0203 rq always) ∧ (¬ ok → refuses i h 0x0203 rq always)) ∧
    (∀ v : Nat,
      (px → waits (.feSetTrim h f l v) h 0x0204 rq always) ∧ (¬ px → refuses (.feSetTrim h f l v) h 0x0204 rq always) ∧
      (px → waits (.wfcSetMode h f l v) h 0x0301 rr always) ∧ (¬ px → refuses (.wfcSetMode h f l v) h 0x0301 rr always) ∧
      (px → waits (.tdcSetOffset h f l v) h 0x0422 rr always) ∧ (¬ px → refuses (.tdcSetOffset h f l v) h 0x0422 rr always)) ∧
    (∀ what value : Nat,
      let i := Instr.acqTagControl h f l what value
      let ok := what = 0 ∨ (what = 1 ∧ px)
      (ok → waits i h 0x0602 rr always) ∧ (¬ ok → refuses i h 0x0602 rr always)) ∧
    (∀ avg : Nat,
      let i := Instr.acqSetAverage h f l avg
      let ok := fun (s : State) => px ∧ avg ≤ 8 ∧ averageFits s.dev.map.active ⟨f, l⟩ avg = true
      waits i h 0x0603 rr ok ∧ refuses i h 0x0603 rr (fun s => ¬ ok s)) ∧
    (∀ (distance a b c : Nat) (enable : Bool) (k : List Nat),
      let i := Instr.cmpSetParams h f l distance a b c enable k
      let ok := px ∧ distance ≤ f ∧ (∀ x ∈ k, x ≤ 11) ∧ (distance = 0 → c = 0)
      (ok → waits i h 0x0703 rr always) ∧ (¬ ok → refuses i h 0x0703 rr always)) ∧
    (∀ t m : Nat,
      let i := Instr.mrgSetClose h t m
      let ok := 2560 ≤ t ∧ t ≤ 25600000 ∧ m ≤ 1
      (ok → waits i h 0x0802 rr always) ∧ (¬ ok → refuses i h 0x0802 rr always)) ∧
    (∀ action len : Nat,
      let i := Instr.feGate h f l action len
      let ok := f ≤ l ∧ l ≤ 63 ∧ action ≤ 2 ∧ (action = 2 → 1 ≤ len ∧ len ≤ 2560000000) ∧ (action ≠ 2 → len = 0)
      (¬ ok → refuses i h 0x0205 rr always) ∧
      (ok → Answers i h 0x0205 rr always .ok (fun _ => [])
        (devOnly fun d => { d with cmd := { d.cmd with nextTick := d.cmd.nextTick ++ [i] } }))) ∧
    (∀ source : Nat,
      let i := Instr.timeSwitchSource h source
      let ready := fun (s : State) => source ≤ 2 ∧ (s.dev.time.source source).ready = true
      let settled := fun (s : State) => s.dev.time.alignment ≠ .ambiguous
      (2 < source → refuses i h 0x0401 workStates always) ∧
      Answers i h 0x0401 workStates (fun s => source ≤ 2 ∧ ¬ ready s) .notReady (fun _ => []) unchanged ∧
      Answers i h 0x0401 workStates (fun s => ready s ∧ settled s ∧ s.dev.time.inUse = source) .ok (fun _ => []) unchanged ∧
      Answers i h 0x0401 workStates (fun s => ready s ∧ settled s ∧ s.dev.time.inUse ≠ source) .ok (fun _ => [])
        (devOnly fun d => { d with cmd := { d.cmd with nextTick := d.cmd.nextTick ++ [i] } })) ∧
    (∀ mode : Nat,
      let i := Instr.monSetMode h mode
      (mode ≤ 1 →
        Answers i h 0x0312 workStates (fun s => 256 ≤ s.dev.cmd.deferred.length) .busy (fun _ => []) unchanged ∧
        Answers i h 0x0312 workStates (fun s => s.dev.cmd.deferred.length < 256) .refusedBoundary (fun _ => [])
          (devOnly fun d => { d with cmd := { d.cmd with
            deferred := d.cmd.deferred ++ [i], peakDeferred := max d.cmd.peakDeferred (d.cmd.deferred.length + 1) } })) ∧
      (1 < mode → refuses i h 0x0312 workStates always))

/-- The effects at a boundary. -/
def Obligations.BoundaryEffects : Prop :=
  ∀ (h : CmdHeader) (d : Dev) (f l : Nat), f ≤ l → l ≤ 1023 →
    let inside := fun (p : Nat) => f ≤ p ∧ p ≤ l
    (∀ (step : Nat) (st sg sh : Bool) (t g ht hg p : Nat), step ≤ 7 → p < 1024 →
      let e := applyDeferred (.feSetThreshold h f l step st sg sh t g ht hg) d
      let old := getD d.fe.pixels p (PixelFe.initial)
      let new := getD e.fe.pixels p (PixelFe.initial)
      (¬ inside p → new = old) ∧
      (inside p → (∀ k, k ≠ step → getD new.thresholds k ⟨0, 0⟩ = getD old.thresholds k ⟨0, 0⟩) ∧
        getD new.thresholds step ⟨0, 0⟩ = ⟨if st then t % 1024 else (getD old.thresholds step ⟨0, 0⟩).timing,
          if sg then g % 1024 else (getD old.thresholds step ⟨0, 0⟩).trigger⟩ ∧
        new.hystTiming = (if sh then ht else old.hystTiming) ∧ new.hystTrigger = (if sh then hg else old.hystTrigger) ∧
        new.gain = old.gain ∧ new.trim = old.trim) ∧
      e.cmd = d.cmd ∧ e.sys = d.sys ∧ e.fe.tiles = d.fe.tiles) ∧
    (∀ v p : Nat, p < 1024 →
      let e := applyDeferred (.tdcSetOffset h f l v) d
      ((e.tdcPixel p).map (·.tOffset) = (d.tdcPixel p).map (fun t => if f ≤ p ∧ p ≤ l then ofTwos 16 v else t.tOffset)) ∧
      e.fe = d.fe ∧ e.cmd = d.cmd) ∧
    (∀ avg p : Nat, p < 1024 →
      let e := applyDeferred (.acqSetAverage h f l avg) d
      getD e.acq.avg p 0 = (if f ≤ p ∧ p ≤ l then avg else getD d.acq.avg p 0) ∧ e.acq.tag = d.acq.tag) ∧
    (∀ value p : Nat, p < 1024 →
      (applyDeferred (.acqTagControl h f l 0 value) d) =
        { d with acq := { d.acq with tagEnable := value == 1 } } ∧
      getD (applyDeferred (.acqTagControl h f l 1 value) d).acq.tag p false =
        (if f ≤ p ∧ p ≤ l then value == 1 else getD d.acq.tag p false)) ∧
    (∀ t m : Nat, applyDeferred (.mrgSetClose h t m) d = { d with mrg := { d.mrg with closeTime := t, lateMode := m } }) ∧
    (∀ v p : Nat, p < 1024 →
      ((applyDeferred (.feSetTrim h f l v) d).pixelFe p).map (·.trim) =
        (d.pixelFe p).map (fun x => if f ≤ p ∧ p ≤ l then v else x.trim)) ∧
    (∀ v n : Nat, l ≤ 63 → n < 64 →
      ((applyDeferred (.feSetBias h f l v) d).tileFe n).map (·.target) =
        (d.tileFe n).map (fun x => if f ≤ n ∧ n ≤ l ∧ x.heldOff = false then v else x.target)) ∧
    (∀ action len n : Nat, l ≤ 63 → n < 64 →
      let old := getD d.fe.tiles n TileFe.initial
      let new := getD (applyDeferred (.feGate h f l action len) d).fe.tiles n TileFe.initial
      let named := f ≤ n ∧ n ≤ l
      new.commandOff = (if named ∧ action = 0 then false else if named ∧ action = 1 then true else old.commandOff) ∧
      new.pulseEnds = (if named ∧ 2 ≤ action then some (max (d.sys.ticks + len) (old.pulseEnds.getD 0)) else old.pulseEnds) ∧
      new.sourceOff = old.sourceOff) ∧
    (∀ mode p : Nat, p < 1024 →
      ((applyDeferred (.wfcSetMode h f l mode) d).wfc[p]?).map (·.lowAsked) =
        (d.wfc[p]?).map (fun x => if f ≤ p ∧ p ≤ l then mode == 1 else x.lowAsked)) ∧
    (∀ (distance a b c : Nat) (enable : Bool) (k : List Nat) (t : CmpTable) (ts : List CmpTable), d.cmp.tables = t :: ts →
      let e := applyDeferred (.cmpSetParams h f l distance a b c enable k) d
      ∃ new rest, e.cmp.tables = new :: rest ∧ new.number = t.number + 1 ∧ new.overridden = true ∧ new.mapLow = t.mapLow ∧
        ∀ p < 1024, getD new.pixels p (commandParams 0 0 0 0 false [] 0) =
          (if f ≤ p ∧ p ≤ l then commandParams distance a b c enable k p
           else getD t.pixels p (commandParams 0 0 0 0 false [] 0)))

/-! ### The front end -/

/-- R87 and R88, and what follows from them. -/
def Obligations.GainChanges : Prop :=
  (∀ (h : CmdHeader) (f l g : Nat) (imm : Bool),
    (¬ (f ≤ l ∧ l ≤ 1023 ∧ g ≤ 7) →
      Answers (.feSetGain h f l g imm) h 0x0201 [.ready, .running] always .outOfRange (fun _ => []) unchanged) ∧
    (f ≤ l → l ≤ 1023 → g ≤ 7 → ∀ s : State, s.dev.carries h [.ready, .running] = true →
      let waits := fun (p : Nat) => (getD s.dev.fe.pixels p PixelFe.initial).gain ≠ g ∧
        (s.dev.inTransition p = true ∨ (imm = false ∧ s.dev.inOpenSegment p = true))
      ∃ (t : State) (st : Status), exec (.feSetGain h f l g imm) s = .next (t.replied h 0x0201 s.dev.now st []) ∧
        ((∃ p, f ≤ p ∧ p ≤ l ∧ waits p) → st = .refusedBoundary) ∧
        ((∀ p, f ≤ p → p ≤ l → ¬ waits p) → st = .ok) ∧
        ∀ p < 1024,
          let old := getD s.dev.fe.pixels p PixelFe.initial
          let new := getD t.dev.fe.pixels p PixelFe.initial
          (¬ (f ≤ p ∧ p ≤ l) → new.gain = old.gain ∧ new.waiting = old.waiting) ∧
          (f ≤ p → p ≤ l → waits p → new.gain = old.gain ∧ new.waiting = some ⟨g, s.dev.sys.ticks, imm⟩) ∧
          (f ≤ p → p ≤ l → ¬ waits p → old.gain = g ∨ s.dev.sampleBoundary p = true → new.gain = g ∧ new.waiting = none) ∧
          (f ≤ p → p ≤ l → ¬ waits p → old.gain ≠ g → s.dev.sampleBoundary p = false →
            new.gain = old.gain ∧ new.waiting = some ⟨g, s.dev.sys.ticks, imm⟩))) ∧
  (∀ (s : State) (p : Nat), p < 1024 →
    let old := getD s.dev.fe.pixels p PixelFe.initial
    (∃ t : State, exec (.gainChangeApply p) s = .next t ∧
      let new := getD t.dev.fe.pixels p PixelFe.initial
      (old.waiting = none → new.gain = old.gain ∧ new.waiting = none) ∧
      (∀ w, old.waiting = some w →
        let may := s.dev.inTransition p = false ∧ (w.immediate = true ∨ s.dev.inOpenSegment p = false) ∧
          s.dev.sampleBoundary p = true
        (may → new.gain = w.gain ∧ new.waiting = none ∧ new.trim = old.trim) ∧
        (¬ may → new.gain = old.gain ∧ new.waiting = some w)) ∧
      ∀ q < 1024, q ≠ p → (getD t.dev.fe.pixels q PixelFe.initial).gain = (getD s.dev.fe.pixels q PixelFe.initial).gain) ∧
    (∀ w, old.waiting = some w → ∃ t : State, exec (.gainDeferTimeout p) s = .next t ∧
      let new := getD t.dev.fe.pixels p PixelFe.initial
      (s.dev.sys.ticks < w.due + s.dev.gainDefer p → new.gain = old.gain ∧ new.waiting = some w) ∧
      (w.due + s.dev.gainDefer p ≤ s.dev.sys.ticks → s.dev.inTransition p = false → s.dev.sampleBoundary p = true →
        new.gain = w.gain ∧ new.waiting = none) ∧
      (w.due + s.dev.gainDefer p ≤ s.dev.sys.ticks → ¬ (s.dev.inTransition p = false ∧ s.dev.sampleBoundary p = true) →
        new.gain = old.gain ∧ new.waiting = some { w with immediate := true })) ∧
    (∀ timing trigger : Bool,
      let gives := s.dev.transitionEnds p = true ∧ timing = true ∧ silentCode (s.dev.thresholdsNow p).timing = false
      (gives → pixelEnabled s.dev.map.active p = true → s.dev.pixelMasked p = false →
        (s.dev.tdcPixel p).any (·.slot) = false → ∃ t : State, exec (.rangeTransitionEnd p timing trigger) s = .next t ∧
        (t.dev.tdcPixel p).bind (·.pulse) = some ⟨128 * (s.dev.globalNow : Int), true, false, s.dev.frameStart⟩ ∧
        t.dev.slalom = s.dev.slalom) ∧
      (¬ gives → exec (.rangeTransitionEnd p timing trigger) s = .next s))) ∧
  (∀ (s : State) (n : Nat), s.dev.fe.scheduleNext ≤ n → n ≤ mapCount s.dev.map.active 0x0011 0 →
    let due := fun (k : Nat) => s.dev.entryDue s.dev.map.active k = true
    (∀ k, s.dev.fe.scheduleNext ≤ k → k < n → due k) → (n < mapCount s.dev.map.active 0x0011 0 → ¬ due n) →
    ∃ t : State, exec .gainScheduleDue s = .next t ∧ t.dev.fe.scheduleNext = n) ∧
  (∀ (s : State) (p : Nat), p < 1024 →
    let old := getD s.dev.fe.pixels p PixelFe.initial
    let on := old.clampSpans.any (·.stop.isNone)
    (exec (.clampConducts p on) s = .next s) ∧
    (on = false → ∃ t : State, exec (.clampConducts p true) s = .next t ∧
      let new := getD t.dev.fe.pixels p PixelFe.initial
      new.clampCount = (old.clampCount + 1) % 2 ^ 32 ∧ new.clampSpans = openSpan s.dev.sys.ticks old.clampSpans ∧
      t.dev.tdc = s.dev.tdc) ∧
    (on = true → ∃ t : State, exec (.clampConducts p false) s = .next t ∧ t.dev.evt = s.dev.evt ∧
      let new := getD t.dev.fe.pixels p PixelFe.initial
      new.clampCount = old.clampCount ∧ new.clampSpans = closeSpan (s.dev.sys.ticks + 64) old.clampSpans))

/-- The tiles. -/
def Obligations.TileRows : Prop :=
  let tile := fun (s : State) (n : Nat) => getD s.dev.fe.tiles n TileFe.initial
  (∀ (h : CmdHeader) (f l : Nat),
    let legal : List DevState := [.ready, .running, .quiesce]
    (¬ (f ≤ l ∧ l ≤ 63) → Answers (.feOpenCheck h f l) h 0x0206 legal always .outOfRange (fun _ => []) unchanged) ∧
    (f ≤ l → l ≤ 63 → AnswersWith (.feOpenCheck h f l) h 0x0206 legal always .ok (fun s t =>
      ∀ n < 64,
        let free := (tile s n).freeForCheck s.dev.sys.ticks
        (¬ (f ≤ n ∧ n ≤ l) ∨ (tile s n).check ≠ .none → tile t n = tile s n) ∧
        (f ≤ n → n ≤ l → (tile s n).check = .none → free = true → (tile t n).check = .charging s.dev.sys.ticks) ∧
        (f ≤ n → n ≤ l → (tile s n).check = .none → free = false →
          tile t n = { tile s n with checkWaiting := true })))) ∧
  (∀ (s : State) (n : Nat), n < 64 →
    let old := tile s n
    (let due := old.ramping = true ∧ (old.discharging = true ∨ nearBias (s.dev.tileOutput n old) old.target = true)
     (¬ due → exec (.biasRampDone n) s = .next s) ∧
     (due → ∃ t : State, exec (.biasRampDone n) s = .next t ∧ (tile t n).output = 256000 * old.target ∧
       (tile t n).target = old.target ∧ (tile t n).ramping = false ∧ (tile t n).discharging = false)) ∧
    (∃ t : State, exec (.biasCurrentLimitOff n) s = .next t ∧ (tile t n).generatorOff = true ∧
      (old.generatorOff = true → tile t n = old) ∧
      (old.generatorOff = false → (tile t n).output = 0 ∧ (tile t n).ramping = false ∧ (tile t n).target = old.target)) ∧
    (∀ measured : Nat,
      let bad := old.ramping = false ∧ inSpans old.gatedSpans s.dev.sys.ticks = false ∧ beyondTolerance measured old.target = true
      (¬ bad → exec (.biasOutOfTolerance n measured) s = .next s) ∧
      (bad → exec (.biasOutOfTolerance n measured) s =
        .next (s.onDev (·.raiseLimited (1024 + n) 1 0 [evNat n, .real measured])))) ∧
    (let period := mapNum s.dev.map.active 0x0013 0 (16 + 32 * n + 24) 2 0
     let due := period ≠ 0 ∧ old.checkFrom + period * 2560000000 ≤ s.dev.sys.ticks
     ∃ t : State, exec (.openCheckDue n) s = .next t ∧ (¬ due → tile t n = old) ∧
       (due → (tile t n).checkFrom = s.dev.sys.ticks ∧
         (old.check = .none → old.freeForCheck s.dev.sys.ticks = true → (tile t n).check = .charging s.dev.sys.ticks))) ∧
    (∀ above : Nat,
      ((∀ since, old.check = .charging since → s.dev.sys.ticks < since + 768000) →
        exec (.openCheckCompare n above) s = .next s) ∧
      (∀ since, old.check = .charging since → since + 768000 ≤ s.dev.sys.ticks →
        ∃ t : State, exec (.openCheckCompare n above) s = .next t ∧ (tile t n).check = .recovering since ∧
          ∀ i < 16, mapBits s.dev.map.active 0x0010 0 (16 + 8 * (16 * n + i) + 3) 1 1 1 1 = 1 →
            (getD t.dev.fe.pixels (16 * n + i) PixelFe.initial).isOpen = bit above i)) ∧
    (∃ t : State, exec (.openCheckEnd n) s = .next t ∧
      ((∀ since, old.check = .recovering since → s.dev.sys.ticks < since + 773120) → tile t n = old) ∧
      (∀ since, old.check = .recovering since → since + 773120 ≤ s.dev.sys.ticks → (tile t n).check = .none)) ∧
    (∃ t : State, exec (.gatePeriodEdge n) s = .next t ∧ (tile t n).sourceOff = s.dev.sourceAsks n ∧
      (tile t n).commandOff = old.commandOff ∧ (tile t n).pulseEnds = old.pulseEnds) ∧
    (∃ t : State, exec (.gatedFlagEnd n) s = .next t ∧
      (∀ e, old.flagEnds = some e → e ≤ s.dev.sys.ticks → old.gatedOff = false → (tile t n).flagEnds = none) ∧
      ((∀ e, old.flagEnds = some e → s.dev.sys.ticks < e ∨ old.gatedOff = true) → tile t n = old)) ∧
    (∃ t : State, exec (.gatePulseEnd n) s = .next t ∧
      (∀ e, old.pulseEnds = some e → e ≤ s.dev.sys.ticks → (tile t n).pulseEnds = none ∧
        (tile t n).commandOff = old.commandOff ∧ (tile t n).sourceOff = old.sourceOff) ∧
      ((∀ e, old.pulseEnds = some e → s.dev.sys.ticks < e) → tile t n = old))) ∧
  (∀ (s : State) (xt entry : Nat) (level : Bool), xt < 4 → ∃ t : State, exec (.xtEdge xt ⟨level, entry⟩) s = .next t ∧
    (getD t.dev.slalom.xt xt []).head? = some (entry - (Config.xtDelay xt).toNat, level) ∧
    (∀ y < 4, y ≠ xt → getD t.dev.slalom.xt y [] = getD s.dev.slalom.xt y []) ∧
    ∀ n < 64, (mapNum s.dev.map.active 0x0013 0 (16 + 32 * n + 1) 1 0 = 2 + xt → (tile t n).sourceOff = level) ∧
      (mapNum s.dev.map.active 0x0013 0 (16 + 32 * n + 1) 1 0 ≠ 2 + xt → tile t n = tile s n))

/-! ### Converters, monitor and interpolators -/

/-- R102, R107 and R528. -/
def Obligations.ConverterRows : Prop :=
  (∀ (h : CmdHeader) (f l run : Nat),
    let legal : List DevState := [.ready, .running, .quiesce]
    (¬ (f ≤ l ∧ l ≤ 1023) → Answers (.wfcCalControl h f l run) h 0x0302 legal always .outOfRange (fun _ => []) unchanged) ∧
    (f ≤ l → l ≤ 1023 → AnswersWith (.wfcCalControl h f l run) h 0x0302 legal always .ok (fun s t =>
      (∀ p < 1024, ∀ w v : WfcPixel, s.dev.wfc[p]? = some w → t.dev.wfc[p]? = some v →
        (¬ (f ≤ p ∧ p ≤ l) → v = w) ∧
        (f ≤ p → p ≤ l → v.nextSettings = { w.nextSettings with enable := run == 1 } ∧ v.slices = w.slices ∧
          (run ≠ 1 → v.rotates = false))) ∧
      t.dev.fe = s.dev.fe ∧ t.dev.cmd = s.dev.cmd))) ∧
  (∀ (s : State) (p : Nat) (active shadow before after first second third fourth : List Nat) (w : WfcPixel),
    s.dev.wfc[p]? = some w →
    let run := exec (.dwellEnd p active shadow before after first second third fourth) s
    let xs := dwellSamples active shadow before after
    let runs := s.dev.converting = true ∧ w.rotates = true ∧ s.dev.dwellOver w = true
    (¬ runs → run = .next s) ∧
    (∀ j k, runs → w.sliceOf (.position w.shadowed) = some j → w.sliceOf .spare = some k →
      let failed := wfcTest s.dev.map.active = true ∧ (testResult [first, second, third, fourth]).code ≠ none
      let twice := failed ∧ ∃ n, w.testFails[k]? = some n ∧ 1 ≤ n
      (twice → ∃ (t : State) (v : WfcPixel), run = .next t ∧ t.dev.wfc[p]? = some v ∧ (v.slice k).role = .retired ∧
        ∀ q < 1024, q ≠ p → t.dev.wfc[q]? = s.dev.wfc[q]?) ∧
      (¬ twice →
      let r := s.dev.measureDwell p w (w.slice j) xs
      let starved := if w.settings.minActive ≤ r.active then 0 else min (w.starved + 1) 4294967295
      let aged := { w.keep s.dev.sys.ticks with
        starved := starved, slices := w.slices.map fun x => { x with since := satInc 32 x.since } }
      let new := (correctedSlice aged j r).1
      ((r.usable < 1024 ∨ w.gainChanged = true) → new.off = (w.slice j).off) ∧
      (r.active < w.settings.minActive → new.gc = (w.slice j).gc ∧ new.dly = (w.slice j).dly) ∧
      ∃ (t : State) (v : WfcPixel), run = .next t ∧ t.dev.wfc[p]? = some v ∧
        (∀ q < 1024, q ≠ p → t.dev.wfc[q]? = s.dev.wfc[q]?) ∧ v.starved = starved ∧
        (∀ n, w.testFails[k]? = some n → (failed → v.testFails[k]? = some (n + 1)) ∧
          (wfcTest s.dev.map.active = true → ¬ failed → v.testFails[k]? = some 0)) ∧
        (∀ ys : List DwellSample, (∀ i, 1024 ≤ i → ys[i]? = xs[i]?) → ys.length = xs.length → wfcTest s.dev.map.active = true →
          (∀ (i : Nat) (y : DwellSample), ys[i]? = some y → y.index = i) → s.dev.measureDwell p w (w.slice j) ys = r) ∧
        ((correctedSlice aged j r).2 = none →
          v.slice j = { new with role := .spare } ∧ (v.slice k).role = .position w.shadowed ∧
          v.shadowed = (if w.lowPower then 4 - w.shadowed else (w.shadowed + 1) % 8) ∧ v.settings = w.nextSettings ∧
          v.dwellFrom = s.dev.sys.ticks ∧ ∀ i < 9, i ≠ j → i ≠ k → (v.slice i).role = (w.slice i).role) ∧
        ((correctedSlice aged j r).2 ≠ none → (v.slice j).role = .retired))))

/-- The sequencer of R117 and the margins of R60. -/
def Obligations.MonitorRows : Prop :=
  (∀ s : State,
    let runs := s.dev.sys.state ≠ .off ∧ s.dev.sys.state ≠ .lodge
    let m := s.dev.mon
    let now := s.dev.sys.ticks
    let settled := runs ∧ m.phase = .settling ∧ m.selectAt + 2560 * m.current.settle ≤ now
    let after := runs ∧ m.phase = .afterwards ∧ m.convTick + 2560 * m.current.after ≤ now
    (¬ settled → exec .monSettleEnd s = .next s) ∧
    (settled → exec .monSettleEnd s = .next (s.onDev fun d => { d with mon := { m with
      phase := .converting, convTick := d.sys.ticks, convTime := d.now, firstTick := d.sys.ticks, firstTime := d.now } })) ∧
    (¬ (m.excited = true ∧ m.windowEnd ≤ now) → exec .excitationWindowEnd s = .next s) ∧
    (m.excited = true ∧ m.windowEnd ≤ now →
      exec .excitationWindowEnd s = .next (s.onDev fun d => { d with mon := { m with excited := false } })) ∧
    (¬ after → exec .monAfterEnd s = .next s) ∧
    (after → m.entry + 1 < monCount m.table →
      exec .monAfterEnd s = .next (s.onDev fun d => { d with mon := m.select now (m.entry + 1) }) ∧
      (m.select now (m.entry + 1)).entry = m.entry + 1 ∧ (m.select now (m.entry + 1)).phase = .settling) ∧
    (after → monCount m.table ≤ m.entry + 1 → ∃ t : State, exec .monAfterEnd s = .next t ∧
      t.dev.mon.entry = 0 ∧ t.dev.mon.phase = .settling ∧ t.dev.mon.selectAt = now ∧ t.dev.mon.record = none ∧
      (m.tableDue = false → t.dev.mon.pass = (m.pass + 1) % 2 ^ 32 ∧ t.dev.mon.table = m.table) ∧
      (m.tableDue = true → t.dev.mon.pass = 0 ∧ t.dev.mon.table = s.dev.map.active ∧ t.dev.mon.tableDue = false) ∧
      (∀ h x, Instr.monSetMode h x ∉ t.dev.cmd.deferred) ∧
      ((∀ h x, Instr.monSetMode h x ∉ s.dev.cmd.deferred) → t.dev.mon.lowPower = m.lowPower) ∧
      (∀ h x q, s.dev.cmd.deferred = q ++ [.monSetMode h x] → t.dev.mon.lowPower = (x == 1)))) ∧
  (∀ (s : State) (code : Nat),
    let m := s.dev.mon
    let v := ofTwos 20 code
    let due := s.dev.sys.state ≠ .off ∧ s.dev.sys.state ≠ .lodge ∧ m.phase = .converting ∧
      m.convTick + conversionTicks m.lowPower ≤ s.dev.sys.ticks
    let invalid := m.resistance = true ∧ m.windowEnd < s.dev.sys.ticks
    (¬ due → exec (.monResult code) s = .next s) ∧
    (due → ∃ t : State, exec (.monResult code) s = .next t ∧
      t.dev.mon.conv = m.conv + 1 ∧ t.dev.mon.phase = (if m.current.rep < m.conv + 1 then .afterwards else .converting) ∧
      t.dev.mon.overRange = (if v = 524287 ∨ v = -524288 then min (m.overRange + 1) 4294967295 else m.overRange) ∧
      (m.current.average = false → m.current.input < 256 → ¬ invalid →
        (sourceOn m m.current false = true → readsHigh m.current v = false) →
        ((getD t.dev.mon.latest m.current.input none).map (·.value)) =
          some (monValue m.table m.current.input m.current.gain v)))) ∧
  (∀ (s : State) (cycles : List CycleSet),
    (s.dev.sys.ticks < s.dev.map.marginAt + 2560000 → exec (.marginPeriod cycles) s = .next s) ∧
    (s.dev.map.marginAt + 2560000 ≤ s.dev.sys.ticks → ∃ t : State, exec (.marginPeriod cycles) s = .next t ∧
      t.dev.map.active = s.dev.map.active ∧ t.dev.map.marginAt = s.dev.sys.ticks ∧
      ∀ station < 11,
        let old := getD s.dev.map.margins station ⟨none, false, 0⟩
        let new := getD t.dev.map.margins station ⟨none, false, 0⟩
        (((∀ c ∈ cycles, c.station = station → c.count = 0) ∨ stationLimit s.dev.map.active station = none) → new = old) ∧
        (∀ (treq : Nat) (c : CycleSet), stationLimit s.dev.map.active station = some treq → c ∈ cycles → c.station = station →
          0 < c.count → (∀ x ∈ cycles, x.station = station → 0 < x.count → x.ps ≤ c.ps) →
          new = (old.step ((1000 * ((treq : Int) - c.ps)) / (treq : Int))).1 ∧
          new.value = some ((1000 * ((treq : Int) - c.ps)) / (treq : Int)))))

/-- The interpolators. Equal counts of a pair give a free value, which this statement leaves out. -/
def Obligations.InterpolatorRows : Prop :=
  (∀ (s : State) (p raw hits tags : Nat) (rising onBoundary parity : Bool) (x : TdcPixel), s.dev.tdcPixel p = some x →
    let run := exec (.timingEdge p rising raw onBoundary hits tags parity) s
    let d := s.dev.emptyCrossings p hits tags
    let pix := fun (t : State) => t.dev.tdcPixel p
    let ahead := if onBoundary then 1 else 2
    let f := fun (y : CalPair) => rneQuot ((16 * (raw : Int) - 2 * y.c1 + y.c2) * 128) ((y.c2 : Int) - y.c1)
    let by_ := fun (y : CalPair) =>
      128 * ((s.dev.globalNow + ahead : Nat) : Int) - f y - ((Config.edgeDelay p).toNat : Int) + x.tOffset
    let frame : Int := 128 * ((s.dev.globalNow : Int) - sinceEdge s.dev.framePhase s.dev.globalNow)
    let e := if frame ≤ by_ x.applied then by_ x.applied else by_ x.previous
    let apart := s.dev.pixelMasked p = true ∨ x.slot = true ∨ s.dev.sys.ticks < x.lastStop
    let fires := pixelEnabled s.dev.map.active p = true ∧ (rising = true → silentCode (s.dev.thresholdsNow p).timing = false)
    (¬ fires → run = .next (s.onDev fun _ => d)) ∧
    (fires → apart → rising = true → ∃ t : State, run = .next t ∧
      (pix t).map (·.lostRise) = some true ∧ (pix t).map (·.pulse) = some x.pulse ∧ t.dev.acq = d.acq) ∧
    (fires → ¬ apart → s.dev.inTransition p = false → x.applied.c1 ≠ x.applied.c2 → x.previous.c1 ≠ x.previous.c2 →
      (rising = true → ∃ t : State, run = .next t ∧ (pix t).bind (·.pulse) = some ⟨e, false, false, if frame ≤ by_ x.applied then s.dev.frameStart else s.dev.frameStart - 262144⟩ ∧
        (pix t).map (·.lastStop) = some (s.dev.sys.ticks + ahead) ∧ (pix t).map (·.lostRise) = some false) ∧
      (rising = false → x.lostRise = true → ∃ t : State, run = .next t ∧ (pix t).map (·.lostRise) = some false ∧
        t.dev.acq = d.acq) ∧
      (∀ q : Pulse, rising = false → x.lostRise = false → x.pulse = some q →
        let fifo := getD d.acq.hitFifo (p / 16) []
        let depth := crossingDepth s.dev.map.active 1 0 4096
        (depth ≤ fifo.length → ∃ t : State, run = .next t ∧ (pix t).bind (·.pulse) = none ∧
          t.dev.acq.hitFifo = d.acq.hitFifo ∧ (pix t).map (·.hitOverflow) = some true ∧
          t.dev.acq.counters.hitOverflow =
            (if s.dev.sys.state = .running then (d.acq.counters.hitOverflow + 1) % 2 ^ 64 else d.acq.counters.hitOverflow)) ∧
        (fifo.length < depth → ∃ (t : State) (w : Hit), run = .next t ∧ (pix t).bind (·.pulse) = none ∧
          getD t.dev.acq.hitFifo (p / 16) [] = fifo ++ [w] ∧ (pix t).map (·.hitOverflow) = some false ∧
          w.pixel = p ∧ w.rise = q.rise ∧ w.rangeEdge = q.rangeEdge ∧
          w.overflow = x.hitOverflow ∧ (w.noFalling = true ↔ 1048560 ≤ e - q.rise) ∧
          (1048560 ≤ e - q.rise → w.tot = 65535) ∧ (e - q.rise < 1048560 → w.tot = (e - q.rise).toNat / 16))))) ∧
  (∀ (s : State) (p hits tags : Nat) (parity : Bool) (x : TdcPixel), s.dev.tdcPixel p = some x →
    let run := exec (.hitWordTimeout p hits tags parity) s
    let d := s.dev.emptyCrossings p hits tags
    (x.pulse = none → run = .next (s.onDev fun _ => d)) ∧
    (∀ q : Pulse, x.pulse = some q →
      let age := 128 * (s.dev.globalNow : Int) - q.rise
      (age < 130944 → run = .next (s.onDev fun _ => d)) ∧
      (130944 ≤ age → age < 1051632 → q.tagClosed = false → q.rangeEdge = false → ∃ t : State, run = .next t ∧
        (t.dev.tdcPixel p).bind (·.pulse) = some { q with tagClosed := true } ∧ t.dev.acq.hitFifo = d.acq.hitFifo) ∧
      (1051632 ≤ age → ∃ t : State, run = .next t ∧ (t.dev.tdcPixel p).bind (·.pulse) = none))) ∧
  (∀ s : State,
    let due := sinceEdge s.dev.framePhase s.dev.globalNow = 262144 - 128
    (¬ due → exec .calSlotStart s = .next s) ∧
    (due → ∃ t : State, exec .calSlotStart s = .next t ∧ ∀ p < 1024,
      (pixelEnabled s.dev.map.active p = true ∧ slotEnabled s.dev.map.active p = true →
        (t.dev.tdcPixel p).map (·.slot) = some true ∧ (t.dev.tdcPixel p).bind (·.pulse) = none) ∧
      (¬ (pixelEnabled s.dev.map.active p = true ∧ slotEnabled s.dev.map.active p = true) →
        t.dev.tdcPixel p = s.dev.tdcPixel p))) ∧
  (∀ (s : State) (p c1 c2 : Nat) (x : TdcPixel), s.dev.tdcPixel p = some x →
    let inForce := fun (y : CalPair) => if slotEnabled s.dev.map.active p then y else factoryPair p
    ∃ y : TdcPixel, (s.dev.judgePair p c1 c2).tdcPixel p = some y ∧ y.slot = false ∧ y.measured = some (c1, c2) ∧
      y.previous = x.applied ∧
      (pairAccepted s.dev.map.active p c1 c2 = true → y.applied = inForce ⟨c1, c2, false, false⟩ ∧
        y.lastAccepted = some (c1, c2)) ∧
      (pairAccepted s.dev.map.active p c1 c2 = false → y.lastAccepted = x.lastAccepted ∧
        (∀ a b, x.lastAccepted = some (a, b) → y.applied = inForce ⟨a, b, true, false⟩) ∧
        (x.lastAccepted = none → y.applied = factoryPair p)))

/-! ### The time base -/

/-- The commands of the time group that change it. -/
def Obligations.TimeCommands : Prop :=
  (∀ h : CmdHeader,
    (∀ v, Answers (.timeSetSeconds h v) h 0x0402 [.standby, .ready] always .ok (fun _ => [])
      (devOnly fun d => { d with time := { d.time with pendingSeconds := some v } })) ∧
    (let legal : List DevState := [.standby, .ready]
     let fits := fun (s : State) => s.dev.time.inUse = 1 ∨ (s.dev.time.inUse = 0 ∧ s.dev.time.pps = true)
     Answers (.timeAlign h) h 0x0403 legal (fun s => s.dev.time.slewFrom ≠ none) .wrongState (fun _ => []) unchanged ∧
     Answers (.timeAlign h) h 0x0403 legal (fun s => s.dev.time.slewFrom = none ∧ ¬ fits s) .notReady (fun _ => []) unchanged ∧
     AnswersLater (.timeAlign h) h 0x0403 legal (fun s => s.dev.time.slewFrom = none ∧ fits s)
       (fun s => s.onDev fun d => { d with time := { d.time with
         pendingAlign := d.time.pendingAlign ++ [⟨h, 0x0403, none, d.now⟩] } })) ∧
    (∀ a b c e : Nat,
      let ok := a ≤ 24 ∧ b ≤ 24 ∧ (4 ≤ c ∧ c ≤ 100) ∧ 4 ≤ e ∧ e ≤ 100
      let legal : List DevState := [.standby, .ready, .running]
      (ok → Answers (.timeSetSpread h a b c e) h 0x0405 legal always .ok (fun _ => [])
        (devOnly fun d => { d with time := { d.time with pendingSpread := some ⟨a, b, c, e⟩ } })) ∧
      (¬ ok → Answers (.timeSetSpread h a b c e) h 0x0405 legal always .outOfRange (fun _ => []) unchanged)) ∧
    (∀ x, 2 < x → Answers (.timeClearFail h x) h 0x0404 workStates always .outOfRange (fun _ => []) unchanged) ∧
    (∀ x ≤ 2, AnswersWith (.timeClearFail h x) h 0x0404 workStates always .ok (fun s t =>
      (t.dev.time.source x).failed = false ∧ (t.dev.time.source x).cause = 0 ∧ t.dev.time.inUse = s.dev.time.inUse ∧
      t.dev.time.alignment = s.dev.time.alignment ∧
      ∀ y ≤ 2, (t.dev.time.source y).present = (s.dev.time.source y).present ∧
        (y ≠ x → (t.dev.time.source y).failed = (s.dev.time.source y).failed ∧
          (t.dev.time.source y).cause = (s.dev.time.source y).cause)))) ∧
  (∀ (h : CmdHeader) (d : Dev) (x : Nat), x ≤ 2 →
    let t := applyDeferred (.timeSwitchSource h x) d
    let go := (d.time.source x).ready = true ∧ d.time.inUse ≠ x
    (¬ go → t = d) ∧
    (go → t.time.inUse = x ∧ t.time.slewFrom = some d.time.inUse ∧ t.time.discard = true ∧ t.time.steerLeft = 0 ∧
      t.time.alignment = (if d.time.alignment = .ambiguous then .ambiguous
        else if x = 2 ∧ (d.time.alignment ≠ .free ∨ d.time.aligned = true) then .holdover else .free) ∧
      t.time.seconds = d.time.seconds ∧ t.time.tick = d.time.tick ∧ t.map = d.map ∧ t.sys = d.sys))

/-- The rows of the reference sources. -/
def Obligations.SourceRows : Prop :=
  (∀ (s : State) (x : Nat),
    let old := s.dev.time.source x
    (2 < x ∨ old.present = true → exec (.sourcePresent x) s = .next s) ∧
    (x ≤ 2 → old.present = false → ∃ t : State, exec (.sourcePresent x) s = .next t ∧
      (t.dev.time.source x).present = true ∧ (t.dev.time.source x).failed = old.failed ∧ t.dev.time.discard = true ∧
      t.dev.time.inUse = s.dev.time.inUse ∧
      ∀ y ≤ 2, y ≠ x → (t.dev.time.source y).present = (s.dev.time.source y).present) ∧
    (2 < x ∨ old.present = false → exec (.sourceAbsent x) s = .next s) ∧
    (x ≤ 2 → old.present = true → ∃ t : State, exec (.sourceAbsent x) s = .next t ∧
      (t.dev.time.source x).present = false ∧ (t.dev.time.source x).agree = 0 ∧ t.dev.time.discard = true ∧
      (∀ y ≤ 2, y ≠ x → (t.dev.time.source y).present = (s.dev.time.source y).present ∧
        (t.dev.time.source y).failed = (s.dev.time.source y).failed) ∧
      (s.dev.time.inUse ≠ x → (t.dev.time.source x).failed = old.failed ∧ t.dev.time.inUse = s.dev.time.inUse ∧
        t.dev.time.alignment = s.dev.time.alignment) ∧
      (s.dev.time.inUse = x → (t.dev.time.source x).failed = true ∧ (t.dev.time.source x).cause = 2 ∧
        (x ≠ 2 → s.dev.time.int.present = true → t.dev.time.inUse = 2 ∧ t.dev.time.slewFrom = none ∧
          t.dev.time.alignment = .holdover)))) ∧
  (∀ (s : State) (na nb ni : Nat),
    let count := fun (x : Nat) => if x = 0 then na else if x = 1 then nb else ni
    let skip := s.dev.time.discard = true ∨ s.dev.time.slewFrom ≠ none
    (skip → s.dev.time.limitsDue = false → exec (.countingWindowEnd na nb ni) s =
      .next (s.onDev fun d => { d with time := { d.time with discard := d.time.slewFrom.isSome } })) ∧
    (¬ skip → ∃ t : State, exec (.countingWindowEnd na nb ni) s = .next t ∧
      (∀ p ∈ [(0, 1), (0, 2), (1, 2)],
        let both := s.dev.sourceCounts p.1 = true ∧ s.dev.sourceCounts p.2 = true
        (both → (t.dev.time.pair p).diff = rneInt ((count p.1 : Int) - (count p.2 : Int)) 128) ∧
        (¬ both → (t.dev.time.pair p).diff = (s.dev.time.pair p).diff)) ∧
      (∀ y ≤ 2, (t.dev.time.source y).present = (s.dev.time.source y).present) ∧ t.dev.time.limitsDue = false ∧
      (-10000 ≤ s.dev.time.correction → s.dev.time.correction ≤ 10000 →
        (t.dev.time.correction - s.dev.time.correction).natAbs ≤ 1 ∧ -10000 ≤ t.dev.time.correction ∧
        t.dev.time.correction ≤ 10000))) ∧
  (∀ s : State,
    (s.dev.sys.ticks < s.dev.time.slewEnds → exec .slewDone s = .next s) ∧
    (s.dev.time.slewEnds ≤ s.dev.sys.ticks → exec .slewDone s =
      .next (s.onDev fun d => { d with time := { d.time with slewFrom := none } })) ∧
    (let m := s.dev.map.active
     let due := timeFlag m 0 0 = true ∧ ∃ n, s.dev.time.readySince = some n ∧ n + timeField m 8 2 60 * 2560000000 ≤ s.dev.sys.ticks
     (¬ due → exec .autoReturn s = .next s) ∧
     (due → ∃ t : State, exec .autoReturn s = .next t ∧ t.dev.time.inUse = preferred m ∧
       t.dev.time.slewFrom = some s.dev.time.inUse ∧ t.dev.time.discard = true ∧ t.dev.time.readySince = none ∧
       (s.dev.time.alignment = .ambiguous → t.dev.time.alignment = .ambiguous) ∧ t.dev.map = s.dev.map)))

/-- The rows of the time word and of the exchange with the parent. -/
def Obligations.TimeRows : Prop :=
  (∀ (s : State) (fine : Nat),
    let here := s.dev.sys.ticks * 128 + fine
    let err := ppsError s.dev.map.active (s.dev.globalFine fine)
    let m := s.dev.map.active
    let comes := s.dev.time.pps = true ∨
      ∃ l, s.dev.time.ppsLast = some l ∧ inPpsWindow m ((here : Int) - (l : Int) - ((fineSecond : Nat) : Int)) = true
    let used := s.dev.time.inUse = 0 ∧ comes
    ∃ t : State, exec (.ppsEdge fine) s = .next t ∧ t.dev.time.ppsLast = some here ∧ (t.dev.time.pps = true ↔ comes) ∧
      t.dev.time.inUse = s.dev.time.inUse ∧
      (¬ used → t.dev.time.phaseError = s.dev.time.phaseError ∧ t.dev.time.alignment = s.dev.time.alignment ∧
        t.dev.time.pendingAlign = s.dev.time.pendingAlign) ∧
      (used → s.dev.time.pendingAlign = [] → t.dev.time.phaseError = halfFinePs (2 * err) ∧
        t.dev.time.seconds = s.dev.time.seconds ∧ t.dev.time.tick = s.dev.time.tick) ∧
      (used → s.dev.time.pendingAlign ≠ [] → s.dev.sys.state = .standby ∨ s.dev.sys.state = .ready →
        t.dev.time.alignment = .locked ∧ t.dev.time.aligned = true ∧ t.dev.time.phaseError = 0 ∧
        t.dev.time.pendingAlign = [] ∧
        (let w := (((s.dev.globalFine fine : Int) - err) % ((2 ^ 40 * fineSecond : Nat) : Int)).toNat / 128
         t.dev.time.seconds = w / 2560000000 ∧ t.dev.time.tick = w % 2560000000))) ∧
  (∀ s : State,
    let late := ∀ l, s.dev.time.ppsLast = some l → ((fineSecond + l : Nat) : Int) < s.dev.sys.ticks * 128 ∧
      inPpsWindow s.dev.map.active ((s.dev.sys.ticks * 128 : Nat) - (l : Int) - ((fineSecond : Nat) : Int)) = false
    (¬ (s.dev.time.pps = true ∧ late) → exec .ppsAbsent s = .next s) ∧
    (s.dev.time.pps = true → late → ∃ t : State, exec .ppsAbsent s = .next t ∧ t.dev.time.pps = false ∧
      t.dev.time.alignment = (if s.dev.time.inUse = 0 ∧ s.dev.time.alignment = .locked then .free else s.dev.time.alignment) ∧
      t.dev.time.inUse = s.dev.time.inUse)) ∧
  (∀ s : State,
    (s.dev.time.tick ≠ 0 → exec .secondBoundary s = .next s) ∧
    (s.dev.time.tick = 0 → ∃ t : State, exec .secondBoundary s = .next t ∧
      t.dev.time.pendingSeconds = none ∧ t.dev.time.pendingSpread = none ∧
      t.dev.time.spread = s.dev.time.pendingSpread.getD s.dev.time.spread ∧ t.dev.time.tick = 0 ∧
      (s.dev.time.pendingSeconds = none ∨ s.dev.sys.state = .running → t.dev.time.seconds = s.dev.time.seconds) ∧
      (∀ v, s.dev.time.pendingSeconds = some v → s.dev.sys.state ≠ .running →
        t.dev.time.seconds = v ∧ t.dev.time.secondsSet = true) ∧
      (let r : Int := steerRate s.dev.map.active
       let moved := t.dev.time.steered - s.dev.time.steered
       moved.natAbs ≤ steerRate s.dev.map.active ∧ t.dev.time.steerLeft = s.dev.time.steerLeft + moved ∧
       (s.dev.time.steerLeft.natAbs ≤ r.natAbs → t.dev.time.steerLeft = 0)))) ∧
  (∀ s : State,
    (s.dev.requestLane = none ∨ s.dev.requestDue = false → exec .timeRequestSend s = .next s) ∧
    (∀ l x, s.dev.requestLane = some l → s.dev.requestDue = true → s.dev.schuss[l]? = some x → x.others.length < 16 →
      ∃ t : State, exec .timeRequestSend s = .next t ∧ t.dev.time.requestAt = some s.dev.sys.ticks ∧
        t.dev.schuss[l]? = some { x with others := x.others ++ [.request x.nextId], nextId := (x.nextId + 1) % 16 })) ∧
  (∀ (s : State) (l received since : Nat) (x : SchussLane),
    let i : Int := (s.dev.sys.ticks * 128 : Nat) - (since : Int)
    (s.dev.schussRuns l = false → exec (.timeRequest l received since) s = .next s ∧
      exec (.timeResponse l received since) s = .next s) ∧
    (∀ m sub id data, s.dev.schussRuns l = true → s.dev.schuss[l]? = some x → x.delineated = true → x.up = true →
      (x.takeBits received).2 = some m → schussOk m = true → schussOf (m / 4096) = .time sub id data →
      let y := { (x.takeBits received).1 with run := 0, receivedCount := (x.receivedCount + 1) % 2 ^ 64 }
      (sub = 0 → x.others.length ≤ 13 → ∃ t : State, exec (.timeRequest l received since) s = .next t ∧
        t.dev.schuss[l]? = some { y with others := x.others ++ [.response id 1 i, .response id 2 i, .response id 3 i] } ∧
        t.dev.time = s.dev.time) ∧
      (∀ e : Exchange, 1 ≤ sub → x.exchange = some e → e.id = id →
        let e' := e.take sub data i
        (e'.t4 = none ∨ e'.f3 = none ∨ e'.tauP = none ∨ e'.seconds = none →
          ∃ t : State, exec (.timeResponse l received since) s = .next t ∧
            t.dev.schuss[l]? = some { y with exchange := some e' } ∧ t.dev.time = s.dev.time) ∧
        (∀ t4 f3 tp sec, e'.t4 = some t4 → e'.f3 = some f3 → e'.tauP = some tp → e'.seconds = some sec →
          let ps := halfFinePs (s.dev.exchangeError e.t1 t4 f3 tp sec)
          ∃ t : State, exec (.timeResponse l received since) s = .next t ∧
            t.dev.schuss[l]? = some { y with exchange := none, tRt := (t4 - e.t1).toNat, tauP := tp, phase := ps } ∧
            (s.dev.time.inUse ≠ 1 → t.dev.time = s.dev.time) ∧
            (s.dev.time.inUse = 1 → s.dev.time.pendingAlign = [] → t.dev.time.phaseError = ps ∧ t.dev.time.steerLeft = ps))))) ∧
  (∀ (s : State) (l : Nat) (x : SchussLane), s.dev.schuss[l]? = some x →
    let due := ∃ e t, x.exchange = some e ∧ e.t4 = some t ∧ t + 6553600 ≤ ((s.dev.sys.ticks * 128 : Nat) : Int)
    (¬ due → exec (.timeExchangeTimeout l) s = .next s) ∧
    (due → ∃ t : State, exec (.timeExchangeTimeout l) s = .next t ∧ t.dev.schuss[l]? = some { x with exchange := none } ∧
      t.dev.time = s.dev.time))

/-! ### Slalom and the Schuss lanes -/

/-- Slalom's commands and rows, but for the messages. -/
def Obligations.SlalomRows : Prop :=
  (∀ (h : CmdHeader) (mask : Nat),
    let legal : List DevState := [.ready, .running]
    let authority := fun (s : State) => armFireBit s.dev.map.active 0 0 = true
    let arms := fun (i : Instr) (op : Nat) (arm : Bool) =>
      Answers i h op legal (fun s => ¬ authority s) .wrongState (fun _ => []) unchanged ∧
      ∀ s : State, s.dev.carries h legal = true → authority s →
        let at_ := s.dev.armTick
        let seq := (s.dev.slalom.armSeq + 1) % 256
        at_ % 128 = 0 ∧ s.dev.globalNow + mapNum s.dev.map.active 0x0032 0 24 4 25600 ≤ at_ ∧
        ∃ t : State, exec i s = .next (t.replied h op s.dev.now .ok (timeWord16 (TimeWord.ofGlobalTick at_))) ∧
          t.dev.slalom.armSeq = seq ∧ t.dev.slalom.courses = s.dev.slalom.courses ∧
          t.dev.slalom.pendingArms = insertArm s.dev.slalom.pendingArms ⟨arm, mask, at_⟩ ∧
          ∀ l < 4, ∀ x, s.dev.schuss[l]? = some x → laneRole s.dev.map.active l ≠ 0 → x.up = true → x.others.length < 16 →
            (t.dev.schuss[l]?).map (·.others) =
              some (x.others ++ [.plain ⟨(Schuss.arm (!arm) seq mask (at_ % 2560000000 / 128)).content, false⟩])
    arms (.slalomArm h mask) 0x0501 true ∧ arms (.slalomDisarm h mask) 0x0502 false ∧
    (∀ course, 15 < course →
      Answers (.slalomFire h course) h 0x0503 [.running] always .outOfRange (fun _ => []) unchanged) ∧
    (∀ course ≤ 15,
      let fit := fun (s : State) => courseEnabled s.dev.map.active course = true ∧
        ((s.dev.applyDueArms.slalom.courses[course]?).any (·.armed)) = true
      Answers (.slalomFire h course) h 0x0503 [.running] (fun s => ¬ fit s) .wrongState (fun _ => [])
        (devOnly Dev.applyDueArms) ∧
      AnswersLater (.slalomFire h course) h 0x0503 [.running] fit
        (fun s => (s.onDev (·.applyDueArms)).onDev fun d => { d with slalom := { d.slalom with
          asked := d.slalom.asked ++ [(⟨h, 0x0503, none, s.dev.now⟩, course)] } }))) ∧
  (∀ (s : State) (es : List PixelEdge) (e : PixelEdge) (us : List Upset),
    exec (.triggerEdge ⟨[], []⟩) s = .next s ∧
    (∃ t : State, exec (.triggerEdge ⟨es, us⟩) s = .next t ∧
      exec (.triggerEdge ⟨es ++ [e], us⟩) s = .next (t.onDev (·.triggerEdge e.pixel e.rising e.entry)))) ∧
  (∀ (d : Dev) (p entry : Nat) (rising : Bool), p < 1024 →
    let stamp := entry - (Config.triggerDelay p).toNat
    let old := getD d.slalom.lit p []
    let new := getD (d.triggerEdge p rising entry).slalom.lit p []
    let taken := d.triggerTaken p stamp rising = true
    (taken → d.triggerEdge p rising entry = d) ∧
    (¬ taken → rising = true → new.head? = some ⟨stamp, none, none⟩ ∧
      ∀ k, d.sys.ticks < k + 32768 → k < stamp → (new.any (·.holds 255 k) = old.any (·.holds 255 k))) ∧
    (¬ taken → rising = false → new.length = old.length ∧ ∀ x ∈ new, x.fall ≠ none) ∧
    ∀ q < 1024, q ≠ p → getD (d.triggerEdge p rising entry).slalom.lit q [] = getD d.slalom.lit q []) ∧
  (∀ (s : State) (p : Nat), ∃ t : State, exec (.pixelStretchEnd p) s = .next t ∧
    (∀ q k, s.dev.sys.ticks < k + 32768 → t.dev.litAt s.dev.map.active q k = s.dev.litAt s.dev.map.active q k) ∧
    (∀ e ∈ getD t.dev.slalom.lit p [], e.recent s.dev.sys.ticks = true ∧ e ∈ getD s.dev.slalom.lit p []) ∧
    t.dev.slalom.courses = s.dev.slalom.courses) ∧
  (∀ s : State, ∃ t : State, exec .partnerFireWindowEnd s = .next t ∧
    (∀ w k, s.dev.sys.ticks ≤ k → t.dev.inputAt w k = s.dev.inputAt w k) ∧
    (∀ f ∈ t.dev.slalom.partnerFires, s.dev.sys.ticks < f.2 + 65536)) ∧
  (∀ s : State, ∃ t : State, exec .keyExpire s = .next t ∧
    (∀ key, t.dev.holdsKey t.dev.slalom.accepted key = s.dev.holdsKey s.dev.slalom.accepted key ∧
      t.dev.holdsKey t.dev.slalom.sent key = s.dev.holdsKey s.dev.slalom.sent key) ∧
    (∀ k, k ∈ t.dev.slalom.accepted ∨ k ∈ t.dev.slalom.sent → s.dev.globalNow < k.leaves) ∧
    t.dev.slalom.fires = s.dev.slalom.fires) ∧
  (∀ (s : State) (c : Nat) (x : Course), s.dev.slalom.courses[c]? = some x →
    let limit := gateField s.dev.map.active c x.gate 28 4 0
    ∃ t : State, exec (.gateTimeout c) s = .next t ∧
      t.dev.slalom.courses[c]? = some { x with timeout := limit != 0 && s.dev.sys.ticks == x.entry + limit } ∧
      ∀ o < 16, o ≠ c → t.dev.slalom.courses[o]? = s.dev.slalom.courses[o]?) ∧
  (∀ s : State,
    let due := s.dev.slalom.pendingArms.filter (·.at_ ≤ s.dev.globalNow)
    (due = [] → exec .armApply s = .next s) ∧
    ∃ t : State, exec .armApply s = .next t ∧
      t.dev.slalom.pendingArms = s.dev.slalom.pendingArms.filter (s.dev.globalNow < ·.at_) ∧
      ∀ c < 16, ∀ x y, s.dev.slalom.courses[c]? = some x → t.dev.slalom.courses[c]? = some y →
        ((∀ a ∈ due, bit a.mask c = false) → y = x) ∧
        (∀ l a r, due = l ++ a :: r → bit a.mask c = true → (∀ b ∈ r, bit b.mask c = false) →
          y.armed = a.arm ∧ y.gate = 0 ∧ y.entry = s.dev.sys.ticks ∧ y.n = 0))

/-- The messages of Slalom, and what the lanes do. -/
def Obligations.SchussRows : Prop :=
  (∀ (s : State) (l received fine : Nat), s.dev.schussRuns l = false →
    ∀ i ∈ [Instr.fireMessage l received, .armMessage l received, .disarmMessage l received, .busyMessage l received,
      .schussIdleMessage l received, .schussSlot l fine], exec i s = .next s) ∧
  (∀ (s : State) (l received id course g : Nat), s.dev.gets l received (.fire id course g) →
    let w := TimeWord.ofGlobalTick (s.dev.fireTick g)
    let new := s.dev.relays = true ∧ s.dev.holdsKey s.dev.slalom.sent w = false
    (¬ new → exec (.fireMessage l received) s = .next (s.onDev (·.afterBits l received))) ∧
    (new → ∃ t : State, exec (.fireMessage l received) s = .next t ∧
      t.dev.slalom.sent = enterKey s.dev.slalom.sent (s.dev.keyEntry w) ∧
      t.dev.slalom.partnerFires = (course, s.dev.sys.ticks) :: s.dev.slalom.partnerFires ∧
      t.dev.slalom.followed = s.dev.slalom.followed ++
        (if s.dev.sys.state = .running then ((followingCourse s.dev.map.active course).map fun c => (c, w)).toList else []) ∧
      t.dev.slalom.accepted = s.dev.slalom.accepted ∧
      ∀ o < 4, ∀ x, s.dev.schuss[o]? = some x → o ≠ l →
        let other := laneRole s.dev.map.active o ≠ 0 ∧ laneGroup s.dev.map.active o ≠ laneGroup s.dev.map.active l
        (¬ other → t.dev.schuss[o]? = some x) ∧
        (other → x.up = true → x.fires.length < 3 →
          t.dev.schuss[o]? = some { x with fires := x.fires ++ [⟨(Schuss.fire id course g).content, true⟩] }))) ∧
  (∀ (s : State) (l received seq mask t128 : Nat) (dis : Bool), s.dev.gets l received (.arm dis seq mask t128) →
    ∀ i ∈ [Instr.armMessage l received, .disarmMessage l received],
      let authority := armFireBit s.dev.map.active 0 0 = true
      let known := ∃ k ∈ s.dev.slalom.knownArms, k.1 = dis ∧ k.2.1 = seq ∧ s.dev.sys.ticks < k.2.2 + 2560000000
      let at_ := s.dev.nearestTick (t128 * 128)
      (s.dev.relays = false ∨ (¬ authority ∧ known) → exec i s = .next (s.onDev (·.afterBits l received))) ∧
      (s.dev.relays = true → authority → ∃ t : State, exec i s = .next t ∧ t.dev.slalom = s.dev.slalom) ∧
      (s.dev.relays = true → ¬ authority → ¬ known → ∃ t : State, exec i s = .next t ∧ t.dev.slalom.armSeq = seq ∧
        (dis, seq, s.dev.sys.ticks) ∈ t.dev.slalom.knownArms ∧
        (s.dev.globalNow < at_ → t.dev.slalom.pendingArms = insertArm s.dev.slalom.pendingArms ⟨!dis, mask, at_⟩ ∧
          t.dev.slalom.courses = s.dev.slalom.courses) ∧
        (at_ ≤ s.dev.globalNow → ∀ c < 16, bit mask c = true →
          ((t.dev.slalom.courses[c]?).map fun y => (y.armed, y.gate, y.entry)) = some (!dis, 0, s.dev.sys.ticks)))) ∧
  (∀ (s : State) (l received id seq : Nat) (set : Bool), s.dev.gets l received (.busy id set seq) →
    let known := ∃ k ∈ s.dev.slalom.knownBusy, k.1 = id ∧ k.2.1 = seq ∧ s.dev.sys.ticks < k.2.2 + 2560000
    (s.dev.relays = false ∨ known → exec (.busyMessage l received) s = .next (s.onDev (·.afterBits l received))) ∧
    (s.dev.relays = true → ¬ known → ∃ t : State, exec (.busyMessage l received) s = .next t ∧
      (id, seq, s.dev.sys.ticks) ∈ t.dev.slalom.knownBusy ∧
      (id = fireId s.dev.map.active → t.dev.slalom.busySet = s.dev.slalom.busySet) ∧
      (id ≠ fireId s.dev.map.active → (∀ b, b.fireId ≠ id → (b ∈ t.dev.slalom.busySet ↔ b ∈ s.dev.slalom.busySet)) ∧
        (set = true → ⟨id, s.dev.sys.ticks⟩ ∈ t.dev.slalom.busySet) ∧
        (set = false → ∀ b ∈ t.dev.slalom.busySet, b.fireId ≠ id)))) ∧
  (∀ s : State,
    let due := ∃ n, s.dev.acq.busySince ≠ none ∧ s.dev.slalom.busySent = some n ∧
      n + 2560 * mapNum s.dev.map.active 0x0032 0 30 2 10 ≤ s.dev.sys.ticks
    (¬ due → exec .busyRepeat s = .next s) ∧
    (due → ∃ t : State, exec .busyRepeat s = .next t ∧ t.dev.slalom.busySeq = (s.dev.slalom.busySeq + 1) % 16 ∧
      t.dev.slalom.busySent = some s.dev.sys.ticks ∧ t.dev.acq = s.dev.acq)) ∧
  (∀ s : State,
    let expired := fun (b : BusyEntry) => b.since + 2560 * mapNum s.dev.map.active 0x0032 0 32 2 25 ≤ s.dev.sys.ticks
    ((∀ b ∈ s.dev.slalom.busySet, ¬ expired b) → exec .busyExpire s = .next s) ∧
    ∃ t : State, exec .busyExpire s = .next t ∧ ∀ b ∈ s.dev.slalom.busySet,
      (expired b → ∀ c ∈ t.dev.slalom.busySet, c.fireId ≠ b.fireId) ∧
      ((∀ c ∈ s.dev.slalom.busySet, c.fireId = b.fireId → ¬ expired c) → b ∈ t.dev.slalom.busySet)) ∧
  (∀ (s : State) (l received id n : Nat) (far : Bool), s.dev.gets l received (.idle id far n) →
    ∃ (t : State) (y : SchussLane), exec (.schussIdleMessage l received) s = .next t ∧ t.dev.schuss[l]? = some y ∧
      y.farId = id ∧ y.farDelineated = far ∧ y.up = far ∧ (far = false → ∀ x, s.dev.schuss[l]? = some x → x.up = true →
        y.fires = [] ∧ y.others = [] ∧ y.exchange = x.exchange.filter (·.t4.isSome))) ∧
  (∀ (s : State) (l : Nat) (x : SchussLane), s.dev.schuss[l]? = some x →
    (x.delineated = false → exec (.schussDelineationLost l) s = .next s) ∧
    (x.delineated = true → ∃ (t : State) (y : SchussLane), exec (.schussDelineationLost l) s = .next t ∧
      t.dev.schuss[l]? = some y ∧ y.delineated = false ∧ y.run = 0 ∧ y.up = false ∧
      (x.up = true → y.fires = [] ∧ y.others = []) ∧ y.sentCount = x.sentCount) ∧
    (∀ fine, slotFine s.dev.time.tick ≠ some fine ∨ x.slotAt = some s.dev.sys.ticks → exec (.schussSlot l fine) s = .next s) ∧
    (∀ fine, slotFine s.dev.time.tick = some fine → s.dev.schussRuns l = true → x.slotAt ≠ some s.dev.sys.ticks →
      ∃ (t : State) (y : SchussLane) (content : Nat), exec (.schussSlot l fine) s = .next t ∧ t.dev.schuss[l]? = some y ∧
        y.line = some (schussLine x.scrambler (schussWord content)).1 ∧ y.scrambler = (schussLine x.scrambler (schussWord content)).2 ∧ y.slotAt = some s.dev.sys.ticks ∧
        y.sentCount = (x.sentCount + 1) % 2 ^ 64 ∧
        (∀ m q, x.fires = m :: q → content = m.content ∧ y.fires = q) ∧
        (∀ m q, x.fires = [] → (s.dev.dropLateAnswers x).others = .plain m :: q → content = m.content ∧ y.others = q) ∧
        (x.fires = [] → (s.dev.dropLateAnswers x).others = [] → y.idleCounter = (x.idleCounter + 1) % 2 ^ 16 ∧
          content = (Schuss.idle (fireId s.dev.map.active) x.delineated x.idleCounter).content)))

/-! ### Acquisition and compression -/

/-- The rows of acquisition. -/
def Obligations.AcqRows : Prop :=
  (∀ (h : CmdHeader) (dl dh ml mh : Nat),
    let legal : List DevState := [.ready, .running, .quiesce]
    let ok := 16 ≤ dl ∧ dl ≤ 32768 ∧ 32 ≤ dh ∧ dh ≤ 65535 ∧ 1024 ≤ ml ∧ ml ≤ 32768 ∧ 1088 ≤ mh ∧ mh ≤ 49152 ∧ dl < dh ∧ ml < mh
    (¬ ok → Answers (.acqSetWater h dl dh ml mh) h 0x0604 legal always .outOfRange (fun _ => []) unchanged) ∧
    (ok → AnswersWith (.acqSetWater h dl dh ml mh) h 0x0604 legal always .ok (fun s t =>
      t.dev.acq.descLow = dl ∧ t.dev.acq.descHigh = dh ∧ t.dev.acq.memLow = ml ∧ t.dev.acq.memHigh = mh ∧
      t.dev.acq.segments = s.dev.acq.segments ∧
      (s.dev.acq.busySince = none → (t.dev.acq.busySince = some s.dev.sys.ticks ↔ s.dev.freeDesc < dl ∨ s.dev.freeMem < ml * 1024)) ∧
      (s.dev.acq.busySince ≠ none → (t.dev.acq.busySince = none ↔ dh ≤ s.dev.freeDesc ∧ mh * 1024 ≤ s.dev.freeMem))))) ∧
  (∀ (s : State) (runs : List RingRun) (overrun parity : Bool) (us : List Upset),
    let run := exec (.segmentBuildStart ⟨runs, us⟩ overrun parity) s
    (s.dev.acq.orders = [] → run = .next s) ∧
    (∀ o rest, s.dev.acq.orders = o :: rest → ∃ t : State, run = .next t ∧ t.dev.acq.orders = rest ∧
      (let gone := overrun = true ∨ o.fire - o.lookBack + 16384 ≤ (s.dev.sys.ticks : Int)
       let cause := if s.dev.freeDesc = 0 then 1 else if s.dev.freeMem < 1048576 then 2 else 3
       let stub := s.dev.freeDesc = 0 ∨ s.dev.freeMem < 1048576 ∨ gone
       (stub → t.dev.acq.segments = s.dev.acq.segments ∧
         (s.dev.acq.stubs.length < 1024 → ∃ x : Stub, t.dev.acq.stubs = s.dev.acq.stubs ++ [x] ∧ x.cause = cause ∧
           x.order.seq = o.seq ∧ x.order.course = o.course ∧ x.order.key = o.key)) ∧
       (¬ stub → t.dev.acq.stubs = s.dev.acq.stubs ∧ ∃ x : RawSeg, t.dev.acq.segments = s.dev.acq.segments ++ [x] ∧
         x.order.seq = o.seq ∧ x.start = o.fire - o.lookBack ∧ x.closed = false ∧ x.bytes = o.reserve ∧
         x.blocks.map (·.pixel) = (List.range 1024).filter (selectable (s.dev.orderMap o) o.course) ∧
         ∀ b ∈ x.blocks, b.raw.length = o.samples)))) ∧
  (∀ s : State,
    let due := fun (x : RawSeg) => x.closed = false ∧ x.closesAt ≤ (s.dev.sys.ticks : Int)
    ((∀ x ∈ s.dev.acq.segments, ¬ due x) → exec .hitListClose s = .next (s.onDev (·.passAllHits))) ∧
    (∀ l x r, s.dev.acq.segments = l ++ x :: r → (∀ y ∈ l, ¬ due y) → due x →
      ∃ (t : State) (y : RawSeg), exec .hitListClose s = .next t ∧ t.dev.acq.segments[l.length]? = some y ∧
        t.dev.acq.segments.length = s.dev.acq.segments.length ∧ y.closed = true ∧ y.order = x.order ∧ y.start = x.start ∧
        y.bytes = 64 + (y.blocks.map (·.size)).sum ∧
        (∀ b ∈ y.blocks, b.pixel ∈ x.blocks.map (·.pixel)) ∧ ∀ n < 64, getD t.dev.acq.hitFifo n [] = [])) ∧
  (∀ (s : State) (slots : FrameSlots),
    let due := s.dev.sys.imagesStarted = true ∧ s.dev.sys.state ≠ .off ∧ s.dev.atFrameEdge = true ∧
      s.dev.acq.edgeAt ≠ some s.dev.sys.ticks
    (¬ due → exec (.tagFrameEdge slots) s = .next s) ∧
    (due → ∃ t : State, exec (.tagFrameEdge slots) s = .next t ∧ t.dev.acq.edgeAt = some s.dev.sys.ticks ∧
      (t.dev.acq.framing = true ↔ s.dev.sys.state = .running) ∧
      (∀ p < 1024, (t.dev.tdcPixel p).map (·.slot) = some false) ∧
      (s.dev.cmd.deferred = [] → s.dev.map.swap = none → t.dev.map.active = s.dev.map.active ∧
        ∀ n < 64,
          let opens := s.dev.sys.state = .running ∧ s.dev.acq.tagEnable = true ∧ s.dev.tagMask n ≠ 0
          let shape := fun (x : State) => (getD x.dev.acq.frames n []).map fun f => (f.start, f.mask)
          (¬ opens → shape t = shape s) ∧
          (opens → shape t = shape s ++ [(s.dev.globalNow, s.dev.tagMask n)])))) ∧
  (∀ s : State,
    ((∀ n < 64, getD s.dev.acq.tagFifo n [] = [] ∧ s.dev.frameDue n = none) → exec .tagFrameClose s = .next s) ∧
    (∀ n f, n < 64 → (∀ m < 64, getD s.dev.acq.tagFifo m [] = []) → (∀ m < 64, m ≠ n → s.dev.frameDue m = none) →
      getD s.dev.acq.frames n [] = [f] → f.start + 262144 + 1280 ≤ s.dev.globalNow → s.dev.framerWaits = false →
      exec .tagFrameClose s = .next (s.onDev fun d =>
        ({ d with acq := { d.acq with frames := modAt d.acq.frames n fun _ => [] } } : Dev).sendTags n f true)))

/-- CMP's command and rows. -/
def Obligations.CmpRows : Prop :=
  (∀ (h : CmdHeader) (scope : Nat),
    let legal : List DevState := [.running, .quiesce]
    (1 < scope → Answers (.cmpFlush h scope) h 0x0702 legal always .outOfRange (fun _ => []) unchanged) ∧
    (scope ≤ 1 → Answers (.cmpFlush h scope) h 0x0702 legal
      (fun s => s.dev.cmp.job = none ∧ (scope = 0 ∨ ∀ x ∈ s.dev.acq.segments, x.closed = false)) .ok (fun _ => leBytes 4 0)
      (devOnly (·.raise 1378 0 [evNat 0, evNat scope]))) ∧
    (∀ j : CmpJob, AnswersLater (.cmpFlush h 0) h 0x0702 legal
      (fun s => s.dev.cmp.job = some j ∧ s.dev.flushedBlocks 0 j ≠ [])
      (fun s => s.onDev fun d => { d with cmp := { d.cmp with
        job := some { j with flushed := j.flushed ++ d.flushedBlocks 0 j }
        flushes := d.cmp.flushes ++
          [⟨⟨h, 0x0702, none, d.now⟩, 0, (d.flushedBlocks 0 j).length, j.item.order.seq⟩] } }))) ∧
  (∀ (s : State) (blocks : List Nat) (faults : List CmpFault) (us : List Upset) (parity : Bool),
    let run := exec (.cmpSegment blocks ⟨faults⟩ us parity) s
    (us = [] → s.dev.cmp.job = none → (∀ x ∈ s.dev.acq.stubs, x.order.seq ≠ s.dev.oldestSeq) →
      (∀ x ∈ s.dev.acq.segments, x.order.seq = s.dev.oldestSeq → x.closed = false) → run = .next s) ∧
    (∀ x, us = [] → s.dev.cmp.job = none → (∀ c, c ≠ 0 → s.dev.waitsForBuffer c = false) →
      s.dev.acq.stubs.find? (·.order.seq == s.dev.oldestSeq) = some x → 1 ≤ s.dev.localFree →
      ∃ t : State, run = .next t ∧ t.dev.cmp.job = none ∧ t.dev.cmp.seq = s.dev.oldestSeq ∧
        t.dev.acq.stubs = s.dev.acq.stubs.filter (·.order.seq != s.dev.oldestSeq) ∧
        t.dev.cmp.counters.stubs = s.dev.cmp.counters.stubs + 1) ∧
    (∀ (j : CmpJob) (x : RawSeg), s.dev.cmp.job = some j → j.item = .segment x → j.wait = none →
      (x.blocks.map (·.pixel)).Nodup →
      let step := fun (n : Nat) => (blocks[n]?).getD 1024 - ((j.tileBlocks n).length - (j.left n).length)
      ∃ t : State, run = .next t ∧
        (t.dev.cmp.job = none → (∀ n < 64, (j.left n).length ≤ step n) ∧ (∀ y ∈ t.dev.acq.segments, y.order.seq ≠ x.order.seq) ∧
          t.dev.cmp.counters.records = s.dev.cmp.counters.records + 1) ∧
        (∀ k, t.dev.cmp.job = some k → k.item = j.item ∧ t.dev.acq.segments = s.dev.acq.segments ∧
          ∀ n < 64, (k.left n).length = (j.left n).length - step n))) ∧
  (∀ s : State,
    (s.dev.localFree = 0 ∨ (∀ c, s.dev.waitsForBuffer c = false) → exec .chainBufferFreed s = .next s) ∧
    (∀ j w n, s.dev.cmp.job = some j → j.wait = some w → j.coded = true → 0 < s.dev.localFree →
      chainBuffers j.ready ≤ j.chain.length + s.dev.localFree →
      s.dev.nextClient 1 (macroAt (4096 * s.dev.nextBuf)) s.dev.waitsForBuffer = some (0, n) →
      (∀ c, c ≠ 0 → s.dev.waitsForBuffer c = false) →
      ∃ t : State, exec .chainBufferFreed s = .next t ∧ t.dev.cmp.job = none ∧
        t.dev.cmp.counters.waited = s.dev.cmp.counters.waited + (s.dev.sys.ticks - w.since)))

/-! ### The merge engine and the link layer -/

/-- The commands of the merge engine, its timers and that of the pair. -/
def Obligations.MergeRows : Prop :=
  (∀ (h : CmdHeader) (port vc address : Nat),
    let i := Instr.mrgResumeStream h port vc address
    let legal : List DevState := [.ready, .running, .quiesce]
    let known := fun (s : State) => port ≤ 7 ∧ knownStream s.dev.map.active port vc address = true
    let halted := fun (s : State) => (s.dev.rxStream port address vc).mode = .halted
    Answers i h 0x0803 legal (fun s => ¬ known s) .outOfRange (fun _ => []) unchanged ∧
    Answers i h 0x0803 legal (fun s => known s ∧ ¬ halted s) .wrongState (fun _ => []) unchanged ∧
    AnswersWith i h 0x0803 legal (fun s => known s ∧ halted s) .ok (fun s t =>
      t.dev.rxStream port address vc = ⟨port, address, vc, .start, [], 0, 0, false, []⟩ ∧
      t.dev.mrg = { s.dev.mrg with streams := t.dev.mrg.streams, grants := t.dev.mrg.grants, taken := t.dev.mrg.taken } ∧
      ((s.dev.rxStream port address vc).chain = [] → t.dev.mrg.grants = s.dev.mrg.grants ∧ t.dev.mrg.taken = s.dev.mrg.taken) ∧
      ∀ p a v, (p ≠ port ∨ a ≠ address ∨ v ≠ vc) → t.dev.rxStream p a v = s.dev.rxStream p a v)) ∧
  (∀ (h : CmdHeader) (s : State), s.dev.carries h [.running, .quiesce] = true →
    let n := s.dev.mrg.events.countP (!·.closed)
    ∃ t : State, exec (.mrgCloseAll h) s = .next (t.replied h 0x0804 s.dev.now .ok (leBytes 4 n)) ∧
      (∀ e ∈ t.dev.mrg.events, e.closed = true) ∧
      t.dev.mrg.counters.closedDeadline % 2 ^ 64 = (s.dev.mrg.counters.closedDeadline + n) % 2 ^ 64 ∧
      t.dev.mrg.streams = s.dev.mrg.streams ∧ t.dev.map = s.dev.map) ∧
  (∀ s : State,
    let n := s.dev.mrg.events.countP fun e => !e.closed && e.deadline ≤ s.dev.globalNow
    ((∀ e ∈ s.dev.mrg.events, e.closed = false ∧ s.dev.globalNow < e.deadline) → exec .eventDeadline s = .next s) ∧
    ∃ t : State, exec .eventDeadline s = .next t ∧
      t.dev.mrg.events.countP (!·.closed) + n = s.dev.mrg.events.countP (!·.closed) ∧
      t.dev.mrg.counters.closedDeadline % 2 ^ 64 = (s.dev.mrg.counters.closedDeadline + n) % 2 ^ 64 ∧
      t.dev.mrg.streams = s.dev.mrg.streams ∧ t.dev.map = s.dev.map) ∧
  (∀ s : State,
    let due := fun (g : Grant) => g.returnable ≠ 0 ∧ g.since + 256 * g.delay ≤ s.dev.sys.ticks
    ((∀ g ∈ s.dev.mrg.grants, ¬ due g) → exec .passReturnDelay s = .next s) ∧
    ∃ t : State, exec .passReturnDelay s = .next t ∧ t.dev.mrg = { s.dev.mrg with grants := t.dev.mrg.grants } ∧
      ∀ l g r, s.dev.mrg.grants = l ++ g :: r →
        (∀ x ∈ l ++ r, x.address ≠ g.address ∨ x.port ≠ g.port ∨ x.vc ≠ g.vc) →
        (¬ due g → t.dev.mrg.grants[l.length]? = some g) ∧
        (due g → t.dev.mrg.grants[l.length]? = some { g with outstanding := g.outstanding - g.returnable, returnable := 0 } ∧
          (g.port < 8 → ⟨g.address, g.vc, g.returnable, false⟩ ∈ (t.dev.linkPort g.port).tx.returns))) ∧
  (∀ s : State,
    (s.dev.laggingCopy = none → exec .copyLagTimeout s = .next s) ∧
    ∃ t : State, exec .copyLagTimeout s = .next t ∧ t.dev.laggingCopy = none ∧
      ∀ c o, s.dev.mrg.copies = [c] → s.dev.laggingCopy = some c → c.single = false →
        c.forwarded = false → otherMember s.dev.map.active c.port = some o → s.dev.memberState c.port = .active → s.dev.memberState o = .standby →
        o < 8 → t.dev.memberState o = .suspect ∧ t.dev.mrg.copies = []) ∧
  (∀ (s : State) (c : Copy), s.dev.mrg.copies = [c] → s.dev.laggingCopy = some c → c.forwarded = true →
    ∃ t : State, exec .copyLagTimeout s = .next t ∧ t.dev.mrg.copies = [] ∧ t.dev.pair.members = s.dev.pair.members ∧
      t.dev.mrg.up = s.dev.mrg.up ∧ t.dev.mrg.down = s.dev.mrg.down)

/-- The chairs of a port and the timers of its link layer. -/
def Obligations.ChairRows : Prop :=
  (∀ (s : State) (p chair : Nat) (qs : List LaneQuarter) (us : List Upset), p < 8 →
    let run := exec (.parcelReceived p chair qs us) s
    ((s.dev.port p).rx ≠ .locked → run = .next s.serve) ∧
    ((s.dev.port p).rx = .locked → (s.dev.port p).step = .up →
      let x := s.dev.chairIn p chair qs
      let h := (parcelOf x.2.1 chair).1
      let r := (s.dev.linkPort p).rx
      let diff := (h.seq + 4096 - r.expected) % 4096
      let whole := parcelOk x.2.1 = true
      let naks := fun (t : Dev) => (t.port p).step = .up →
        (t.linkPort p).rx.ack.nak = true ∧ (r.ack.nak = false → (t.linkPort p).rx.ack.nakId = (r.ack.nakId + 1) % 16) ∧
          (t.linkPort p).rx.expected = r.expected
      ∃ d : Dev, run = .next (({ s with dev := d } : State).serve) ∧
        (¬ whole → naks d) ∧
        (whole → h.typ = 0 → (parcelOf x.2.1 chair).2 ≠ 4 → (d.linkPort p).rx = r ∧
          (d.linkPort p).counters.malformed = ((s.dev.linkPort p).counters.malformed + 1) % 2 ^ 64) ∧
        (whole → h.typ ≠ 0 → 2048 ≤ diff →
          (d.linkPort p).rx = r ∧ (d.linkPort p).counters.duplicates = ((s.dev.linkPort p).counters.duplicates + 1) % 2 ^ 64) ∧
        (whole → h.typ ≠ 0 → 0 < diff → diff < 2048 → naks d) ∧
        (whole → h.typ ≠ 0 → diff = 0 → r.crossing.length < crossingDepth s.dev.map.active 2 p 8192 →
          (d.linkPort p).rx.expected = (r.expected + 1) % 4096 ∧ (d.linkPort p).rx.ack.seq = h.seq ∧
          (d.linkPort p).rx.ack.valid = true ∧ (d.linkPort p).rx.ack.nak = false))) ∧
  (∀ (s : State) (p chair : Nat) (us : List Upset), p < 8 → pairOf s.dev.map.active p = [p] →
    let x := s.dev.port p
    let b := (s.dev.linkPort p).tx
    let c := halfChair (s.dev.txMap p) p chair 0
    let waits := s.dev.newParcel p [p] c
    ∃ t : State, exec (.chairTransmit p chair us) s = .next t ∧
      let a := (t.dev.linkPort p).tx
      a.chair = chair ∧
      (s.dev.sends p = false → x.tx ≠ .align → x.tx ≠ .up → a.parcel = [] ∧ a.held = b.held ∧ ∀ q < 4, getD a.line q [] = []) ∧
      (s.dev.sends p = false → (x.tx = .align ∨ x.tx = .up) →
        a.parcel = (idleParcel (s.dev.linkPort p).rx.ack).bytes ∧ a.held = b.held ∧ a.next = b.next) ∧
      (s.dev.sends p = true → ∀ k h, b.replay = some k → b.held[k]? = some h → mayResend (s.dev.txMap p) p c h = true →
        a.held = b.held ∧ a.next = b.next ∧ a.replay = (if k + 1 < b.held.length then some (k + 1) else none) ∧
        (us = [] → s.dev.integ.mem = [] →
          a.parcel = (if s.dev.integ.portInjects.contains p then invertCrc h.bytes else h.bytes))) ∧
      (s.dev.sends p = true → b.replay = none → c.used = true → c.vc = 0 → b.returns ≠ [] → b.held.length < 2047 →
        ∃ h : Held, a.held = b.held ++ [h] ∧ h.typ = 2 ∧ h.seq = b.next ∧ a.next = (b.next + 1) % 4096 ∧
          h.payload = ((nextReturns b.returns).map returnBytes).flatten ∧
          a.returns = b.returns.drop (nextReturns b.returns).length) ∧
      (∀ w, s.dev.sends p = true → s.dev.leftBehind p = false → b.replay = none → c.used = true →
        (c.vc ≠ 0 ∨ b.returns = []) → b.held.length < 2047 → waits = some w →
        (w.passes = false ∨ 1 ≤ s.dev.holdCount p c.vc) →
        ∃ h : Held, a.held = b.held ++ [h] ∧ h.typ = w.parcel.typ ∧ h.partner = w.parcel.partner ∧ h.vc = w.parcel.vc ∧
          h.record = w.parcel.record ∧ h.seq = b.next ∧ a.next = (b.next + 1) % 4096 ∧
          a.parcel = (if s.dev.integ.portInjects.contains p then h.badBytes else h.bytes) ∧
          (w.passes = true → t.dev.holdCount p c.vc = s.dev.holdCount p c.vc - 1)) ∧
      (x.step = .up → s.dev.sends p = true → b.replay = none → (c.used = false ∨ waits = none ∧ (c.vc ≠ 0 ∨ b.returns = [])) →
        a.parcel = (idleParcel (s.dev.linkPort p).rx.ack).bytes ∧ a.held = b.held ∧ a.next = b.next)) ∧
  (∀ (s : State) (p : Nat),
    let l := s.dev.linkPort p
    let stall := ∃ x, l.tx.stalledSince = some x ∧ x + 2560000 < s.dev.sys.ticks
    let still := (s.dev.port p).step = .up ∧ (s.dev.port p).rx = .locked ∧ l.tx.held ≠ [] ∧
      ∃ x, l.tx.stillSince = some x ∧ x + stillTicks (s.dev.port p).stage ≤ s.dev.sys.ticks
    let late := ∃ x, l.rx.ackChanged = some x ∧ x + 256000 ≤ s.dev.sys.ticks
    let blocks := s.dev.portUp p = true ∧ l.tx.leftBehind = false ∧
      ∃ x, l.tx.blockedSince = some x ∧ x + relockTicks s.dev.map.active p < s.dev.sys.ticks
    (¬ stall → exec (.windowStall p) s = .next s) ∧
    (stall → exec (.windowStall p) s = .next (s.onDev (·.raiseLimited 1777 0 p [evNat p, evNat l.tx.held.length]))) ∧
    (¬ still → exec (.replayTimeout p) s = .next s) ∧
    (p < 8 → still → ∃ t : State, exec (.replayTimeout p) s = .next t ∧ ((t.dev.port p).step = .up →
      (t.dev.linkPort p).tx.replay = some 0 ∧ (t.dev.linkPort p).tx.held = l.tx.held ∧ (t.dev.linkPort p).tx.stillSince = some s.dev.sys.ticks ∧
      (t.dev.linkPort p).tx.timeoutAt = some s.dev.sys.ticks ∧
      (t.dev.linkPort p).counters.replaysTimeout = (l.counters.replaysTimeout + 1) % 2 ^ 64)) ∧
    (s.dev.sys.ticks < l.tx.swapAt + 25600000 → exec (.wheelSwitchTimeout p) s = .next s) ∧
    (p < 8 → l.tx.swapAt + 25600000 ≤ s.dev.sys.ticks → ∃ t : State, exec (.wheelSwitchTimeout p) s = .next t ∧
      t.dev.linkPort p = { l with rx := { l.rx with oldWheel := false } } ∧ ∀ q < 8, q ≠ p → t.dev.linkPort q = s.dev.linkPort q) ∧
    (¬ late → exec (.acknowledgementWaiting p) s = .next s) ∧
    (p < 8 → late → autoWake s.dev.map.active p = true → (s.dev.port p).tx = .asleep → (s.dev.port p).txSleep.ackWait = false →
      (s.dev.port p).txSleep.wakeAt = none → ∃ t : State, exec (.acknowledgementWaiting p) s = .next t ∧
        (t.dev.port p).txSleep.wakeAt = some (s.dev.globalNow + wakeLead s.dev.map.active p)) ∧
    (¬ blocks → exec (.memberLeftBehind p) s = .next s) ∧
    (p < 8 → blocks → ∃ t : State, exec (.memberLeftBehind p) s = .next t ∧ t.dev.leftBehind p = true ∧
      (t.dev.linkPort p).tx.joined = [] ∧ (t.dev.linkPort p).tx.held = l.tx.held))

/-- Alignment blocks. -/
def Obligations.BlockRows : Prop :=
  (∀ (s : State) (p : Nat), p < 8 →
    let x := s.dev.port p
    let b := (s.dev.linkPort p).tx
    let due := x.tx = .align ∨ x.tx = .up ∨ (x.tx = .asleep ∧ x.txSleep.ackWait = true)
    let first := x.tx = .asleep ∧ x.txSleep.ackWait = false ∧ ∃ w, x.txSleep.wakeAt = some w ∧ w ≤ s.dev.globalNow
    let next := x.txSleep.waking = true ∧ x.txSleep.seen = none ∧ x.txSleep.bursts < 16 ∧
      ∃ w, x.txSleep.wakeAt = some w ∧ w + 25600 * x.txSleep.bursts ≤ s.dev.globalNow
    let toggles := b.oldWheel = true ∧ s.dev.markerLeft p = true
    let sent := fun (t : State) (wake : Bool) =>
      let a := (t.dev.linkPort p).tx
      a.counter = (b.counter + 1) % 2 ^ 24 ∧ (toggles → a.wheelGen = !b.wheelGen ∧ a.oldWheel = false) ∧
        (¬ toggles → a.wheelGen = b.wheelGen ∧ a.oldWheel = b.oldWheel) ∧ a.held = b.held ∧
        a.block = (List.range 4).flatMap fun q => blockQuarter q b.counter a.wheelGen wake (s.dev.linkPort p).rx.ack
    (¬ due → exec (.alignmentBlockSend p) s = .next s) ∧
    let last := x.tx = .asleep ∧ x.txSleep.acked = true
    (due → x.upDue = false → ¬ last → ∃ t : State, exec (.alignmentBlockSend p) s = .next t ∧ sent t false ∧ t.dev.port p = x) ∧
    (due → x.upDue = false → last → ∃ t : State, exec (.alignmentBlockSend p) s = .next t ∧ sent t false ∧
      t.dev.port p = { x with txSleep := { x.txSleep with ackWait := false, acked := false, waiting := none } }) ∧
    (due → x.upDue = true → ¬ last → ∃ t : State, exec (.alignmentBlockSend p) s = .next t ∧ (t.dev.port p).upDue = false ∧
      (x.step = .up → (t.dev.port p).tx = .up ∧ sent t false)) ∧
    (¬ first → exec (.wakeKeyDue p) s = .next s) ∧
    (first → ∃ t : State, exec (.wakeKeyDue p) s = .next t ∧ sent t true ∧ (t.dev.port p).tx = .align ∧
      (t.dev.port p).txSleep.waking = true ∧ (t.dev.port p).txSleep.bursts = 1 ∧ (t.dev.port p).txSleep.seen = none) ∧
    (¬ next → exec (.wakeBurst p) s = .next s) ∧
    (next → ∃ t : State, exec (.wakeBurst p) s = .next t ∧ sent t true ∧
      (t.dev.port p).txSleep.bursts = x.txSleep.bursts + 1)) ∧
  (∀ (s : State) (p : Nat) (found : List LaneBlock) (words : List (List Nat)), p < 8 → found.length = 4 →
    let x := s.dev.port p
    let run := exec (.alignmentBlockReceived p found words) s
    let bs := (laneBlocks found).map fun b => s.dev.laneBlock p b.2 (words.getD b.2 []) b.1
    let was := fun (q : Nat) => (s.dev.lane (4 * p + q)).align
    let good := fun (q : Nat) (b : LaneBlock) => (was q).miss b = none
    (x.searches = false → x.rx ≠ .locked → run = .next s) ∧
    (x.searches = false → x.rx = .locked → (∀ q b, bs[q]? = some b → good q b) → ∃ t : State, run = .next t ∧
      (∀ q b, bs[q]? = some b → (t.dev.lane (4 * p + q)).align = { was q with counter := blockCounter b, misses := 0 }) ∧
      ∀ b, bs[0]? = some b → (t.dev.linkPort p).rx.counter = blockCounter b ∧
        (t.dev.linkPort p).rx.wheelGen = bit (fieldAt b.bytes 8 1) 2) ∧
    (x.searches = false → x.rx = .locked → (∃ q b, bs[q]? = some b ∧ ¬ good q b ∧ 3 ≤ (was q).misses) →
      ∃ t : State, run = .next t ∧ (t.dev.port p).searches = true ∧ (t.dev.port p).rx ≠ .locked ∧
        (x.receivesUp = true → (t.dev.port p).step = x.step ∧ (t.dev.port p).relock = true ∧
          (t.dev.port p).relockAt = s.dev.sys.ticks) ∧
        (x.receivesUp = false → (t.dev.port p).step = .align)) ∧
    (x.searches = true → s.dev.maySearch p = false → ∃ t : State, run = .next t ∧ ∀ q < 4, (t.dev.lane (4 * p + q)).align = was q) ∧
    (x.searches = true → s.dev.maySearch p = true →
      let new := fun (q : Nat) =>
        let b := (bs[q]?).getD ⟨false, false, []⟩
        if (was q).run = 8 ∧ ¬ (blockGood b = true ∧ bit (fieldAt b.bytes 8 1) 3 = true) then
          (if 4 ≤ ((was q).test b).misses then (⟨0, 0, 0⟩ : AlignLane) else (was q).test b)
        else (was q).search b
      ((∃ q < 4, (new q).run ≠ 8) → ∃ t : State, run = .next t ∧ ∀ q < 4, (t.dev.lane (4 * p + q)).align = new q) ∧
      ((∀ q < 4, (new q).run = 8) → (∃ q < 4, (new q).counter ≠ (new 0).counter) →
        ∃ t : State, run = .next t ∧ ∀ q < 4, (t.dev.lane (4 * p + q)).align = ⟨0, 0, 0⟩) ∧
      ((∀ q < 4, (new q).run = 8) → (∀ q < 4, (new q).counter = (new 0).counter) →
        ∃ t : State, run = .next t ∧ (t.dev.port p).relock = false ∧ (x.step ≠ .align → x.step ≠ .decide → (t.dev.port p).rx = .locked ∧
          (t.dev.port p).step = x.step))))

/-! ### Lanes -/

/-- The commands of the lanes. -/
def Obligations.LaneCommands : Prop :=
  let work : List DevState := workStates
  let sleep : List DevState := [.ready, .running, .quiesce]
  (∀ (h : CmdHeader) (port x : Nat) (st pat dur : Nat) (g c e : Bool),
    ∀ y ∈ [(Instr.laneRetrain h port, 0x0902, work), (.laneClimb h port, 0x0903, work), (.laneSleep h port x, 0x0904, sleep),
        (.laneWake h port x, 0x0905, sleep), (.lanePrbs h port st pat g c e dur, 0x0906, [.standby, .ready])],
      (7 < port → Answers y.1 h y.2.1 y.2.2 always .outOfRange (fun _ => []) unchanged) ∧
      (port ≤ 7 → Answers y.1 h y.2.1 y.2.2 (fun s => wilurRole (portRole s.dev.map.active port) = false ∨ (s.dev.port port).isHeld = true)
        .wrongState (fun _ => []) unchanged)) ∧
  (∀ (h : CmdHeader) (p : Nat), p < 8 →
    let has := fun (s : State) => wilurRole (portRole s.dev.map.active p) = true ∧ (s.dev.port p).isHeld = false
    let x := fun (s : State) => s.dev.port p
    let goal := fun (s : State) => min (s.dev.cap p) (x s).received.cap
    let climbs := fun (s : State) => (x s).step = .up ∧ goal s ≠ (x s).stage
    let waits := fun (s : State) => s.dev.otherReenters p = true
    AnswersWith (.laneRetrain h p) h 0x0902 work (fun s => has s ∧ (x s).step ≠ .out) .ok (fun s t => s.dev.outOrAnew t.dev p) ∧
    Answers (.laneClimb h p) h 0x0903 work (fun s => has s ∧ ¬ climbs s) .wrongState (fun _ => []) unchanged ∧
    AnswersLater (.laneClimb h p) h 0x0903 work (fun s => has s ∧ climbs s ∧ waits s)
      (fun s => s.onDev (·.modPort p fun y => { y with
        reentryDue := some (goal s, 4), waiting := some ⟨h, 0x0903, none, s.dev.now⟩ })) ∧
    AnswersWith (.laneClimb h p) h 0x0903 work (fun s => has s ∧ climbs s ∧ ¬ waits s) .ok (fun s t =>
      (x t).step = .train ∧ (x t).tx = .train ∧ (x t).stage = goal s ∧ (x t).lowered = some (goal s) ∧ (x t).reentry = true ∧
        (x t).reentryAt = s.dev.sys.ticks)) ∧
  (∀ (h : CmdHeader) (p key : Nat), p < 8 →
    let has := fun (s : State) => wilurRole (portRole s.dev.map.active p) = true ∧ (s.dev.port p).isHeld = false
    let awake := fun (s : State) => (s.dev.port p).step = .up ∧ (s.dev.port p).tx = .up
    Answers (.laneSleep h p key) h 0x0904 sleep (fun s => has s ∧ ¬ awake s) .wrongState (fun _ => []) unchanged ∧
    Answers (.laneSleep h p key) h 0x0904 sleep (fun s => has s ∧ awake s ∧ s.dev.keyInBounds p key = false) .outOfRange
      (fun _ => []) unchanged ∧
    AnswersLater (.laneSleep h p key) h 0x0904 sleep (fun s => has s ∧ awake s ∧ s.dev.keyInBounds p key = true)
      (fun s => s.onDev fun d => d.modPort p fun y => { y with
        tx := .asleep
        txSleep := {
          episode := (y.txSleep.episode + 1) % 256, wakeKey := key, waiting := some ⟨h, 0x0904, none, s.dev.now⟩, ackWait := true
          acked := false, since := d.sys.ticks, wakeAt := if key = noWakeKey then none else some (d.nearestKey key).toNat, bursts := 0
          waking := false, seen := none } })) ∧
  (∀ (h : CmdHeader) (p dir : Nat), p < 8 →
    let has := fun (s : State) => wilurRole (portRole s.dev.map.active p) = true ∧ (s.dev.port p).isHeld = false
    let x := fun (s : State) => s.dev.port p
    let sleeps := fun (s : State) => if dir = 0 then (x s).tx = .asleep ∧ (x s).txSleep.ackWait = false else (x s).rx = .asleep
    let soon := fun (s : State) => s.dev.globalNow + wakeLead s.dev.map.active p
    (1 < dir → Answers (.laneWake h p dir) h 0x0905 sleep has .outOfRange (fun _ => []) unchanged) ∧
    (dir ≤ 1 → Answers (.laneWake h p dir) h 0x0905 sleep (fun s => has s ∧ ¬ sleeps s) .wrongState (fun _ => []) unchanged) ∧
    (dir = 0 → AnswersWith (.laneWake h p dir) h 0x0905 sleep (fun s => has s ∧ sleeps s) .ok (fun s t =>
      ((∃ w, (x s).txSleep.wakeAt = some w ∧ w ≤ soon s) → x t = x s) ∧
      ((∀ w, (x s).txSleep.wakeAt = some w → soon s < w) →
        (x t).txSleep = { (x s).txSleep with wakeAt := some (soon s), wakeKey := wakeKeyOf (soon s) } ∧ (x t).tx = (x s).tx))) ∧
    (dir = 1 → Answers (.laneWake h p dir) h 0x0905 sleep (fun s => has s ∧ sleeps s) .ok (fun _ => [])
      (devOnly (·.modPort p fun y => { y with rxSleep := { y.rxSleep with wakeReq := true } })))) ∧
  (∀ (h : CmdHeader) (p stage pattern duration : Nat) (gen check stop : Bool), p < 8 →
    let i := Instr.lanePrbs h p stage pattern gen check stop duration
    let legal : List DevState := [.standby, .ready]
    let has := fun (s : State) => wilurRole (portRole s.dev.map.active p) = true ∧ (s.dev.port p).isHeld = false
    let x := fun (s : State) => s.dev.port p
    let fits := fun (s : State) => stage ≤ s.dev.cap p ∧ pattern ≤ 5 ∧ 1 ≤ duration ∧ duration ≤ 86400000
    (stop = true → (4 < stage ∨ 5 < pattern) → Answers i h 0x0906 legal has .outOfRange (fun _ => []) unchanged) ∧
    (stop = true → stage ≤ 4 → pattern ≤ 5 →
      Answers i h 0x0906 legal (fun s => has s ∧ (x s).test = none) .wrongState (fun _ => []) unchanged ∧
      AnswersWith i h 0x0906 legal (fun s => has s ∧ (x s).test ≠ none ∧ (x s).step ≠ .out) .ok (fun s t => s.dev.outOrAnew t.dev p)) ∧
    (stop = false → Answers i h 0x0906 legal (fun s => has s ∧ ¬ fits s) .outOfRange (fun _ => []) unchanged ∧
      AnswersWith i h 0x0906 legal (fun s => has s ∧ fits s) .ok (fun s t =>
        (x t).step = .test ∧ (x t).stage = stage ∧ (x t).tx = (if gen then .test else .off) ∧
        (x t).rx = (if check && (x s).knLocked then .test else .off) ∧
        (x t).test = some ⟨stage, pattern, gen, check, s.dev.sys.ticks + 2560000 * duration⟩ ∧
        ∀ q < 4, (t.dev.lane (4 * p + q)).counters.prbsBits = 0 ∧ (t.dev.lane (4 * p + q)).counters.prbsErrors = 0))) ∧
  (∀ (h : CmdHeader) (lane swing pre post : Nat),
    let i := Instr.laneSetTx h lane swing pre post
    let fits := lane ≤ 31 ∧ 16 ≤ swing ∧ swing ≤ 40 ∧ pre ≤ 15 ∧ post ≤ 30
    (¬ fits → Answers i h 0x0907 work always .outOfRange (fun _ => []) unchanged) ∧
    (fits → AnswersWith i h 0x0907 work always .ok (fun s t =>
      t.dev.lane lane = { s.dev.lane lane with override := some ⟨swing, pre, post⟩ } ∧
        ∀ o, o ≠ lane → t.dev.lane o = s.dev.lane o)))

/-- The rows of the chairlift and of Kn. -/
def Obligations.ChairliftRows : Prop :=
  (∀ (s : State) (p : Nat), p < 8 →
    let x := s.dev.port p
    let y := fun (t : State) => t.dev.port p
    let now := s.dev.sys.ticks
    let trained := x.step = .train ∧ x.rx = .training ∧ x.since + trainTicks x.stage ≤ now
    let counted := x.step = .check ∧ x.rx = .training ∧ x.since + signalTicks x.stage x.fec (2 ^ 28) ≤ now
    let unaligned := x.step = .align ∧ ∃ a, x.alignAt = some a ∧ a + alignTicks x.stage ≤ now
    let undecided := x.step = .decide ∧ x.since + 2560000 ≤ now
    let rested := x.step = .retry ∧ x.since + retryTicks s.dev.map.active p ≤ now
    let lost := x.relock = true ∧ x.relockAt + relockTicks s.dev.map.active p ≤ now
    let failed := fun (t : State) => (y t).step = .failed ∧ (y t).rx = .failed ∧ (y t).commit = none ∧ (y t).upDue = false ∧
      (y t).stage = x.stage
    (∀ inverted : List Bool, (¬ trained → exec (.trainDone ⟨p, inverted⟩) s = .next s) ∧
      (trained → ∃ t : State, exec (.trainDone ⟨p, inverted⟩) s = .next t ∧ y t = { x with step := .check, since := now } ∧
        ∀ q < 4, (t.dev.lane (4 * p + q)).inverted = inverted.getD q false ∧ (t.dev.lane (4 * p + q)).counters.prbsBits = 0 ∧
          (t.dev.lane (4 * p + q)).counters.prbsErrors = 0 ∧ (t.dev.lane (4 * p + q)).counters.prbsSyncLoss = 0 ∧
          (t.dev.lane (4 * p + q)).checker = PrbsChecker.initial ∧ (t.dev.lane (4 * p + q)).checked = 0)) ∧
    (∀ streams : List LaneStream,
      let taken := fun (q : Nat) =>
        let l := s.dev.lane (4 * p + q)
        l.check x.stage x.pattern (((streams[q]?).elim [] (·.bits)).take (2 ^ 28 - l.checked))
      let good := ∀ q < 4, (taken q).checker.bits ≠ 0 ∧ (taken q).checker.errors ≤ if 3 ≤ x.stage ∧ x.fec = true then 256 else 0
      let checks := x.step = .check ∧ x.rx = .training
      let passed := x.received.stage = x.stage ∧ (x.received.rx = 2 ∨ x.received.rx = 3)
      (¬ checks → exec (.checkDone p streams) s = .next s) ∧
      (checks → ¬ counted → ∃ t : State, exec (.checkDone p streams) s = .next t ∧ y t = x ∧
        ∀ q < 4, t.dev.lane (4 * p + q) = taken q) ∧
      (counted → ∃ t : State, exec (.checkDone p streams) s = .next t ∧
        (∀ q < 4, t.dev.lane (4 * p + q) = taken q ∧
          (taken q).counters.prbsBits = (taken q).checker.bits % 2 ^ 64 ∧
          (taken q).counters.prbsErrors = (taken q).checker.errors % 2 ^ 64) ∧
        (good → ¬ passed → y t = { x with rx := .passed }) ∧
        (good → passed → y t = { x with rx := .passed, step := .align, tx := .align } ∧ (p < 8 → (t.dev.linkPort p).tx.counter = 0)) ∧
        (¬ good → failed t))) ∧
    (¬ unaligned → exec (.alignTimeout p) s = .next s) ∧
    (unaligned → ∃ t : State, exec (.alignTimeout p) s = .next t ∧ failed t) ∧
    (¬ undecided → exec (.decideTimeout p) s = .next s) ∧
    (undecided → ∃ t : State, exec (.decideTimeout p) s = .next t ∧ failed t) ∧
    (¬ rested → exec (.retryDelayEnd p) s = .next s) ∧
    (rested → ∃ t : State, exec (.retryDelayEnd p) s = .next t ∧ ((y t).step = .out ∨ (y t).step = .train ∧ (y t).stage = 0) ∧
      ((y t).step = .train ↔ s.dev.startsAnew p)) ∧
    (¬ lost → exec (.relockTimeout p) s = .next s) ∧
    (lost → x.step ≠ .out → ∃ t : State, exec (.relockTimeout p) s = .next t ∧ s.dev.outOrAnew t.dev p)) ∧
  (∀ s : State,
    let due := fun (r : Nat) => ∃ b, portOfRole s.dev.map.active r = some b ∧ (s.dev.port b).reentryAt + 256000000 ≤ s.dev.sys.ticks
    let rests := fun (r : Nat) => ∀ a, portOfRole s.dev.map.active r = some a → (s.dev.port a).reentryDue = none
    (¬ due 2 → ¬ due 3 → exec .upAReentryDelay s = .next s) ∧
    (rests 2 → rests 3 → exec .upAReentryDelay s = .next s) ∧
    (∀ b stage cause, due 2 → rests 2 → portOfRole s.dev.map.active 3 = some b → (s.dev.port b).reentryDue = some (stage, cause) →
      ∃ t : State, exec .upAReentryDelay s = .next t ∧ (t.dev.port b).step = .train ∧ (t.dev.port b).stage = stage ∧
        (t.dev.port b).lowered = some stage ∧ (t.dev.port b).reentry = true ∧ (t.dev.port b).reentryDue = none) ∧
    (∀ a stage cause, due 3 → portOfRole s.dev.map.active 2 = some a → (s.dev.port a).reentryDue = some (stage, cause) →
      ∃ t : State, exec .upAReentryDelay s = .next t ∧ (t.dev.port a).step = .train ∧ (t.dev.port a).stage = stage ∧
        (t.dev.port a).lowered = some stage ∧ (t.dev.port a).reentry = true ∧ (t.dev.port a).reentryDue = none)) ∧
  (∀ (s : State) (p : Nat), p < 8 →
    let x := s.dev.port p
    let y := fun (t : State) => t.dev.port p
    let has := wilurRole (portRole s.dev.map.active p) = true
    let sends := has ∧ s.dev.time.locked = true ∧ ∀ t, x.sentAt = some t → t + 4096 ≤ s.dev.sys.ticks
    (¬ has ∨ x.knLocked = true → exec (.kMarkerLock p) s = .next s) ∧
    (has → x.knLocked = false → ∃ t : State, exec (.kMarkerLock p) s = .next t ∧ (y t).knLocked = true ∧
      (y t).knSince = s.dev.sys.ticks ∧ (y t).delineated = false ∧ (y t).kNibbles = [] ∧ (y t).step = x.step ∧ (y t).tx = x.tx) ∧
    (x.knLocked = false → exec (.kLockLost p) s = .next s) ∧
    (x.knLocked = true → ∃ t : State, exec (.kLockLost p) s = .next t ∧ (y t).knLocked = false ∧ (y t).delineated = false ∧
      (y t).received.tx = 0 ∧ (y t).received.rx = 0 ∧ (y t).step = (if x.step = .test then .test else .out) ∧
      (s.dev.activeUplink = some p → t.dev.activeUplink = some p → (t.dev.time.source 1).present = false)) ∧
    (¬ sends → exec (.laneControlSend p) s = .next s) ∧
    (sends → ∃ t : State, exec (.laneControlSend p) s = .next t ∧ (y t).sent = s.dev.lcNow p ∧
      (y t).sentAt = some s.dev.sys.ticks ∧
      (x.step ≠ .failed → x.step ≠ .decide →
        y t = { x with sent := s.dev.lcNow p, sentAt := some s.dev.sys.ticks, commit := x.commit.map (· + 1) }) ∧
      (x.step = .failed → if x.stage = 0 then (y t).step = .retry ∧ (y t).tx = .off
        else (y t).step = .train ∧ (y t).stage = min (x.stage - 1) (s.dev.fullCap p)) ∧
      (∀ n, x.step = .decide → x.tx = .align → x.upDue = false → x.commit = some (n + 1) → x.partnerCommitted = true →
        s.dev.nextStage p = x.stage → (y t).upDue = true ∧ (y t).step = .decide)) ∧
    (∀ (frames : List Byte) (b : Byte),
      (¬ has ∨ x.knLocked = false ∨ frames = [] → exec (.laneControlMessage p frames) s = .next s) ∧
      (∃ t : State, exec (.laneControlMessage p frames) s = .next t ∧
        exec (.laneControlMessage p (frames ++ [b])) s = exec (.laneControlMessage p [b]) t) ∧
      (has → x.knLocked = true →
        let z := x.takeNibble (nibbleOf b)
        ∃ t : State, exec (.laneControlMessage p [b]) s = .next t ∧
          (z.2 = none → y t = z.1) ∧
          (∀ m, z.2 = some m → lcMsgOk m = true → (y t).received = lcMsgOf m ∧ (y t).heard = lcMsgOf m) ∧
          (∀ m, z.2 = some m → lcMsgOk m = false →
            (z.1.msgRun < 3 → y t = { z.1 with msgRun := z.1.msgRun + 1 }) ∧
            (3 ≤ z.1.msgRun → (y t).delineated = false ∧ (y t).received.tx = 0 ∧ (y t).received.rx = 0 ∧
              (y t).step = if x.step = .test then .test else .out)))))

/-- The timers of sleep and wake, and of tests. -/
def Obligations.SleepRows : Prop :=
  ∀ (s : State) (p : Nat), p < 8 →
    let x := s.dev.port p
    let y := fun (t : State) => t.dev.port p
    let now := s.dev.sys.ticks
    let guard := guardTicks s.dev.map.active p
    let unheard := x.txSleep.ackWait = true ∧ x.txSleep.acked = false ∧ x.txSleep.since + 256000 ≤ now
    let opens := x.rx = .asleep ∧ x.received.wakeKey ≠ noWakeKey ∧ x.rxSleep.fullSearch = false ∧
      -((guard + 12800 : Nat) : Int) ≤ s.dev.sinceWake p
    let missed := x.rxSleep.windowOpen = true ∧ x.rxSleep.wakeSeen = false ∧ ((guard + 2560 : Nat) : Int) < s.dev.sinceWake p
    let late := x.txSleep.waking = true ∧ ((x.upDue = false ∧ ∃ n, x.txSleep.seen = some n ∧ n + alignTicks x.stage ≤ now) ∨
      (x.txSleep.seen = none ∧ x.txSleep.bursts = 16 ∧ ∃ w, x.txSleep.wakeAt = some w ∧ w + 409600 ≤ s.dev.globalNow))
    (¬ unheard → exec (.sleepAckTimeout p) s = .next s) ∧
    (unheard → ∃ t : State, exec (.sleepAckTimeout p) s = .next t ∧ (y t).tx = .up ∧ (y t).txSleep.ackWait = false ∧
      (y t).txSleep.wakeKey = noWakeKey ∧ (y t).txSleep.wakeAt = none ∧ (y t).txSleep.waiting = none ∧ (y t).step = x.step) ∧
    (¬ opens → exec (.wakeWindowOpen p) s = .next s) ∧
    (opens → ∃ t : State, exec (.wakeWindowOpen p) s = .next t ∧
      y t = { x with rxSleep := { x.rxSleep with windowOpen := true } }) ∧
    (¬ missed → exec (.wakeWindowEnd p) s = .next s) ∧
    (missed → ∃ t : State, exec (.wakeWindowEnd p) s = .next t ∧
      y t = { x with rxSleep := { x.rxSleep with windowOpen := false, fullSearch := true } }) ∧
    (¬ late → exec (.wakeFailed p) s = .next s) ∧
    (late → x.step ≠ .out → ∃ t : State, exec (.wakeFailed p) s = .next t ∧ s.dev.outOrAnew t.dev p) ∧
    (∀ streams : List LaneStream,
      (x.test = none → exec (.prbsTestEnd p streams) s = .next s) ∧
      (∀ e, x.test = some e → x.step = .test → ∃ t : State, exec (.prbsTestEnd p streams) s = .next t ∧
        (now < e.ends → y t = x) ∧ (e.ends ≤ now → s.dev.outOrAnew t.dev p) ∧
        ∀ q < 4, (t.dev.lane (4 * p + q)).counters =
          (if e.check && x.knLocked then
            ((s.dev.lane (4 * p + q)).check e.stage e.pattern ((streams[q]?).elim [] (·.bits))).counters
           else (s.dev.lane (4 * p + q)).counters)))

/-! ### The store -/

/-- The commands of STORE. -/
def Obligations.StoreCommands : Prop :=
  let legal : List DevState := [.ready, .running, .quiesce]
  let has := fun (s : State) => hasStore s.dev.map.active = true
  (∀ (h : CmdHeader) (n m : Nat) (w : TimeWord),
    ∀ y ∈ [(Instr.storeFormat h n, 0x0A02, [DevState.standby, .ready]), (.storeCheckpoint h, 0x0A03, legal), (.storeFind h w, 0x0A04, legal),
        (.storeReplay h n m, 0x0A05, legal), (.storeReplayStop h, 0x0A06, legal)],
      Answers y.1 h y.2.1 y.2.2 (fun s => ¬ has s) .wrongState (fun _ => []) unchanged) ∧
  (∀ (h : CmdHeader) (count : Nat),
    let i := Instr.storeFormat h count
    let legal : List DevState := [.standby, .ready]
    let vs := fun (s : State) => layoutDrives (storeLayout s.dev.map.active)
    let busy := fun (s : State) =>
      s.dev.store.replay.active = true ∨ s.dev.store.format ≠ none ∨ s.dev.store.cpWaiting ≠ [] ∨ s.dev.store.finds ≠ []
    let up := fun (s : State) => ∀ v ∈ vs s, s.dev.driveUp v = true
    let fits := fun (s : State) => 16 ≤ count ∧ sizesHold (storeLayout s.dev.map.active) count (fun v => (s.dev.drive v).bytes) = true
    Answers i h 0x0A02 legal (fun s => has s ∧ busy s) .wrongState (fun _ => []) unchanged ∧
    Answers i h 0x0A02 legal (fun s => has s ∧ ¬ busy s ∧ ¬ up s) .notReady (fun _ => []) unchanged ∧
    Answers i h 0x0A02 legal (fun s => has s ∧ ¬ busy s ∧ up s ∧ ¬ fits s) .outOfRange (fun _ => []) unchanged ∧
    ∀ s : State, s.dev.carries h legal = true → has s → ¬ busy s → up s → fits s → ∃ t : State, exec i s = .next t ∧
      let x := t.dev.store
      x.format = some ⟨h, 0x0A02, none, s.dev.now⟩ ∧ x.opened = false ∧ x.extentCount = count ∧ x.head = 0 ∧ x.fwdSeq = 0 ∧
      x.gen = 1 ∧ 0 < x.logId ∧ x.logId < 2 ^ 64 ∧
      ∀ v ∈ vs s, ((t.dev.drive v).cmds.drop (s.dev.drive v).cmds.length).map (·.op) =
        [.writeSuper 0, .writeSuper 1, .writeCheckpoint 0]) ∧
  (∀ h : CmdHeader,
    let i := Instr.storeCheckpoint h
    let ctx := fun (s : State) => (⟨h, 0x0A03, none, s.dev.now⟩ : Ctx)
    Answers i h 0x0A03 legal (fun s => has s ∧ s.dev.storeOnline = false) .notReady (fun _ => []) unchanged ∧
    ∀ s : State, s.dev.carries h legal = true → s.dev.storeOnline = true →
      ∃ t : State, exec i s = .next t ∧ t.dev.store.cpWaiting = s.dev.store.cpWaiting ++ [ctx s] ∧ t.dev.store.cp ≠ .idle ∧
        (s.dev.store.cp ≠ .idle → t.dev.store.cp = s.dev.store.cp) ∧
        ∀ x, s.dev.store.cur = some x → x.data ≠ [] → (s.dev.store.fullPolicy ≠ 1 ∨ s.dev.store.unforwarded = false) →
          t.dev.store.cur = none ∧ t.dev.store.next = s.dev.store.next + 1 ∧
          (t.dev.store.sealed_.map fun y => (y.seq, y.slot, y.data)) =
            (s.dev.store.sealed_.map fun y => (y.seq, y.slot, y.data)) ++ [(s.dev.store.next, x.slot, x.data)] ∧
          ∃ y ∈ t.dev.store.sealed_, y.seq = s.dev.store.next ∧ y.early = true) ∧
  (∀ (h : CmdHeader) (w : TimeWord),
    let i := Instr.storeFind h w
    let some_ := fun (s : State) => s.dev.store.tail < s.dev.store.head
    (w.legal = false → Answers i h 0x0A04 legal has .outOfRange (fun _ => []) unchanged) ∧
    (w.legal = true →
      Answers i h 0x0A04 legal (fun s => has s ∧ s.dev.store.opened = false) .notReady (fun _ => []) unchanged ∧
      Answers i h 0x0A04 legal (fun s => has s ∧ s.dev.store.opened = true ∧ ¬ some_ s) .outOfRange (fun _ => []) unchanged ∧
      ∀ s : State, s.dev.carries h legal = true → has s → s.dev.store.opened = true → some_ s →
        let mid := (s.dev.store.tail + s.dev.store.head) / 2
        ∃ t : State, exec i s = .next t ∧
          t.dev.store.finds = s.dev.store.finds ++ [⟨⟨h, 0x0A04, none, s.dev.now⟩, w, s.dev.store.tail, s.dev.store.head⟩] ∧
          ∀ v, s.dev.readDrive mid = some v →
            ((t.dev.drive v).cmds.drop (s.dev.drive v).cmds.length).map (·.op) = [.readFind mid])) ∧
  (∀ (h : CmdHeader) (first last : Nat),
    let i := Instr.storeReplay h first last
    let runs := fun (s : State) => s.dev.store.replay.active = true
    let held := fun (s : State) => first ≤ last ∧ s.dev.store.tail ≤ first ∧ last < s.dev.store.head
    Answers i h 0x0A05 legal (fun s => has s ∧ runs s) .busy (fun _ => []) unchanged ∧
    Answers i h 0x0A05 legal (fun s => has s ∧ ¬ runs s ∧ s.dev.store.opened = false) .notReady (fun _ => []) unchanged ∧
    Answers i h 0x0A05 legal (fun s => has s ∧ ¬ runs s ∧ s.dev.store.opened = true ∧ ¬ held s) .outOfRange (fun _ => []) unchanged ∧
    AnswersWith i h 0x0A05 legal (fun s => has s ∧ ¬ runs s ∧ s.dev.store.opened = true ∧ held s) .ok (fun _ t =>
      let r := t.dev.store.replay
      r = { LogReader.idle with active := true, seq := first, last := last, reading := r.reading, slot := r.slot } ∧
        t.dev.store.replayFirst = first ∧ (r.reading = true ∨ t.dev.store.freeSlot = none) ∧ (r.reading = true ↔ r.slot ≠ none)) ∧
    Answers (.storeReplayStop h) h 0x0A06 legal (fun s => has s ∧ ¬ runs s) .wrongState (fun _ => []) unchanged ∧
    AnswersWith (.storeReplayStop h) h 0x0A06 legal (fun s => has s ∧ runs s) .ok (fun s t =>
      t.dev.store = { s.dev.store with replay := LogReader.idle }))

/-- The rows of the drives. -/
def Obligations.DriveRows : Prop :=
  (∀ (s : State) (v : Nat), v < 2 →
    let x := s.dev.drive v
    let now := s.dev.sys.ticks
    let m := s.dev.map.active
    let polls := x.phase = .waiting ∧ ∀ n, x.polled = some n → n + 256000000 ≤ now
    let released := x.phase = .reset ∧ x.since + 256000000 ≤ now
    let unlinked := x.phase = .training ∧ x.since + 2816000000 ≤ now
    let enabled := x.phase = .enabling ∧ x.since + 256000000 ≤ now
    let lost := { x with phase := .waiting, polled := none, lost := true, cmds := [], resets := [] }
    (∀ there : Bool, (¬ polls → exec (.drivePresencePoll v there) s = .next s) ∧
      (polls → ∃ t : State, exec (.drivePresencePoll v there) s = .next t ∧
        t.dev.drive v = { x with polled := some now, phase := if there then .reset else .waiting, since := now } ∧
        t.dev.drive (1 - v) = s.dev.drive (1 - v))) ∧
    (¬ released → exec (.srstRelease v) s = .next s) ∧
    (released → ∃ t : State, exec (.srstRelease v) s = .next t ∧ t.dev.drive v = { x with phase := .training }) ∧
    (∀ gen width : Nat, (x.phase ≠ .training → exec (.pcieLinkUp v gen width) s = .next s) ∧
      (x.phase = .training → ∃ t : State, exec (.pcieLinkUp v gen width) s = .next t ∧
        t.dev.drive v = { x with
          phase := .enabling, since := now, generation := min gen (storeField m 3 1 6), width := min width 4 })) ∧
    (¬ unlinked → exec (.pcieLinkTimeout v) s = .next s) ∧
    (unlinked → ∃ t : State, exec (.pcieLinkTimeout v) s = .next t ∧ t.dev.drive v = lost ∧ t.dev.store.opened = s.dev.store.opened) ∧
    (∀ identity : DriveIdentity, (¬ enabled → exec (.controllerReady v identity) s = .next s) ∧
      (enabled → ∃ t : State, exec (.controllerReady v identity) s = .next t ∧
        t.dev.drive v = { x with phase := .settling, since := now, identity := identity } ∧
        t.dev.drive (1 - v) = s.dev.drive (1 - v))) ∧
    (x.phase = .unused ∨ x.phase = .waiting → exec (.driveRemoved v) s = .next s) ∧
    (x.phase ≠ .unused → x.phase ≠ .waiting → ∃ t : State, exec (.driveRemoved v) s = .next t ∧
      (t.dev.drive v).phase = .waiting ∧ (t.dev.drive v).lost = true ∧ (t.dev.drive v).cmds = [] ∧
      (x.phase ≠ .up → t.dev.store.opened = s.dev.store.opened) ∧
      (x.phase = .up →
        (t.dev.store.opened = true ↔ s.dev.store.opened = true ∧ storeLayout m = 2 ∧ s.dev.driveUp (1 - v) = true))) ∧
    (let stuck := ∃ c ∈ x.cmds, c.op.isAbort = true ∧ c.at_ + 256000000 ≤ now
     let late := x.cmds.filter fun c => !c.op.isAbort && !c.aborted && c.at_ + 2560000000 ≤ now
     let resets := (now :: x.resets).filter fun r => now - r ≤ 60 * 2560000000
     (¬ stuck → late = [] → exec (.nvmeTimeout v) s = .next s) ∧
     (¬ stuck → ∃ t : State, exec (.nvmeTimeout v) s = .next t ∧
       (t.dev.drive v).cmds.take x.cmds.length =
         (x.cmds.map fun y => if late.any (·.id == y.id) then { y with aborted := true } else y) ∧
       ((t.dev.drive v).cmds.drop x.cmds.length).map (·.op) = (late.map fun c => .admin (.abort c.id))) ∧
     (stuck → resets.length < 3 → ∃ t : State, exec (.nvmeTimeout v) s = .next t ∧ t.dev.drive v = { x with
       resets := resets, cmds := (x.cmds.filter fun y => !y.op.isAbort).map fun y => { y with at_ := now, aborted := false } }) ∧
     (stuck → 3 ≤ resets.length → ∃ t : State, exec (.nvmeTimeout v) s = .next t ∧
       (t.dev.drive v).phase = .waiting ∧ (t.dev.drive v).lost = true ∧ (t.dev.drive v).cmds = []))) ∧
  (∀ (s : State) (v id status : Nat) (data : List Byte) (damage : List Upset), v < 2 →
    let x := s.dev.drive v
    let m := s.dev.map.active
    let run := exec (.nvmeCompletion v id status data damage) s
    let own := (s.dev.drive v).cmds.find? (·.id == id)
    (own = none → run = .next s) ∧
    (∀ c, own = some c →
      let n := s.dev.store.counters
      let met := fun (e : Nat) => (s.dev.readForWrite v e damage).2
      let clean := ∀ e, c.op = .writeExtent e → met e = false
      (∀ a, c.op = .admin a → c.op.isAbort = false → x.phase = .admin → x.todo = [a] → status = 0 →
        (a = .identifyNamespace → identityFits m x.identity = true) →
        s.dev.store.cp = .idle → s.dev.store.replay.active = false → ∃ t : State, run = .next t ∧
          (t.dev.drive v).phase = .up ∧ (t.dev.drive v).lost = false ∧ (t.dev.drive v).bytes = x.identity.size ∧
          (t.dev.drive v).queues = storeField m 14 1 4 ∧ (t.dev.drive v).depth = storeField m 16 2 64 ∧
          ((∃ w ∈ layoutDrives (storeLayout m), w ≠ v ∧ s.dev.driveUp w = false) → t.dev.store.openStep = s.dev.store.openStep) ∧
          ((∀ w ∈ layoutDrives (storeLayout m), w = v ∨ s.dev.driveUp w = true) → t.dev.store.openStep = .heads ∧
            t.dev.store.opened = false ∧ ∀ w ∈ layoutDrives (storeLayout m), [StoreOp.readSuper 0, .readSuper 1, .readCheckpoint 0,
              .readCheckpoint 1] <:+ (t.dev.drive w).cmds.map (·.op))) ∧
      (∀ e, c.op = .writeExtent e → met e = false → status = 0 → e < s.dev.store.next → ∃ t : State, run = .next t ∧
        ∀ y ∈ t.dev.store.sealed_, y.seq = e → v ∉ y.drives) ∧
      (∀ e, c.op = .writeExtent e → met e = true → ∃ t : State, run = .next t ∧
        ∃ y ∈ (t.dev.drive v).cmds, y.op = c.op ∧ y.tries = 0 ∧ y.at_ = s.dev.sys.ticks) ∧
      (c.op.isWrite = true → status ≠ 0 → clean → c.tries < 2 → ∃ t : State, run = .next t ∧
        t.dev.store.counters.retried = (n.retried + b2n c.op.isExtent) % 2 ^ 64 ∧
        ∃ y ∈ (t.dev.drive v).cmds, y.op = c.op ∧ y.tries = c.tries + 1 ∧ y.at_ = s.dev.sys.ticks) ∧
      (c.op.isWrite = true → status ≠ 0 → clean → 2 ≤ c.tries → ∃ t : State, run = .next t ∧
        t.dev.store.counters.failed = (n.failed + b2n c.op.isExtent) % 2 ^ 64 ∧ (t.dev.drive v).phase = .waiting ∧ (t.dev.drive v).lost = true) ∧
      (∀ k, c.op = .readSuper k ∨ c.op = .readCheckpoint k → s.dev.store.openStep = .heads →
        s.dev.store.heads.length + 1 < 4 * (layoutDrives (storeLayout s.dev.map.active)).length → ∃ t : State, run = .next t ∧
          t.dev.store.heads = s.dev.store.heads ++ [(v, c.op, if status = 0 then data else [])]))) ∧
  (∀ s : State,
    let due := s.dev.store.cpAt + storeField s.dev.map.active 12 2 1 * 2560000000 ≤ s.dev.sys.ticks
    (¬ due → exec .checkpointPeriod s = .next s) ∧
    (due → s.dev.storeOnline = true → ∃ t : State, exec .checkpointPeriod s = .next t ∧ t.dev.store.cp ≠ .idle ∧
      (s.dev.store.cp ≠ .idle → t.dev.store.cpDue = true) ∧ t.dev.store.gen = s.dev.store.gen))

/-! ### Integrity, self-test, calibration -/

/-- The commands and rows of integrity and self-test. -/
def Obligations.IntegrityRows : Prop :=
  (∀ (h : CmdHeader) (all : Bool), AnswersWith (.integLogClear h all) h 0x0B02 upStates always .ok (fun s t =>
    t.dev.integ.mem = s.dev.integ.mem ∧ t.dev.integ.remap = s.dev.integ.remap ∧ ∀ i < 32, ∀ e, s.dev.integ.log[i]? = some e →
      t.dev.integ.log[i]? = some (if e.any fun x => all || !x.lasting then none else e))) ∧
  (∀ (h : CmdHeader) (w action rate : Nat),
    let ok := w ≤ 1 ∧ action ≤ 3 ∧ (action = 2 → 1 ≤ rate ∧ rate ≤ 65536)
    (¬ ok → Answers (.integGroom h w action rate) h 0x0B04 upStates always .outOfRange (fun _ => []) unchanged) ∧
    (ok → AnswersWith (.integGroom h w action rate) h 0x0B04 upStates always .ok (fun s t =>
      let x := s.dev.walk w
      t.dev.walk (1 - w) = s.dev.walk (1 - w) ∧
      t.dev.walk w = match action with
        | 0 => { x with paused := true }
        | 1 => { x with paused := false }
        | 2 => { x with rate := rate }
        | _ => { x with line := 0, passStart := s.dev.sys.ticks, corrections := 0, uncorrectable := 0 }))) ∧
  (∀ (h : CmdHeader) (target subject mode a b address tile : Nat),
    let i := Instr.integInject h target subject mode a b address tile
    let legal : List DevState := [.ready, .running]
    let allowed := fun (s : State) => mapBits s.dev.map.active 0x0060 0 24 1 2 2 0 = 1
    let fits := injectLegal target subject mode a b address tile = true
    let down := fun (s : State) => target = 2 ∧ (s.dev.port subject).step ≠ .up
    Answers i h 0x0B05 legal (fun s => ¬ allowed s) .locked (fun _ => []) unchanged ∧
    (¬ fits → Answers i h 0x0B05 legal allowed .outOfRange (fun _ => []) unchanged) ∧
    (fits → Answers i h 0x0B05 legal (fun s => allowed s ∧ down s) .wrongState (fun _ => []) unchanged ∧
      AnswersWith i h 0x0B05 legal (fun s => allowed s ∧ ¬ down s) .ok (fun s t =>
        let g := s.dev.integ
        let k := memKey (s.dev.remapped subject address).1 (s.dev.remapped subject address).2
        let w := memRead g.mem k
        (target = 0 → memRead t.dev.integ.mem k =
            (if mode = 2 then poisonWord (w % 256) else if mode = 1 then w ^^^ 2 ^ a ^^^ 2 ^ b else w ^^^ 2 ^ a) ∧
          (∀ j, j ≠ k → memRead t.dev.integ.mem j = memRead g.mem j) ∧
          (wordClass (memRead t.dev.integ.mem k) ≠ .good → k ∈ t.dev.integ.injected)) ∧
        (target = 1 → t.dev.integ = { g with
          crossingInjects := g.crossingInjects ++ [(subject, if subject = 1 ∨ subject = 3 then tile else 0)] }) ∧
        (target = 2 → t.dev.integ = { g with portInjects := g.portInjects ++ [subject] })))) ∧
  (∀ (s : State) (w : Nat) (us : List Upset),
    let x := s.dev.walk w
    let due := w ≤ 1 ∧ s.dev.grooms = true ∧ x.paused = false ∧ s.dev.lineDue w = true
    let cls := (walkLine w x.line).1
    let line := (walkLine w x.line).2
    let clean := ∀ k < 64, wordClass (memRead s.dev.integ.mem
      (memKey (s.dev.remapped cls (64 * line + k)).1 (s.dev.remapped cls (64 * line + k)).2)) = .good
    (¬ due → exec (.groomerLine w us) s = .next s) ∧
    (due → ∃ t : State, exec (.groomerLine w us) s = .next t ∧ (t.dev.walk w).lineAt = some s.dev.sys.ticks ∧
      (t.dev.walk w).line = (if x.line + 1 < walkLines w then x.line + 1 else 0) ∧ t.dev.walk (1 - w) = s.dev.walk (1 - w) ∧
      (us = [] → clean ∨ s.dev.lineHeld cls line = true →
        t.dev.integ.mem = s.dev.integ.mem ∧ t.dev.integ.memCounts = s.dev.integ.memCounts ∧ t.dev.integ.log = s.dev.integ.log))) ∧
  (∀ s : State,
    (s.dev.integ.remapDue = [] → exec .remapLine s = .next s) ∧
    (∀ cls line rest, s.dev.integ.remapDue = (cls, line) :: rest →
      let moved := ∃ e ∈ s.dev.integ.remap.toList, e.state = 1 ∧ e.cls = cls ∧ e.line = line
      let on := remapEnabled s.dev.map.active = true
      let next := s.onDev (·.modInteg fun g => { g with remapDue := rest })
      (cls ≠ 4 →
        (moved ∨ ¬ on → exec .remapLine s = .next next) ∧
        (on → ¬ moved → freeSpare s.dev.integ.remap.toList = none →
          exec .remapLine s = .next (next.onDev (·.raise 1667 0 [evNat cls, evNat line]))) ∧
        (∀ i, on → ¬ moved → freeSpare s.dev.integ.remap.toList = some i → ∃ t : State, exec .remapLine s = .next t ∧
          t.dev.integ.remap[i]? = some ⟨1, cls, line⟩)) ∧
      (cls = 4 →
        ((∀ e, s.dev.integ.remap[line]? = some e → e.state ≠ 1) → exec .remapLine s = .next next) ∧
        (∀ e, s.dev.integ.remap[line]? = some e → e.state = 1 → ∃ t : State, exec .remapLine s = .next t ∧
          t.dev.integ.remap[line]? = some { e with state := 2 } ∧
          ∀ j, on → freeSpare s.dev.integ.remap.toList = some j → t.dev.integ.remap[j]? = some ⟨1, e.cls, e.line⟩)))) ∧
  (∀ (h : CmdHeader) (cls first last : Nat),
    let i := Instr.bistRun h cls first last
    let ok := cls ≤ 3 ∧ first ≤ last ∧ last < sliceCount cls
    Answers i h 0x0D10 workStates (fun s => s.dev.bist.run ≠ none) .busy (fun _ => []) unchanged ∧
    (¬ ok → Answers i h 0x0D10 workStates (fun s => s.dev.bist.run = none) .outOfRange (fun _ => []) unchanged) ∧
    (ok → ∀ s : State, s.dev.carries h workStates = true → s.dev.bist.run = none → ∃ t : State, exec i s = .next t ∧
      t.dev.bist.run = some ⟨⟨h, 0x0D10, none, s.dev.now⟩, cls, first, last, 0, 0, 0⟩ ∧ t.dev.bist.sliceAt[cls]? = some none ∧
      t.dev.bist.walks = s.dev.bist.walks)) ∧
  (∀ h : CmdHeader,
    let todo := fun (s : State) => s.dev.bist.inUse.filter fun r => !s.dev.bist.fused.contains r
    let free := fun (s : State) => 256 - s.dev.bist.fusesUsed
    Answers (.bistFuse h) h 0x0D12 [.standby] (fun s => free s < (todo s).length) .outOfRange (fun _ => []) unchanged ∧
    ∀ s : State, s.dev.carries h [.standby] = true → (todo s).length ≤ free s → ∃ t : State,
      exec (.bistFuse h) s = .next (t.replied h 0x0D12 s.dev.now .ok
        (leBytes 2 (todo s).length ++ leBytes 2 (free s - (todo s).length))) ∧
      (∀ i < 256, ∀ n, s.dev.bist.fuses[i]? = some n → n ≠ 0 → t.dev.bist.fuses[i]? = some n) ∧
      ∀ r ∈ s.dev.bist.inUse, r.cls < 4 → r.macro_ < 64 → r.row < 1024 → r.spare < 8 → r ∈ t.dev.bist.fused) ∧
  (∀ (s : State) (cls : Nat) (vcore : Bool) (us : List Upset) (first again : List CellReads),
    let run := exec (.bistSlice cls vcore us first again) s
    let due := cls ≤ 3 ∧ s.dev.selfTests = true ∧ s.dev.sliceDue cls = true ∧ s.dev.nextSlice cls ≠ none
    let skips := s.dev.skipCause vcore ≠ none
    let b := s.dev.bist
    (¬ due → run = .next s) ∧
    (due → ∃ t : State, run = .next t ∧ t.dev.bist.sliceAt[cls]? = some (some s.dev.sys.ticks) ∧
      (skips → t.dev.bist.skipped = (b.skipped + 1) % 2 ^ 64 ∧ t.dev.bist.repairs = b.repairs) ∧
      (¬ skips → t.dev.bist.tested = (b.tested + 1) % 2 ^ 64 ∧
        t.dev.bist.failed = (b.failed + if failingCells first = [] then 0 else 1) % 2 ^ 64) ∧
      (∀ r, b.run = some r → r.cls = cls → r.slice < r.last →
        t.dev.bist.run.map (fun x => (x.slice, x.last)) = some (r.slice + 1, r.last)) ∧
      (∀ r, b.run = some r → r.cls = cls → r.last ≤ r.slice → t.dev.bist.run = none) ∧
      ((∀ r, b.run = some r → r.cls ≠ cls) → t.dev.bist.run = b.run ∧
        ∀ n, b.walks[cls]? = some n → t.dev.bist.walks[cls]? = some ((n + 1) % sliceCount cls)))) ∧
  (∀ (h : CmdHeader) (mask : Nat), AnswersWith (.hmonClear h mask) h 0x0D21 upStates always .ok (fun s t =>
    ∀ u < 32, ∀ x, s.dev.hmon[u]? = some x → t.dev.hmon[u]? = some (if bit mask u then HmonUnit.initial else x)))

/-- The commands and rows of calibration. -/
def Obligations.CalibrationRows : Prop :=
  (∀ (h : CmdHeader) (first last : Nat),
    let i := Instr.calRun h first last
    let legal : List DevState := [.ready, .running, .quiesce]
    let range := first ≤ last ∧ last ≤ 63
    let may := fun (s : State) => calEnabled s.dev.map.active = true ∧
      ∀ n, first ≤ n → n ≤ last → calTileIncluded s.dev.map.active n = true
    (¬ range → Answers i h 0x0D01 legal always .outOfRange (fun _ => []) unchanged) ∧
    (range → Answers i h 0x0D01 legal (fun s => ¬ may s) .wrongState (fun _ => []) unchanged ∧
      AnswersWith i h 0x0D01 legal may .ok (fun s t => ∀ n < 64,
        (first ≤ n → n ≤ last → (s.dev.calTile n).run = none → t.dev.calTile n = { s.dev.calTile n with due := true }) ∧
        (n < first ∨ last < n ∨ (s.dev.calTile n).run ≠ none → t.dev.calTile n = s.dev.calTile n)))) ∧
  (∀ (s : State) (n : Nat), n < 64 →
    let x := s.dev.calTile n
    let period := calField s.dev.map.active 24 4 0
    let elapsed := period ≠ 0 ∧ ∃ l, x.last = some l ∧ l.2.1 + period * 2560000000 ≤ s.dev.sys.ticks
    let may := calEnabled s.dev.map.active = true ∧ calTileIncluded s.dev.map.active n = true
    (¬ elapsed ∨ ¬ may → exec (.calibrationPeriod n) s = .next s) ∧
    (elapsed → may → ∃ t : State, exec (.calibrationPeriod n) s = .next t ∧
      t.dev.calTile n = (if x.run = none then { x with due := true } else x) ∧
      ∀ o < 64, o ≠ n → t.dev.calTile o = s.dev.calTile o)) ∧
  (∀ s : State,
    (s.dev.calNext = none → exec .calRunStart s = .next s) ∧
    (∀ n, s.dev.calNext = some n → ∃ (t : State) (r : CalRun), exec .calRunStart s = .next t ∧
      (t.dev.calTile n).run = some r ∧ r.startTick = s.dev.sys.ticks ∧ r.second = false ∧ r.start = s.dev.now ∧
      (t.dev.calTile n).due = false ∧ (t.dev.calTile n).runs = ((s.dev.calTile n).runs + 1) % 65536 ∧
      (t.dev.tileFe n).map (·.calibrating) = some true ∧ ∀ o < 64, o ≠ n → t.dev.calTile o = s.dev.calTile o)) ∧
  (∀ (s : State) (n : Nat) (pulses : List CalPulse), n < 64 →
    let x := s.dev.calTile n
    let len := repeatTicks s.dev.map.active
    let run := exec (.calRepeatEnd n pulses) s
    (x.run = none → run = .next s) ∧
    (∀ r, x.run = some r →
      let ends := r.startTick + (if r.second then 2 * len else len)
      (s.dev.sys.ticks < ends → run = .next s) ∧
      (ends ≤ s.dev.sys.ticks → r.second = false → ∃ t : State, run = .next t ∧
        t.dev.calTile n = { x with
          run := some { r with second := true, first_ := s.dev.evaluateRepeat n r.startTick r.gains pulses } }) ∧
      (ends ≤ s.dev.sys.ticks → r.second = true → ∃ t : State, run = .next t ∧ (t.dev.calTile n).run = none ∧
        (t.dev.tileFe n).map (·.calibrating) = some false ∧
        ∀ i < 16, ∀ p, s.dev.cal.pixels[16 * n + i]? = some p →
          let b := s.dev.evaluateRepeat n (r.startTick + len) r.gains pulses
          let y := s.dev.calResult n i r ((b[i]?).getD ⟨none, 0⟩)
          (y.q = none → t.dev.cal.pixels[16 * n + i]? = some p) ∧
          (∀ q, y.q = some q → t.dev.cal.pixels[16 * n + i]? = some { p with
            next := if calTarget s.dev.map.active (16 * n + i) = 0 then p.next else some y.trim
            charges := newCharges (16 * n + i) ((r.gains[i]?).getD 0) q }))))
end

