-- ==== Sys2Proof/Laws/State.lean ====
section
/-! SUPPORT. What a change of one part of the state leaves in every part: one lemma per part, true by unfolding once. -/

namespace Sys2Proof.Machine

/-! ### The whole state -/

@[simp] theorem State.onDev_dev (s : State) (f : Dev → Dev) : (s.onDev f).dev = f s.dev := rfl
@[simp] theorem State.onDev_flash (s : State) (f : Dev → Dev) : (s.onDev f).flash = s.flash := rfl
@[simp] theorem State.onDev_pending (s : State) (f : Dev → Dev) : (s.onDev f).pending = s.pending := rfl

/-! ### `Dev.modPwr` -/

@[simp] theorem Dev.modPwr_sys (d : Dev) (f) : (d.modPwr f).sys = d.sys := rfl
@[simp] theorem Dev.modPwr_cmd (d : Dev) (f) : (d.modPwr f).cmd = d.cmd := rfl
@[simp] theorem Dev.modPwr_evt (d : Dev) (f) : (d.modPwr f).evt = d.evt := rfl
@[simp] theorem Dev.modPwr_map (d : Dev) (f) : (d.modPwr f).map = d.map := rfl
@[simp] theorem Dev.modPwr_fe (d : Dev) (f) : (d.modPwr f).fe = d.fe := rfl
@[simp] theorem Dev.modPwr_wfc (d : Dev) (f) : (d.modPwr f).wfc = d.wfc := rfl
@[simp] theorem Dev.modPwr_mon (d : Dev) (f) : (d.modPwr f).mon = d.mon := rfl
@[simp] theorem Dev.modPwr_time (d : Dev) (f) : (d.modPwr f).time = d.time := rfl
@[simp] theorem Dev.modPwr_tdc (d : Dev) (f) : (d.modPwr f).tdc = d.tdc := rfl
@[simp] theorem Dev.modPwr_slalom (d : Dev) (f) : (d.modPwr f).slalom = d.slalom := rfl
@[simp] theorem Dev.modPwr_schuss (d : Dev) (f) : (d.modPwr f).schuss = d.schuss := rfl
@[simp] theorem Dev.modPwr_acq (d : Dev) (f) : (d.modPwr f).acq = d.acq := rfl
@[simp] theorem Dev.modPwr_cmp (d : Dev) (f) : (d.modPwr f).cmp = d.cmp := rfl
@[simp] theorem Dev.modPwr_mrg (d : Dev) (f) : (d.modPwr f).mrg = d.mrg := rfl
@[simp] theorem Dev.modPwr_link (d : Dev) (f) : (d.modPwr f).link = d.link := rfl
@[simp] theorem Dev.modPwr_lift (d : Dev) (f) : (d.modPwr f).lift = d.lift := rfl
@[simp] theorem Dev.modPwr_lanes (d : Dev) (f) : (d.modPwr f).lanes = d.lanes := rfl
@[simp] theorem Dev.modPwr_pair (d : Dev) (f) : (d.modPwr f).pair = d.pair := rfl
@[simp] theorem Dev.modPwr_store (d : Dev) (f) : (d.modPwr f).store = d.store := rfl
@[simp] theorem Dev.modPwr_integ (d : Dev) (f) : (d.modPwr f).integ = d.integ := rfl
@[simp] theorem Dev.modPwr_pwr (d : Dev) (f) : (d.modPwr f).pwr = f d.pwr := rfl
@[simp] theorem Dev.modPwr_triad (d : Dev) (f) : (d.modPwr f).triad = d.triad := rfl
@[simp] theorem Dev.modPwr_cal (d : Dev) (f) : (d.modPwr f).cal = d.cal := rfl
@[simp] theorem Dev.modPwr_bist (d : Dev) (f) : (d.modPwr f).bist = d.bist := rfl
@[simp] theorem Dev.modPwr_hmon (d : Dev) (f) : (d.modPwr f).hmon = d.hmon := rfl
@[simp] theorem Dev.modPwr_fw (d : Dev) (f) : (d.modPwr f).fw = d.fw := rfl
@[simp] theorem Dev.modPwr_free (d : Dev) (f) : (d.modPwr f).free = d.free := rfl

/-! ### `Dev.modTime` -/

@[simp] theorem Dev.modTime_sys (d : Dev) (f) : (d.modTime f).sys = d.sys := rfl
@[simp] theorem Dev.modTime_cmd (d : Dev) (f) : (d.modTime f).cmd = d.cmd := rfl
@[simp] theorem Dev.modTime_evt (d : Dev) (f) : (d.modTime f).evt = d.evt := rfl
@[simp] theorem Dev.modTime_map (d : Dev) (f) : (d.modTime f).map = d.map := rfl
@[simp] theorem Dev.modTime_fe (d : Dev) (f) : (d.modTime f).fe = d.fe := rfl
@[simp] theorem Dev.modTime_wfc (d : Dev) (f) : (d.modTime f).wfc = d.wfc := rfl
@[simp] theorem Dev.modTime_mon (d : Dev) (f) : (d.modTime f).mon = d.mon := rfl
@[simp] theorem Dev.modTime_time (d : Dev) (f) : (d.modTime f).time = f d.time := rfl
@[simp] theorem Dev.modTime_tdc (d : Dev) (f) : (d.modTime f).tdc = d.tdc := rfl
@[simp] theorem Dev.modTime_slalom (d : Dev) (f) : (d.modTime f).slalom = d.slalom := rfl
@[simp] theorem Dev.modTime_schuss (d : Dev) (f) : (d.modTime f).schuss = d.schuss := rfl
@[simp] theorem Dev.modTime_acq (d : Dev) (f) : (d.modTime f).acq = d.acq := rfl
@[simp] theorem Dev.modTime_cmp (d : Dev) (f) : (d.modTime f).cmp = d.cmp := rfl
@[simp] theorem Dev.modTime_mrg (d : Dev) (f) : (d.modTime f).mrg = d.mrg := rfl
@[simp] theorem Dev.modTime_link (d : Dev) (f) : (d.modTime f).link = d.link := rfl
@[simp] theorem Dev.modTime_lift (d : Dev) (f) : (d.modTime f).lift = d.lift := rfl
@[simp] theorem Dev.modTime_lanes (d : Dev) (f) : (d.modTime f).lanes = d.lanes := rfl
@[simp] theorem Dev.modTime_pair (d : Dev) (f) : (d.modTime f).pair = d.pair := rfl
@[simp] theorem Dev.modTime_store (d : Dev) (f) : (d.modTime f).store = d.store := rfl
@[simp] theorem Dev.modTime_integ (d : Dev) (f) : (d.modTime f).integ = d.integ := rfl
@[simp] theorem Dev.modTime_pwr (d : Dev) (f) : (d.modTime f).pwr = d.pwr := rfl
@[simp] theorem Dev.modTime_triad (d : Dev) (f) : (d.modTime f).triad = d.triad := rfl
@[simp] theorem Dev.modTime_cal (d : Dev) (f) : (d.modTime f).cal = d.cal := rfl
@[simp] theorem Dev.modTime_bist (d : Dev) (f) : (d.modTime f).bist = d.bist := rfl
@[simp] theorem Dev.modTime_hmon (d : Dev) (f) : (d.modTime f).hmon = d.hmon := rfl
@[simp] theorem Dev.modTime_fw (d : Dev) (f) : (d.modTime f).fw = d.fw := rfl
@[simp] theorem Dev.modTime_free (d : Dev) (f) : (d.modTime f).free = d.free := rfl

/-! ### `Dev.modSlalom` -/

@[simp] theorem Dev.modSlalom_sys (d : Dev) (f) : (d.modSlalom f).sys = d.sys := rfl
@[simp] theorem Dev.modSlalom_cmd (d : Dev) (f) : (d.modSlalom f).cmd = d.cmd := rfl
@[simp] theorem Dev.modSlalom_evt (d : Dev) (f) : (d.modSlalom f).evt = d.evt := rfl
@[simp] theorem Dev.modSlalom_map (d : Dev) (f) : (d.modSlalom f).map = d.map := rfl
@[simp] theorem Dev.modSlalom_fe (d : Dev) (f) : (d.modSlalom f).fe = d.fe := rfl
@[simp] theorem Dev.modSlalom_wfc (d : Dev) (f) : (d.modSlalom f).wfc = d.wfc := rfl
@[simp] theorem Dev.modSlalom_mon (d : Dev) (f) : (d.modSlalom f).mon = d.mon := rfl
@[simp] theorem Dev.modSlalom_time (d : Dev) (f) : (d.modSlalom f).time = d.time := rfl
@[simp] theorem Dev.modSlalom_tdc (d : Dev) (f) : (d.modSlalom f).tdc = d.tdc := rfl
@[simp] theorem Dev.modSlalom_slalom (d : Dev) (f) : (d.modSlalom f).slalom = f d.slalom := rfl
@[simp] theorem Dev.modSlalom_schuss (d : Dev) (f) : (d.modSlalom f).schuss = d.schuss := rfl
@[simp] theorem Dev.modSlalom_acq (d : Dev) (f) : (d.modSlalom f).acq = d.acq := rfl
@[simp] theorem Dev.modSlalom_cmp (d : Dev) (f) : (d.modSlalom f).cmp = d.cmp := rfl
@[simp] theorem Dev.modSlalom_mrg (d : Dev) (f) : (d.modSlalom f).mrg = d.mrg := rfl
@[simp] theorem Dev.modSlalom_link (d : Dev) (f) : (d.modSlalom f).link = d.link := rfl
@[simp] theorem Dev.modSlalom_lift (d : Dev) (f) : (d.modSlalom f).lift = d.lift := rfl
@[simp] theorem Dev.modSlalom_lanes (d : Dev) (f) : (d.modSlalom f).lanes = d.lanes := rfl
@[simp] theorem Dev.modSlalom_pair (d : Dev) (f) : (d.modSlalom f).pair = d.pair := rfl
@[simp] theorem Dev.modSlalom_store (d : Dev) (f) : (d.modSlalom f).store = d.store := rfl
@[simp] theorem Dev.modSlalom_integ (d : Dev) (f) : (d.modSlalom f).integ = d.integ := rfl
@[simp] theorem Dev.modSlalom_pwr (d : Dev) (f) : (d.modSlalom f).pwr = d.pwr := rfl
@[simp] theorem Dev.modSlalom_triad (d : Dev) (f) : (d.modSlalom f).triad = d.triad := rfl
@[simp] theorem Dev.modSlalom_cal (d : Dev) (f) : (d.modSlalom f).cal = d.cal := rfl
@[simp] theorem Dev.modSlalom_bist (d : Dev) (f) : (d.modSlalom f).bist = d.bist := rfl
@[simp] theorem Dev.modSlalom_hmon (d : Dev) (f) : (d.modSlalom f).hmon = d.hmon := rfl
@[simp] theorem Dev.modSlalom_fw (d : Dev) (f) : (d.modSlalom f).fw = d.fw := rfl
@[simp] theorem Dev.modSlalom_free (d : Dev) (f) : (d.modSlalom f).free = d.free := rfl

/-! ### `Dev.modMap` -/

@[simp] theorem Dev.modMap_sys (d : Dev) (f) : (d.modMap f).sys = d.sys := rfl
@[simp] theorem Dev.modMap_cmd (d : Dev) (f) : (d.modMap f).cmd = d.cmd := rfl
@[simp] theorem Dev.modMap_evt (d : Dev) (f) : (d.modMap f).evt = d.evt := rfl
@[simp] theorem Dev.modMap_map (d : Dev) (f) : (d.modMap f).map = f d.map := rfl
@[simp] theorem Dev.modMap_fe (d : Dev) (f) : (d.modMap f).fe = d.fe := rfl
@[simp] theorem Dev.modMap_wfc (d : Dev) (f) : (d.modMap f).wfc = d.wfc := rfl
@[simp] theorem Dev.modMap_mon (d : Dev) (f) : (d.modMap f).mon = d.mon := rfl
@[simp] theorem Dev.modMap_time (d : Dev) (f) : (d.modMap f).time = d.time := rfl
@[simp] theorem Dev.modMap_tdc (d : Dev) (f) : (d.modMap f).tdc = d.tdc := rfl
@[simp] theorem Dev.modMap_slalom (d : Dev) (f) : (d.modMap f).slalom = d.slalom := rfl
@[simp] theorem Dev.modMap_schuss (d : Dev) (f) : (d.modMap f).schuss = d.schuss := rfl
@[simp] theorem Dev.modMap_acq (d : Dev) (f) : (d.modMap f).acq = d.acq := rfl
@[simp] theorem Dev.modMap_cmp (d : Dev) (f) : (d.modMap f).cmp = d.cmp := rfl
@[simp] theorem Dev.modMap_mrg (d : Dev) (f) : (d.modMap f).mrg = d.mrg := rfl
@[simp] theorem Dev.modMap_link (d : Dev) (f) : (d.modMap f).link = d.link := rfl
@[simp] theorem Dev.modMap_lift (d : Dev) (f) : (d.modMap f).lift = d.lift := rfl
@[simp] theorem Dev.modMap_lanes (d : Dev) (f) : (d.modMap f).lanes = d.lanes := rfl
@[simp] theorem Dev.modMap_pair (d : Dev) (f) : (d.modMap f).pair = d.pair := rfl
@[simp] theorem Dev.modMap_store (d : Dev) (f) : (d.modMap f).store = d.store := rfl
@[simp] theorem Dev.modMap_integ (d : Dev) (f) : (d.modMap f).integ = d.integ := rfl
@[simp] theorem Dev.modMap_pwr (d : Dev) (f) : (d.modMap f).pwr = d.pwr := rfl
@[simp] theorem Dev.modMap_triad (d : Dev) (f) : (d.modMap f).triad = d.triad := rfl
@[simp] theorem Dev.modMap_cal (d : Dev) (f) : (d.modMap f).cal = d.cal := rfl
@[simp] theorem Dev.modMap_bist (d : Dev) (f) : (d.modMap f).bist = d.bist := rfl
@[simp] theorem Dev.modMap_hmon (d : Dev) (f) : (d.modMap f).hmon = d.hmon := rfl
@[simp] theorem Dev.modMap_fw (d : Dev) (f) : (d.modMap f).fw = d.fw := rfl
@[simp] theorem Dev.modMap_free (d : Dev) (f) : (d.modMap f).free = d.free := rfl

/-! ### `Dev.modFw` -/

@[simp] theorem Dev.modFw_sys (d : Dev) (f) : (d.modFw f).sys = d.sys := rfl
@[simp] theorem Dev.modFw_cmd (d : Dev) (f) : (d.modFw f).cmd = d.cmd := rfl
@[simp] theorem Dev.modFw_evt (d : Dev) (f) : (d.modFw f).evt = d.evt := rfl
@[simp] theorem Dev.modFw_map (d : Dev) (f) : (d.modFw f).map = d.map := rfl
@[simp] theorem Dev.modFw_fe (d : Dev) (f) : (d.modFw f).fe = d.fe := rfl
@[simp] theorem Dev.modFw_wfc (d : Dev) (f) : (d.modFw f).wfc = d.wfc := rfl
@[simp] theorem Dev.modFw_mon (d : Dev) (f) : (d.modFw f).mon = d.mon := rfl
@[simp] theorem Dev.modFw_time (d : Dev) (f) : (d.modFw f).time = d.time := rfl
@[simp] theorem Dev.modFw_tdc (d : Dev) (f) : (d.modFw f).tdc = d.tdc := rfl
@[simp] theorem Dev.modFw_slalom (d : Dev) (f) : (d.modFw f).slalom = d.slalom := rfl
@[simp] theorem Dev.modFw_schuss (d : Dev) (f) : (d.modFw f).schuss = d.schuss := rfl
@[simp] theorem Dev.modFw_acq (d : Dev) (f) : (d.modFw f).acq = d.acq := rfl
@[simp] theorem Dev.modFw_cmp (d : Dev) (f) : (d.modFw f).cmp = d.cmp := rfl
@[simp] theorem Dev.modFw_mrg (d : Dev) (f) : (d.modFw f).mrg = d.mrg := rfl
@[simp] theorem Dev.modFw_link (d : Dev) (f) : (d.modFw f).link = d.link := rfl
@[simp] theorem Dev.modFw_lift (d : Dev) (f) : (d.modFw f).lift = d.lift := rfl
@[simp] theorem Dev.modFw_lanes (d : Dev) (f) : (d.modFw f).lanes = d.lanes := rfl
@[simp] theorem Dev.modFw_pair (d : Dev) (f) : (d.modFw f).pair = d.pair := rfl
@[simp] theorem Dev.modFw_store (d : Dev) (f) : (d.modFw f).store = d.store := rfl
@[simp] theorem Dev.modFw_integ (d : Dev) (f) : (d.modFw f).integ = d.integ := rfl
@[simp] theorem Dev.modFw_pwr (d : Dev) (f) : (d.modFw f).pwr = d.pwr := rfl
@[simp] theorem Dev.modFw_triad (d : Dev) (f) : (d.modFw f).triad = d.triad := rfl
@[simp] theorem Dev.modFw_cal (d : Dev) (f) : (d.modFw f).cal = d.cal := rfl
@[simp] theorem Dev.modFw_bist (d : Dev) (f) : (d.modFw f).bist = d.bist := rfl
@[simp] theorem Dev.modFw_hmon (d : Dev) (f) : (d.modFw f).hmon = d.hmon := rfl
@[simp] theorem Dev.modFw_fw (d : Dev) (f) : (d.modFw f).fw = f d.fw := rfl
@[simp] theorem Dev.modFw_free (d : Dev) (f) : (d.modFw f).free = d.free := rfl

/-! ### `Dev.modStore` -/

@[simp] theorem Dev.modStore_sys (d : Dev) (f) : (d.modStore f).sys = d.sys := rfl
@[simp] theorem Dev.modStore_cmd (d : Dev) (f) : (d.modStore f).cmd = d.cmd := rfl
@[simp] theorem Dev.modStore_evt (d : Dev) (f) : (d.modStore f).evt = d.evt := rfl
@[simp] theorem Dev.modStore_map (d : Dev) (f) : (d.modStore f).map = d.map := rfl
@[simp] theorem Dev.modStore_fe (d : Dev) (f) : (d.modStore f).fe = d.fe := rfl
@[simp] theorem Dev.modStore_wfc (d : Dev) (f) : (d.modStore f).wfc = d.wfc := rfl
@[simp] theorem Dev.modStore_mon (d : Dev) (f) : (d.modStore f).mon = d.mon := rfl
@[simp] theorem Dev.modStore_time (d : Dev) (f) : (d.modStore f).time = d.time := rfl
@[simp] theorem Dev.modStore_tdc (d : Dev) (f) : (d.modStore f).tdc = d.tdc := rfl
@[simp] theorem Dev.modStore_slalom (d : Dev) (f) : (d.modStore f).slalom = d.slalom := rfl
@[simp] theorem Dev.modStore_schuss (d : Dev) (f) : (d.modStore f).schuss = d.schuss := rfl
@[simp] theorem Dev.modStore_acq (d : Dev) (f) : (d.modStore f).acq = d.acq := rfl
@[simp] theorem Dev.modStore_cmp (d : Dev) (f) : (d.modStore f).cmp = d.cmp := rfl
@[simp] theorem Dev.modStore_mrg (d : Dev) (f) : (d.modStore f).mrg = d.mrg := rfl
@[simp] theorem Dev.modStore_link (d : Dev) (f) : (d.modStore f).link = d.link := rfl
@[simp] theorem Dev.modStore_lift (d : Dev) (f) : (d.modStore f).lift = d.lift := rfl
@[simp] theorem Dev.modStore_lanes (d : Dev) (f) : (d.modStore f).lanes = d.lanes := rfl
@[simp] theorem Dev.modStore_pair (d : Dev) (f) : (d.modStore f).pair = d.pair := rfl
@[simp] theorem Dev.modStore_store (d : Dev) (f) : (d.modStore f).store = f d.store := rfl
@[simp] theorem Dev.modStore_integ (d : Dev) (f) : (d.modStore f).integ = d.integ := rfl
@[simp] theorem Dev.modStore_pwr (d : Dev) (f) : (d.modStore f).pwr = d.pwr := rfl
@[simp] theorem Dev.modStore_triad (d : Dev) (f) : (d.modStore f).triad = d.triad := rfl
@[simp] theorem Dev.modStore_cal (d : Dev) (f) : (d.modStore f).cal = d.cal := rfl
@[simp] theorem Dev.modStore_bist (d : Dev) (f) : (d.modStore f).bist = d.bist := rfl
@[simp] theorem Dev.modStore_hmon (d : Dev) (f) : (d.modStore f).hmon = d.hmon := rfl
@[simp] theorem Dev.modStore_fw (d : Dev) (f) : (d.modStore f).fw = d.fw := rfl
@[simp] theorem Dev.modStore_free (d : Dev) (f) : (d.modStore f).free = d.free := rfl

/-! ### `Dev.modInteg` -/

@[simp] theorem Dev.modInteg_sys (d : Dev) (f) : (d.modInteg f).sys = d.sys := rfl
@[simp] theorem Dev.modInteg_cmd (d : Dev) (f) : (d.modInteg f).cmd = d.cmd := rfl
@[simp] theorem Dev.modInteg_evt (d : Dev) (f) : (d.modInteg f).evt = d.evt := rfl
@[simp] theorem Dev.modInteg_map (d : Dev) (f) : (d.modInteg f).map = d.map := rfl
@[simp] theorem Dev.modInteg_fe (d : Dev) (f) : (d.modInteg f).fe = d.fe := rfl
@[simp] theorem Dev.modInteg_wfc (d : Dev) (f) : (d.modInteg f).wfc = d.wfc := rfl
@[simp] theorem Dev.modInteg_mon (d : Dev) (f) : (d.modInteg f).mon = d.mon := rfl
@[simp] theorem Dev.modInteg_time (d : Dev) (f) : (d.modInteg f).time = d.time := rfl
@[simp] theorem Dev.modInteg_tdc (d : Dev) (f) : (d.modInteg f).tdc = d.tdc := rfl
@[simp] theorem Dev.modInteg_slalom (d : Dev) (f) : (d.modInteg f).slalom = d.slalom := rfl
@[simp] theorem Dev.modInteg_schuss (d : Dev) (f) : (d.modInteg f).schuss = d.schuss := rfl
@[simp] theorem Dev.modInteg_acq (d : Dev) (f) : (d.modInteg f).acq = d.acq := rfl
@[simp] theorem Dev.modInteg_cmp (d : Dev) (f) : (d.modInteg f).cmp = d.cmp := rfl
@[simp] theorem Dev.modInteg_mrg (d : Dev) (f) : (d.modInteg f).mrg = d.mrg := rfl
@[simp] theorem Dev.modInteg_link (d : Dev) (f) : (d.modInteg f).link = d.link := rfl
@[simp] theorem Dev.modInteg_lift (d : Dev) (f) : (d.modInteg f).lift = d.lift := rfl
@[simp] theorem Dev.modInteg_lanes (d : Dev) (f) : (d.modInteg f).lanes = d.lanes := rfl
@[simp] theorem Dev.modInteg_pair (d : Dev) (f) : (d.modInteg f).pair = d.pair := rfl
@[simp] theorem Dev.modInteg_store (d : Dev) (f) : (d.modInteg f).store = d.store := rfl
@[simp] theorem Dev.modInteg_integ (d : Dev) (f) : (d.modInteg f).integ = f d.integ := rfl
@[simp] theorem Dev.modInteg_pwr (d : Dev) (f) : (d.modInteg f).pwr = d.pwr := rfl
@[simp] theorem Dev.modInteg_triad (d : Dev) (f) : (d.modInteg f).triad = d.triad := rfl
@[simp] theorem Dev.modInteg_cal (d : Dev) (f) : (d.modInteg f).cal = d.cal := rfl
@[simp] theorem Dev.modInteg_bist (d : Dev) (f) : (d.modInteg f).bist = d.bist := rfl
@[simp] theorem Dev.modInteg_hmon (d : Dev) (f) : (d.modInteg f).hmon = d.hmon := rfl
@[simp] theorem Dev.modInteg_fw (d : Dev) (f) : (d.modInteg f).fw = d.fw := rfl
@[simp] theorem Dev.modInteg_free (d : Dev) (f) : (d.modInteg f).free = d.free := rfl

/-! ### `Dev.modMrg` -/

@[simp] theorem Dev.modMrg_sys (d : Dev) (f) : (d.modMrg f).sys = d.sys := rfl
@[simp] theorem Dev.modMrg_cmd (d : Dev) (f) : (d.modMrg f).cmd = d.cmd := rfl
@[simp] theorem Dev.modMrg_evt (d : Dev) (f) : (d.modMrg f).evt = d.evt := rfl
@[simp] theorem Dev.modMrg_map (d : Dev) (f) : (d.modMrg f).map = d.map := rfl
@[simp] theorem Dev.modMrg_fe (d : Dev) (f) : (d.modMrg f).fe = d.fe := rfl
@[simp] theorem Dev.modMrg_wfc (d : Dev) (f) : (d.modMrg f).wfc = d.wfc := rfl
@[simp] theorem Dev.modMrg_mon (d : Dev) (f) : (d.modMrg f).mon = d.mon := rfl
@[simp] theorem Dev.modMrg_time (d : Dev) (f) : (d.modMrg f).time = d.time := rfl
@[simp] theorem Dev.modMrg_tdc (d : Dev) (f) : (d.modMrg f).tdc = d.tdc := rfl
@[simp] theorem Dev.modMrg_slalom (d : Dev) (f) : (d.modMrg f).slalom = d.slalom := rfl
@[simp] theorem Dev.modMrg_schuss (d : Dev) (f) : (d.modMrg f).schuss = d.schuss := rfl
@[simp] theorem Dev.modMrg_acq (d : Dev) (f) : (d.modMrg f).acq = d.acq := rfl
@[simp] theorem Dev.modMrg_cmp (d : Dev) (f) : (d.modMrg f).cmp = d.cmp := rfl
@[simp] theorem Dev.modMrg_mrg (d : Dev) (f) : (d.modMrg f).mrg = f d.mrg := rfl
@[simp] theorem Dev.modMrg_link (d : Dev) (f) : (d.modMrg f).link = d.link := rfl
@[simp] theorem Dev.modMrg_lift (d : Dev) (f) : (d.modMrg f).lift = d.lift := rfl
@[simp] theorem Dev.modMrg_lanes (d : Dev) (f) : (d.modMrg f).lanes = d.lanes := rfl
@[simp] theorem Dev.modMrg_pair (d : Dev) (f) : (d.modMrg f).pair = d.pair := rfl
@[simp] theorem Dev.modMrg_store (d : Dev) (f) : (d.modMrg f).store = d.store := rfl
@[simp] theorem Dev.modMrg_integ (d : Dev) (f) : (d.modMrg f).integ = d.integ := rfl
@[simp] theorem Dev.modMrg_pwr (d : Dev) (f) : (d.modMrg f).pwr = d.pwr := rfl
@[simp] theorem Dev.modMrg_triad (d : Dev) (f) : (d.modMrg f).triad = d.triad := rfl
@[simp] theorem Dev.modMrg_cal (d : Dev) (f) : (d.modMrg f).cal = d.cal := rfl
@[simp] theorem Dev.modMrg_bist (d : Dev) (f) : (d.modMrg f).bist = d.bist := rfl
@[simp] theorem Dev.modMrg_hmon (d : Dev) (f) : (d.modMrg f).hmon = d.hmon := rfl
@[simp] theorem Dev.modMrg_fw (d : Dev) (f) : (d.modMrg f).fw = d.fw := rfl
@[simp] theorem Dev.modMrg_free (d : Dev) (f) : (d.modMrg f).free = d.free := rfl

/-! ### `Dev.modTriad` -/

@[simp] theorem Dev.modTriad_sys (d : Dev) (f) : (d.modTriad f).sys = d.sys := rfl
@[simp] theorem Dev.modTriad_cmd (d : Dev) (f) : (d.modTriad f).cmd = d.cmd := rfl
@[simp] theorem Dev.modTriad_evt (d : Dev) (f) : (d.modTriad f).evt = d.evt := rfl
@[simp] theorem Dev.modTriad_map (d : Dev) (f) : (d.modTriad f).map = d.map := rfl
@[simp] theorem Dev.modTriad_fe (d : Dev) (f) : (d.modTriad f).fe = d.fe := rfl
@[simp] theorem Dev.modTriad_wfc (d : Dev) (f) : (d.modTriad f).wfc = d.wfc := rfl
@[simp] theorem Dev.modTriad_mon (d : Dev) (f) : (d.modTriad f).mon = d.mon := rfl
@[simp] theorem Dev.modTriad_time (d : Dev) (f) : (d.modTriad f).time = d.time := rfl
@[simp] theorem Dev.modTriad_tdc (d : Dev) (f) : (d.modTriad f).tdc = d.tdc := rfl
@[simp] theorem Dev.modTriad_slalom (d : Dev) (f) : (d.modTriad f).slalom = d.slalom := rfl
@[simp] theorem Dev.modTriad_schuss (d : Dev) (f) : (d.modTriad f).schuss = d.schuss := rfl
@[simp] theorem Dev.modTriad_acq (d : Dev) (f) : (d.modTriad f).acq = d.acq := rfl
@[simp] theorem Dev.modTriad_cmp (d : Dev) (f) : (d.modTriad f).cmp = d.cmp := rfl
@[simp] theorem Dev.modTriad_mrg (d : Dev) (f) : (d.modTriad f).mrg = d.mrg := rfl
@[simp] theorem Dev.modTriad_link (d : Dev) (f) : (d.modTriad f).link = d.link := rfl
@[simp] theorem Dev.modTriad_lift (d : Dev) (f) : (d.modTriad f).lift = d.lift := rfl
@[simp] theorem Dev.modTriad_lanes (d : Dev) (f) : (d.modTriad f).lanes = d.lanes := rfl
@[simp] theorem Dev.modTriad_pair (d : Dev) (f) : (d.modTriad f).pair = d.pair := rfl
@[simp] theorem Dev.modTriad_store (d : Dev) (f) : (d.modTriad f).store = d.store := rfl
@[simp] theorem Dev.modTriad_integ (d : Dev) (f) : (d.modTriad f).integ = d.integ := rfl
@[simp] theorem Dev.modTriad_pwr (d : Dev) (f) : (d.modTriad f).pwr = d.pwr := rfl
@[simp] theorem Dev.modTriad_triad (d : Dev) (f) : (d.modTriad f).triad = f d.triad := rfl
@[simp] theorem Dev.modTriad_cal (d : Dev) (f) : (d.modTriad f).cal = d.cal := rfl
@[simp] theorem Dev.modTriad_bist (d : Dev) (f) : (d.modTriad f).bist = d.bist := rfl
@[simp] theorem Dev.modTriad_hmon (d : Dev) (f) : (d.modTriad f).hmon = d.hmon := rfl
@[simp] theorem Dev.modTriad_fw (d : Dev) (f) : (d.modTriad f).fw = d.fw := rfl
@[simp] theorem Dev.modTriad_free (d : Dev) (f) : (d.modTriad f).free = d.free := rfl

/-! ### `Dev.modMon` -/

@[simp] theorem Dev.modMon_sys (d : Dev) (f) : (d.modMon f).sys = d.sys := rfl
@[simp] theorem Dev.modMon_cmd (d : Dev) (f) : (d.modMon f).cmd = d.cmd := rfl
@[simp] theorem Dev.modMon_evt (d : Dev) (f) : (d.modMon f).evt = d.evt := rfl
@[simp] theorem Dev.modMon_map (d : Dev) (f) : (d.modMon f).map = d.map := rfl
@[simp] theorem Dev.modMon_fe (d : Dev) (f) : (d.modMon f).fe = d.fe := rfl
@[simp] theorem Dev.modMon_wfc (d : Dev) (f) : (d.modMon f).wfc = d.wfc := rfl
@[simp] theorem Dev.modMon_mon (d : Dev) (f) : (d.modMon f).mon = f d.mon := rfl
@[simp] theorem Dev.modMon_time (d : Dev) (f) : (d.modMon f).time = d.time := rfl
@[simp] theorem Dev.modMon_tdc (d : Dev) (f) : (d.modMon f).tdc = d.tdc := rfl
@[simp] theorem Dev.modMon_slalom (d : Dev) (f) : (d.modMon f).slalom = d.slalom := rfl
@[simp] theorem Dev.modMon_schuss (d : Dev) (f) : (d.modMon f).schuss = d.schuss := rfl
@[simp] theorem Dev.modMon_acq (d : Dev) (f) : (d.modMon f).acq = d.acq := rfl
@[simp] theorem Dev.modMon_cmp (d : Dev) (f) : (d.modMon f).cmp = d.cmp := rfl
@[simp] theorem Dev.modMon_mrg (d : Dev) (f) : (d.modMon f).mrg = d.mrg := rfl
@[simp] theorem Dev.modMon_link (d : Dev) (f) : (d.modMon f).link = d.link := rfl
@[simp] theorem Dev.modMon_lift (d : Dev) (f) : (d.modMon f).lift = d.lift := rfl
@[simp] theorem Dev.modMon_lanes (d : Dev) (f) : (d.modMon f).lanes = d.lanes := rfl
@[simp] theorem Dev.modMon_pair (d : Dev) (f) : (d.modMon f).pair = d.pair := rfl
@[simp] theorem Dev.modMon_store (d : Dev) (f) : (d.modMon f).store = d.store := rfl
@[simp] theorem Dev.modMon_integ (d : Dev) (f) : (d.modMon f).integ = d.integ := rfl
@[simp] theorem Dev.modMon_pwr (d : Dev) (f) : (d.modMon f).pwr = d.pwr := rfl
@[simp] theorem Dev.modMon_triad (d : Dev) (f) : (d.modMon f).triad = d.triad := rfl
@[simp] theorem Dev.modMon_cal (d : Dev) (f) : (d.modMon f).cal = d.cal := rfl
@[simp] theorem Dev.modMon_bist (d : Dev) (f) : (d.modMon f).bist = d.bist := rfl
@[simp] theorem Dev.modMon_hmon (d : Dev) (f) : (d.modMon f).hmon = d.hmon := rfl
@[simp] theorem Dev.modMon_fw (d : Dev) (f) : (d.modMon f).fw = d.fw := rfl
@[simp] theorem Dev.modMon_free (d : Dev) (f) : (d.modMon f).free = d.free := rfl

/-! ### `Dev.modCmp` -/

@[simp] theorem Dev.modCmp_sys (d : Dev) (f) : (d.modCmp f).sys = d.sys := rfl
@[simp] theorem Dev.modCmp_cmd (d : Dev) (f) : (d.modCmp f).cmd = d.cmd := rfl
@[simp] theorem Dev.modCmp_evt (d : Dev) (f) : (d.modCmp f).evt = d.evt := rfl
@[simp] theorem Dev.modCmp_map (d : Dev) (f) : (d.modCmp f).map = d.map := rfl
@[simp] theorem Dev.modCmp_fe (d : Dev) (f) : (d.modCmp f).fe = d.fe := rfl
@[simp] theorem Dev.modCmp_wfc (d : Dev) (f) : (d.modCmp f).wfc = d.wfc := rfl
@[simp] theorem Dev.modCmp_mon (d : Dev) (f) : (d.modCmp f).mon = d.mon := rfl
@[simp] theorem Dev.modCmp_time (d : Dev) (f) : (d.modCmp f).time = d.time := rfl
@[simp] theorem Dev.modCmp_tdc (d : Dev) (f) : (d.modCmp f).tdc = d.tdc := rfl
@[simp] theorem Dev.modCmp_slalom (d : Dev) (f) : (d.modCmp f).slalom = d.slalom := rfl
@[simp] theorem Dev.modCmp_schuss (d : Dev) (f) : (d.modCmp f).schuss = d.schuss := rfl
@[simp] theorem Dev.modCmp_acq (d : Dev) (f) : (d.modCmp f).acq = d.acq := rfl
@[simp] theorem Dev.modCmp_cmp (d : Dev) (f) : (d.modCmp f).cmp = f d.cmp := rfl
@[simp] theorem Dev.modCmp_mrg (d : Dev) (f) : (d.modCmp f).mrg = d.mrg := rfl
@[simp] theorem Dev.modCmp_link (d : Dev) (f) : (d.modCmp f).link = d.link := rfl
@[simp] theorem Dev.modCmp_lift (d : Dev) (f) : (d.modCmp f).lift = d.lift := rfl
@[simp] theorem Dev.modCmp_lanes (d : Dev) (f) : (d.modCmp f).lanes = d.lanes := rfl
@[simp] theorem Dev.modCmp_pair (d : Dev) (f) : (d.modCmp f).pair = d.pair := rfl
@[simp] theorem Dev.modCmp_store (d : Dev) (f) : (d.modCmp f).store = d.store := rfl
@[simp] theorem Dev.modCmp_integ (d : Dev) (f) : (d.modCmp f).integ = d.integ := rfl
@[simp] theorem Dev.modCmp_pwr (d : Dev) (f) : (d.modCmp f).pwr = d.pwr := rfl
@[simp] theorem Dev.modCmp_triad (d : Dev) (f) : (d.modCmp f).triad = d.triad := rfl
@[simp] theorem Dev.modCmp_cal (d : Dev) (f) : (d.modCmp f).cal = d.cal := rfl
@[simp] theorem Dev.modCmp_bist (d : Dev) (f) : (d.modCmp f).bist = d.bist := rfl
@[simp] theorem Dev.modCmp_hmon (d : Dev) (f) : (d.modCmp f).hmon = d.hmon := rfl
@[simp] theorem Dev.modCmp_fw (d : Dev) (f) : (d.modCmp f).fw = d.fw := rfl
@[simp] theorem Dev.modCmp_free (d : Dev) (f) : (d.modCmp f).free = d.free := rfl

/-! ### `Dev.modBist` -/

@[simp] theorem Dev.modBist_sys (d : Dev) (f) : (d.modBist f).sys = d.sys := rfl
@[simp] theorem Dev.modBist_cmd (d : Dev) (f) : (d.modBist f).cmd = d.cmd := rfl
@[simp] theorem Dev.modBist_evt (d : Dev) (f) : (d.modBist f).evt = d.evt := rfl
@[simp] theorem Dev.modBist_map (d : Dev) (f) : (d.modBist f).map = d.map := rfl
@[simp] theorem Dev.modBist_fe (d : Dev) (f) : (d.modBist f).fe = d.fe := rfl
@[simp] theorem Dev.modBist_wfc (d : Dev) (f) : (d.modBist f).wfc = d.wfc := rfl
@[simp] theorem Dev.modBist_mon (d : Dev) (f) : (d.modBist f).mon = d.mon := rfl
@[simp] theorem Dev.modBist_time (d : Dev) (f) : (d.modBist f).time = d.time := rfl
@[simp] theorem Dev.modBist_tdc (d : Dev) (f) : (d.modBist f).tdc = d.tdc := rfl
@[simp] theorem Dev.modBist_slalom (d : Dev) (f) : (d.modBist f).slalom = d.slalom := rfl
@[simp] theorem Dev.modBist_schuss (d : Dev) (f) : (d.modBist f).schuss = d.schuss := rfl
@[simp] theorem Dev.modBist_acq (d : Dev) (f) : (d.modBist f).acq = d.acq := rfl
@[simp] theorem Dev.modBist_cmp (d : Dev) (f) : (d.modBist f).cmp = d.cmp := rfl
@[simp] theorem Dev.modBist_mrg (d : Dev) (f) : (d.modBist f).mrg = d.mrg := rfl
@[simp] theorem Dev.modBist_link (d : Dev) (f) : (d.modBist f).link = d.link := rfl
@[simp] theorem Dev.modBist_lift (d : Dev) (f) : (d.modBist f).lift = d.lift := rfl
@[simp] theorem Dev.modBist_lanes (d : Dev) (f) : (d.modBist f).lanes = d.lanes := rfl
@[simp] theorem Dev.modBist_pair (d : Dev) (f) : (d.modBist f).pair = d.pair := rfl
@[simp] theorem Dev.modBist_store (d : Dev) (f) : (d.modBist f).store = d.store := rfl
@[simp] theorem Dev.modBist_integ (d : Dev) (f) : (d.modBist f).integ = d.integ := rfl
@[simp] theorem Dev.modBist_pwr (d : Dev) (f) : (d.modBist f).pwr = d.pwr := rfl
@[simp] theorem Dev.modBist_triad (d : Dev) (f) : (d.modBist f).triad = d.triad := rfl
@[simp] theorem Dev.modBist_cal (d : Dev) (f) : (d.modBist f).cal = d.cal := rfl
@[simp] theorem Dev.modBist_bist (d : Dev) (f) : (d.modBist f).bist = f d.bist := rfl
@[simp] theorem Dev.modBist_hmon (d : Dev) (f) : (d.modBist f).hmon = d.hmon := rfl
@[simp] theorem Dev.modBist_fw (d : Dev) (f) : (d.modBist f).fw = d.fw := rfl
@[simp] theorem Dev.modBist_free (d : Dev) (f) : (d.modBist f).free = d.free := rfl

/-! ### `Dev.modPairs` -/

@[simp] theorem Dev.modPairs_sys (d : Dev) (f) : (d.modPairs f).sys = d.sys := rfl
@[simp] theorem Dev.modPairs_cmd (d : Dev) (f) : (d.modPairs f).cmd = d.cmd := rfl
@[simp] theorem Dev.modPairs_evt (d : Dev) (f) : (d.modPairs f).evt = d.evt := rfl
@[simp] theorem Dev.modPairs_map (d : Dev) (f) : (d.modPairs f).map = d.map := rfl
@[simp] theorem Dev.modPairs_fe (d : Dev) (f) : (d.modPairs f).fe = d.fe := rfl
@[simp] theorem Dev.modPairs_wfc (d : Dev) (f) : (d.modPairs f).wfc = d.wfc := rfl
@[simp] theorem Dev.modPairs_mon (d : Dev) (f) : (d.modPairs f).mon = d.mon := rfl
@[simp] theorem Dev.modPairs_time (d : Dev) (f) : (d.modPairs f).time = d.time := rfl
@[simp] theorem Dev.modPairs_tdc (d : Dev) (f) : (d.modPairs f).tdc = d.tdc := rfl
@[simp] theorem Dev.modPairs_slalom (d : Dev) (f) : (d.modPairs f).slalom = d.slalom := rfl
@[simp] theorem Dev.modPairs_schuss (d : Dev) (f) : (d.modPairs f).schuss = d.schuss := rfl
@[simp] theorem Dev.modPairs_acq (d : Dev) (f) : (d.modPairs f).acq = d.acq := rfl
@[simp] theorem Dev.modPairs_cmp (d : Dev) (f) : (d.modPairs f).cmp = d.cmp := rfl
@[simp] theorem Dev.modPairs_mrg (d : Dev) (f) : (d.modPairs f).mrg = d.mrg := rfl
@[simp] theorem Dev.modPairs_link (d : Dev) (f) : (d.modPairs f).link = d.link := rfl
@[simp] theorem Dev.modPairs_lift (d : Dev) (f) : (d.modPairs f).lift = d.lift := rfl
@[simp] theorem Dev.modPairs_lanes (d : Dev) (f) : (d.modPairs f).lanes = d.lanes := rfl
@[simp] theorem Dev.modPairs_pair (d : Dev) (f) : (d.modPairs f).pair = f d.pair := rfl
@[simp] theorem Dev.modPairs_store (d : Dev) (f) : (d.modPairs f).store = d.store := rfl
@[simp] theorem Dev.modPairs_integ (d : Dev) (f) : (d.modPairs f).integ = d.integ := rfl
@[simp] theorem Dev.modPairs_pwr (d : Dev) (f) : (d.modPairs f).pwr = d.pwr := rfl
@[simp] theorem Dev.modPairs_triad (d : Dev) (f) : (d.modPairs f).triad = d.triad := rfl
@[simp] theorem Dev.modPairs_cal (d : Dev) (f) : (d.modPairs f).cal = d.cal := rfl
@[simp] theorem Dev.modPairs_bist (d : Dev) (f) : (d.modPairs f).bist = d.bist := rfl
@[simp] theorem Dev.modPairs_hmon (d : Dev) (f) : (d.modPairs f).hmon = d.hmon := rfl
@[simp] theorem Dev.modPairs_fw (d : Dev) (f) : (d.modPairs f).fw = d.fw := rfl
@[simp] theorem Dev.modPairs_free (d : Dev) (f) : (d.modPairs f).free = d.free := rfl

/-! ### `Dev.modTdc` -/

@[simp] theorem Dev.modTdc_sys (d : Dev) (p : Nat) (f) : (d.modTdc p f).sys = d.sys := rfl
@[simp] theorem Dev.modTdc_cmd (d : Dev) (p : Nat) (f) : (d.modTdc p f).cmd = d.cmd := rfl
@[simp] theorem Dev.modTdc_evt (d : Dev) (p : Nat) (f) : (d.modTdc p f).evt = d.evt := rfl
@[simp] theorem Dev.modTdc_map (d : Dev) (p : Nat) (f) : (d.modTdc p f).map = d.map := rfl
@[simp] theorem Dev.modTdc_fe (d : Dev) (p : Nat) (f) : (d.modTdc p f).fe = d.fe := rfl
@[simp] theorem Dev.modTdc_wfc (d : Dev) (p : Nat) (f) : (d.modTdc p f).wfc = d.wfc := rfl
@[simp] theorem Dev.modTdc_mon (d : Dev) (p : Nat) (f) : (d.modTdc p f).mon = d.mon := rfl
@[simp] theorem Dev.modTdc_time (d : Dev) (p : Nat) (f) : (d.modTdc p f).time = d.time := rfl
@[simp] theorem Dev.modTdc_tdc (d : Dev) (p : Nat) (f) : (d.modTdc p f).tdc = modAt d.tdc p f := rfl
@[simp] theorem Dev.modTdc_slalom (d : Dev) (p : Nat) (f) : (d.modTdc p f).slalom = d.slalom := rfl
@[simp] theorem Dev.modTdc_schuss (d : Dev) (p : Nat) (f) : (d.modTdc p f).schuss = d.schuss := rfl
@[simp] theorem Dev.modTdc_acq (d : Dev) (p : Nat) (f) : (d.modTdc p f).acq = d.acq := rfl
@[simp] theorem Dev.modTdc_cmp (d : Dev) (p : Nat) (f) : (d.modTdc p f).cmp = d.cmp := rfl
@[simp] theorem Dev.modTdc_mrg (d : Dev) (p : Nat) (f) : (d.modTdc p f).mrg = d.mrg := rfl
@[simp] theorem Dev.modTdc_link (d : Dev) (p : Nat) (f) : (d.modTdc p f).link = d.link := rfl
@[simp] theorem Dev.modTdc_lift (d : Dev) (p : Nat) (f) : (d.modTdc p f).lift = d.lift := rfl
@[simp] theorem Dev.modTdc_lanes (d : Dev) (p : Nat) (f) : (d.modTdc p f).lanes = d.lanes := rfl
@[simp] theorem Dev.modTdc_pair (d : Dev) (p : Nat) (f) : (d.modTdc p f).pair = d.pair := rfl
@[simp] theorem Dev.modTdc_store (d : Dev) (p : Nat) (f) : (d.modTdc p f).store = d.store := rfl
@[simp] theorem Dev.modTdc_integ (d : Dev) (p : Nat) (f) : (d.modTdc p f).integ = d.integ := rfl
@[simp] theorem Dev.modTdc_pwr (d : Dev) (p : Nat) (f) : (d.modTdc p f).pwr = d.pwr := rfl
@[simp] theorem Dev.modTdc_triad (d : Dev) (p : Nat) (f) : (d.modTdc p f).triad = d.triad := rfl
@[simp] theorem Dev.modTdc_cal (d : Dev) (p : Nat) (f) : (d.modTdc p f).cal = d.cal := rfl
@[simp] theorem Dev.modTdc_bist (d : Dev) (p : Nat) (f) : (d.modTdc p f).bist = d.bist := rfl
@[simp] theorem Dev.modTdc_hmon (d : Dev) (p : Nat) (f) : (d.modTdc p f).hmon = d.hmon := rfl
@[simp] theorem Dev.modTdc_fw (d : Dev) (p : Nat) (f) : (d.modTdc p f).fw = d.fw := rfl
@[simp] theorem Dev.modTdc_free (d : Dev) (p : Nat) (f) : (d.modTdc p f).free = d.free := rfl

/-! ### `Dev.modWfc` -/

@[simp] theorem Dev.modWfc_sys (d : Dev) (p : Nat) (f) : (d.modWfc p f).sys = d.sys := rfl
@[simp] theorem Dev.modWfc_cmd (d : Dev) (p : Nat) (f) : (d.modWfc p f).cmd = d.cmd := rfl
@[simp] theorem Dev.modWfc_evt (d : Dev) (p : Nat) (f) : (d.modWfc p f).evt = d.evt := rfl
@[simp] theorem Dev.modWfc_map (d : Dev) (p : Nat) (f) : (d.modWfc p f).map = d.map := rfl
@[simp] theorem Dev.modWfc_fe (d : Dev) (p : Nat) (f) : (d.modWfc p f).fe = d.fe := rfl
@[simp] theorem Dev.modWfc_wfc (d : Dev) (p : Nat) (f) : (d.modWfc p f).wfc = modAt d.wfc p f := rfl
@[simp] theorem Dev.modWfc_mon (d : Dev) (p : Nat) (f) : (d.modWfc p f).mon = d.mon := rfl
@[simp] theorem Dev.modWfc_time (d : Dev) (p : Nat) (f) : (d.modWfc p f).time = d.time := rfl
@[simp] theorem Dev.modWfc_tdc (d : Dev) (p : Nat) (f) : (d.modWfc p f).tdc = d.tdc := rfl
@[simp] theorem Dev.modWfc_slalom (d : Dev) (p : Nat) (f) : (d.modWfc p f).slalom = d.slalom := rfl
@[simp] theorem Dev.modWfc_schuss (d : Dev) (p : Nat) (f) : (d.modWfc p f).schuss = d.schuss := rfl
@[simp] theorem Dev.modWfc_acq (d : Dev) (p : Nat) (f) : (d.modWfc p f).acq = d.acq := rfl
@[simp] theorem Dev.modWfc_cmp (d : Dev) (p : Nat) (f) : (d.modWfc p f).cmp = d.cmp := rfl
@[simp] theorem Dev.modWfc_mrg (d : Dev) (p : Nat) (f) : (d.modWfc p f).mrg = d.mrg := rfl
@[simp] theorem Dev.modWfc_link (d : Dev) (p : Nat) (f) : (d.modWfc p f).link = d.link := rfl
@[simp] theorem Dev.modWfc_lift (d : Dev) (p : Nat) (f) : (d.modWfc p f).lift = d.lift := rfl
@[simp] theorem Dev.modWfc_lanes (d : Dev) (p : Nat) (f) : (d.modWfc p f).lanes = d.lanes := rfl
@[simp] theorem Dev.modWfc_pair (d : Dev) (p : Nat) (f) : (d.modWfc p f).pair = d.pair := rfl
@[simp] theorem Dev.modWfc_store (d : Dev) (p : Nat) (f) : (d.modWfc p f).store = d.store := rfl
@[simp] theorem Dev.modWfc_integ (d : Dev) (p : Nat) (f) : (d.modWfc p f).integ = d.integ := rfl
@[simp] theorem Dev.modWfc_pwr (d : Dev) (p : Nat) (f) : (d.modWfc p f).pwr = d.pwr := rfl
@[simp] theorem Dev.modWfc_triad (d : Dev) (p : Nat) (f) : (d.modWfc p f).triad = d.triad := rfl
@[simp] theorem Dev.modWfc_cal (d : Dev) (p : Nat) (f) : (d.modWfc p f).cal = d.cal := rfl
@[simp] theorem Dev.modWfc_bist (d : Dev) (p : Nat) (f) : (d.modWfc p f).bist = d.bist := rfl
@[simp] theorem Dev.modWfc_hmon (d : Dev) (p : Nat) (f) : (d.modWfc p f).hmon = d.hmon := rfl
@[simp] theorem Dev.modWfc_fw (d : Dev) (p : Nat) (f) : (d.modWfc p f).fw = d.fw := rfl
@[simp] theorem Dev.modWfc_free (d : Dev) (p : Nat) (f) : (d.modWfc p f).free = d.free := rfl

/-! ### `Dev.modPort` -/

@[simp] theorem Dev.modPort_sys (d : Dev) (p : Nat) (f) : (d.modPort p f).sys = d.sys := rfl
@[simp] theorem Dev.modPort_cmd (d : Dev) (p : Nat) (f) : (d.modPort p f).cmd = d.cmd := rfl
@[simp] theorem Dev.modPort_evt (d : Dev) (p : Nat) (f) : (d.modPort p f).evt = d.evt := rfl
@[simp] theorem Dev.modPort_map (d : Dev) (p : Nat) (f) : (d.modPort p f).map = d.map := rfl
@[simp] theorem Dev.modPort_fe (d : Dev) (p : Nat) (f) : (d.modPort p f).fe = d.fe := rfl
@[simp] theorem Dev.modPort_wfc (d : Dev) (p : Nat) (f) : (d.modPort p f).wfc = d.wfc := rfl
@[simp] theorem Dev.modPort_mon (d : Dev) (p : Nat) (f) : (d.modPort p f).mon = d.mon := rfl
@[simp] theorem Dev.modPort_time (d : Dev) (p : Nat) (f) : (d.modPort p f).time = d.time := rfl
@[simp] theorem Dev.modPort_tdc (d : Dev) (p : Nat) (f) : (d.modPort p f).tdc = d.tdc := rfl
@[simp] theorem Dev.modPort_slalom (d : Dev) (p : Nat) (f) : (d.modPort p f).slalom = d.slalom := rfl
@[simp] theorem Dev.modPort_schuss (d : Dev) (p : Nat) (f) : (d.modPort p f).schuss = d.schuss := rfl
@[simp] theorem Dev.modPort_acq (d : Dev) (p : Nat) (f) : (d.modPort p f).acq = d.acq := rfl
@[simp] theorem Dev.modPort_cmp (d : Dev) (p : Nat) (f) : (d.modPort p f).cmp = d.cmp := rfl
@[simp] theorem Dev.modPort_mrg (d : Dev) (p : Nat) (f) : (d.modPort p f).mrg = d.mrg := rfl
@[simp] theorem Dev.modPort_link (d : Dev) (p : Nat) (f) : (d.modPort p f).link = d.link := rfl
@[simp] theorem Dev.modPort_lift (d : Dev) (p : Nat) (f) : (d.modPort p f).lift = modAt d.lift p f := rfl
@[simp] theorem Dev.modPort_lanes (d : Dev) (p : Nat) (f) : (d.modPort p f).lanes = d.lanes := rfl
@[simp] theorem Dev.modPort_pair (d : Dev) (p : Nat) (f) : (d.modPort p f).pair = d.pair := rfl
@[simp] theorem Dev.modPort_store (d : Dev) (p : Nat) (f) : (d.modPort p f).store = d.store := rfl
@[simp] theorem Dev.modPort_integ (d : Dev) (p : Nat) (f) : (d.modPort p f).integ = d.integ := rfl
@[simp] theorem Dev.modPort_pwr (d : Dev) (p : Nat) (f) : (d.modPort p f).pwr = d.pwr := rfl
@[simp] theorem Dev.modPort_triad (d : Dev) (p : Nat) (f) : (d.modPort p f).triad = d.triad := rfl
@[simp] theorem Dev.modPort_cal (d : Dev) (p : Nat) (f) : (d.modPort p f).cal = d.cal := rfl
@[simp] theorem Dev.modPort_bist (d : Dev) (p : Nat) (f) : (d.modPort p f).bist = d.bist := rfl
@[simp] theorem Dev.modPort_hmon (d : Dev) (p : Nat) (f) : (d.modPort p f).hmon = d.hmon := rfl
@[simp] theorem Dev.modPort_fw (d : Dev) (p : Nat) (f) : (d.modPort p f).fw = d.fw := rfl
@[simp] theorem Dev.modPort_free (d : Dev) (p : Nat) (f) : (d.modPort p f).free = d.free := rfl

/-! ### `Dev.modLane` -/

@[simp] theorem Dev.modLane_sys (d : Dev) (p : Nat) (f) : (d.modLane p f).sys = d.sys := rfl
@[simp] theorem Dev.modLane_cmd (d : Dev) (p : Nat) (f) : (d.modLane p f).cmd = d.cmd := rfl
@[simp] theorem Dev.modLane_evt (d : Dev) (p : Nat) (f) : (d.modLane p f).evt = d.evt := rfl
@[simp] theorem Dev.modLane_map (d : Dev) (p : Nat) (f) : (d.modLane p f).map = d.map := rfl
@[simp] theorem Dev.modLane_fe (d : Dev) (p : Nat) (f) : (d.modLane p f).fe = d.fe := rfl
@[simp] theorem Dev.modLane_wfc (d : Dev) (p : Nat) (f) : (d.modLane p f).wfc = d.wfc := rfl
@[simp] theorem Dev.modLane_mon (d : Dev) (p : Nat) (f) : (d.modLane p f).mon = d.mon := rfl
@[simp] theorem Dev.modLane_time (d : Dev) (p : Nat) (f) : (d.modLane p f).time = d.time := rfl
@[simp] theorem Dev.modLane_tdc (d : Dev) (p : Nat) (f) : (d.modLane p f).tdc = d.tdc := rfl
@[simp] theorem Dev.modLane_slalom (d : Dev) (p : Nat) (f) : (d.modLane p f).slalom = d.slalom := rfl
@[simp] theorem Dev.modLane_schuss (d : Dev) (p : Nat) (f) : (d.modLane p f).schuss = d.schuss := rfl
@[simp] theorem Dev.modLane_acq (d : Dev) (p : Nat) (f) : (d.modLane p f).acq = d.acq := rfl
@[simp] theorem Dev.modLane_cmp (d : Dev) (p : Nat) (f) : (d.modLane p f).cmp = d.cmp := rfl
@[simp] theorem Dev.modLane_mrg (d : Dev) (p : Nat) (f) : (d.modLane p f).mrg = d.mrg := rfl
@[simp] theorem Dev.modLane_link (d : Dev) (p : Nat) (f) : (d.modLane p f).link = d.link := rfl
@[simp] theorem Dev.modLane_lift (d : Dev) (p : Nat) (f) : (d.modLane p f).lift = d.lift := rfl
@[simp] theorem Dev.modLane_lanes (d : Dev) (p : Nat) (f) : (d.modLane p f).lanes = modAt d.lanes p f := rfl
@[simp] theorem Dev.modLane_pair (d : Dev) (p : Nat) (f) : (d.modLane p f).pair = d.pair := rfl
@[simp] theorem Dev.modLane_store (d : Dev) (p : Nat) (f) : (d.modLane p f).store = d.store := rfl
@[simp] theorem Dev.modLane_integ (d : Dev) (p : Nat) (f) : (d.modLane p f).integ = d.integ := rfl
@[simp] theorem Dev.modLane_pwr (d : Dev) (p : Nat) (f) : (d.modLane p f).pwr = d.pwr := rfl
@[simp] theorem Dev.modLane_triad (d : Dev) (p : Nat) (f) : (d.modLane p f).triad = d.triad := rfl
@[simp] theorem Dev.modLane_cal (d : Dev) (p : Nat) (f) : (d.modLane p f).cal = d.cal := rfl
@[simp] theorem Dev.modLane_bist (d : Dev) (p : Nat) (f) : (d.modLane p f).bist = d.bist := rfl
@[simp] theorem Dev.modLane_hmon (d : Dev) (p : Nat) (f) : (d.modLane p f).hmon = d.hmon := rfl
@[simp] theorem Dev.modLane_fw (d : Dev) (p : Nat) (f) : (d.modLane p f).fw = d.fw := rfl
@[simp] theorem Dev.modLane_free (d : Dev) (p : Nat) (f) : (d.modLane p f).free = d.free := rfl

/-! ### `Dev.modLink` -/

@[simp] theorem Dev.modLink_sys (d : Dev) (p : Nat) (f) : (d.modLink p f).sys = d.sys := rfl
@[simp] theorem Dev.modLink_cmd (d : Dev) (p : Nat) (f) : (d.modLink p f).cmd = d.cmd := rfl
@[simp] theorem Dev.modLink_evt (d : Dev) (p : Nat) (f) : (d.modLink p f).evt = d.evt := rfl
@[simp] theorem Dev.modLink_map (d : Dev) (p : Nat) (f) : (d.modLink p f).map = d.map := rfl
@[simp] theorem Dev.modLink_fe (d : Dev) (p : Nat) (f) : (d.modLink p f).fe = d.fe := rfl
@[simp] theorem Dev.modLink_wfc (d : Dev) (p : Nat) (f) : (d.modLink p f).wfc = d.wfc := rfl
@[simp] theorem Dev.modLink_mon (d : Dev) (p : Nat) (f) : (d.modLink p f).mon = d.mon := rfl
@[simp] theorem Dev.modLink_time (d : Dev) (p : Nat) (f) : (d.modLink p f).time = d.time := rfl
@[simp] theorem Dev.modLink_tdc (d : Dev) (p : Nat) (f) : (d.modLink p f).tdc = d.tdc := rfl
@[simp] theorem Dev.modLink_slalom (d : Dev) (p : Nat) (f) : (d.modLink p f).slalom = d.slalom := rfl
@[simp] theorem Dev.modLink_schuss (d : Dev) (p : Nat) (f) : (d.modLink p f).schuss = d.schuss := rfl
@[simp] theorem Dev.modLink_acq (d : Dev) (p : Nat) (f) : (d.modLink p f).acq = d.acq := rfl
@[simp] theorem Dev.modLink_cmp (d : Dev) (p : Nat) (f) : (d.modLink p f).cmp = d.cmp := rfl
@[simp] theorem Dev.modLink_mrg (d : Dev) (p : Nat) (f) : (d.modLink p f).mrg = d.mrg := rfl
@[simp] theorem Dev.modLink_link (d : Dev) (p : Nat) (f) : (d.modLink p f).link = modAt d.link p f := rfl
@[simp] theorem Dev.modLink_lift (d : Dev) (p : Nat) (f) : (d.modLink p f).lift = d.lift := rfl
@[simp] theorem Dev.modLink_lanes (d : Dev) (p : Nat) (f) : (d.modLink p f).lanes = d.lanes := rfl
@[simp] theorem Dev.modLink_pair (d : Dev) (p : Nat) (f) : (d.modLink p f).pair = d.pair := rfl
@[simp] theorem Dev.modLink_store (d : Dev) (p : Nat) (f) : (d.modLink p f).store = d.store := rfl
@[simp] theorem Dev.modLink_integ (d : Dev) (p : Nat) (f) : (d.modLink p f).integ = d.integ := rfl
@[simp] theorem Dev.modLink_pwr (d : Dev) (p : Nat) (f) : (d.modLink p f).pwr = d.pwr := rfl
@[simp] theorem Dev.modLink_triad (d : Dev) (p : Nat) (f) : (d.modLink p f).triad = d.triad := rfl
@[simp] theorem Dev.modLink_cal (d : Dev) (p : Nat) (f) : (d.modLink p f).cal = d.cal := rfl
@[simp] theorem Dev.modLink_bist (d : Dev) (p : Nat) (f) : (d.modLink p f).bist = d.bist := rfl
@[simp] theorem Dev.modLink_hmon (d : Dev) (p : Nat) (f) : (d.modLink p f).hmon = d.hmon := rfl
@[simp] theorem Dev.modLink_fw (d : Dev) (p : Nat) (f) : (d.modLink p f).fw = d.fw := rfl
@[simp] theorem Dev.modLink_free (d : Dev) (p : Nat) (f) : (d.modLink p f).free = d.free := rfl

/-! ### `Dev.modSchuss` -/

@[simp] theorem Dev.modSchuss_sys (d : Dev) (p : Nat) (f) : (d.modSchuss p f).sys = d.sys := rfl
@[simp] theorem Dev.modSchuss_cmd (d : Dev) (p : Nat) (f) : (d.modSchuss p f).cmd = d.cmd := rfl
@[simp] theorem Dev.modSchuss_evt (d : Dev) (p : Nat) (f) : (d.modSchuss p f).evt = d.evt := rfl
@[simp] theorem Dev.modSchuss_map (d : Dev) (p : Nat) (f) : (d.modSchuss p f).map = d.map := rfl
@[simp] theorem Dev.modSchuss_fe (d : Dev) (p : Nat) (f) : (d.modSchuss p f).fe = d.fe := rfl
@[simp] theorem Dev.modSchuss_wfc (d : Dev) (p : Nat) (f) : (d.modSchuss p f).wfc = d.wfc := rfl
@[simp] theorem Dev.modSchuss_mon (d : Dev) (p : Nat) (f) : (d.modSchuss p f).mon = d.mon := rfl
@[simp] theorem Dev.modSchuss_time (d : Dev) (p : Nat) (f) : (d.modSchuss p f).time = d.time := rfl
@[simp] theorem Dev.modSchuss_tdc (d : Dev) (p : Nat) (f) : (d.modSchuss p f).tdc = d.tdc := rfl
@[simp] theorem Dev.modSchuss_slalom (d : Dev) (p : Nat) (f) : (d.modSchuss p f).slalom = d.slalom := rfl
@[simp] theorem Dev.modSchuss_schuss (d : Dev) (p : Nat) (f) : (d.modSchuss p f).schuss = modAt d.schuss p f := rfl
@[simp] theorem Dev.modSchuss_acq (d : Dev) (p : Nat) (f) : (d.modSchuss p f).acq = d.acq := rfl
@[simp] theorem Dev.modSchuss_cmp (d : Dev) (p : Nat) (f) : (d.modSchuss p f).cmp = d.cmp := rfl
@[simp] theorem Dev.modSchuss_mrg (d : Dev) (p : Nat) (f) : (d.modSchuss p f).mrg = d.mrg := rfl
@[simp] theorem Dev.modSchuss_link (d : Dev) (p : Nat) (f) : (d.modSchuss p f).link = d.link := rfl
@[simp] theorem Dev.modSchuss_lift (d : Dev) (p : Nat) (f) : (d.modSchuss p f).lift = d.lift := rfl
@[simp] theorem Dev.modSchuss_lanes (d : Dev) (p : Nat) (f) : (d.modSchuss p f).lanes = d.lanes := rfl
@[simp] theorem Dev.modSchuss_pair (d : Dev) (p : Nat) (f) : (d.modSchuss p f).pair = d.pair := rfl
@[simp] theorem Dev.modSchuss_store (d : Dev) (p : Nat) (f) : (d.modSchuss p f).store = d.store := rfl
@[simp] theorem Dev.modSchuss_integ (d : Dev) (p : Nat) (f) : (d.modSchuss p f).integ = d.integ := rfl
@[simp] theorem Dev.modSchuss_pwr (d : Dev) (p : Nat) (f) : (d.modSchuss p f).pwr = d.pwr := rfl
@[simp] theorem Dev.modSchuss_triad (d : Dev) (p : Nat) (f) : (d.modSchuss p f).triad = d.triad := rfl
@[simp] theorem Dev.modSchuss_cal (d : Dev) (p : Nat) (f) : (d.modSchuss p f).cal = d.cal := rfl
@[simp] theorem Dev.modSchuss_bist (d : Dev) (p : Nat) (f) : (d.modSchuss p f).bist = d.bist := rfl
@[simp] theorem Dev.modSchuss_hmon (d : Dev) (p : Nat) (f) : (d.modSchuss p f).hmon = d.hmon := rfl
@[simp] theorem Dev.modSchuss_fw (d : Dev) (p : Nat) (f) : (d.modSchuss p f).fw = d.fw := rfl
@[simp] theorem Dev.modSchuss_free (d : Dev) (p : Nat) (f) : (d.modSchuss p f).free = d.free := rfl

end Sys2Proof.Machine
end

