-- ==== Sys2Proof/Laws/Keeps.lean ====
section
/-! SUPPORT. What leaves the flash and the queue of commands as they were: everything but a flash operation that completes,
a record written at start-up, and a reset. -/

namespace Sys2Proof.Machine

/-- The flash and the queue are those of the state before. -/
def State.Keeps (s t : State) : Prop := t.flash = s.flash ∧ t.pending = s.pending

theorem State.Keeps.refl (s : State) : s.Keeps s := ⟨rfl, rfl⟩

theorem State.Keeps.trans {a b c : State} (h : a.Keeps b) (k : b.Keeps c) : a.Keeps c :=
  ⟨k.1.trans h.1, k.2.trans h.2⟩

theorem State.onDev_keeps (s : State) (f : Dev → Dev) : s.Keeps (s.onDev f) := ⟨rfl, rfl⟩

/-- A fold of changes that keep both keeps both. -/
theorem State.Keeps.foldl {α : Type} (f : State → α → State) (hf : ∀ (s : State) (a : α), s.Keeps (f s a)) (l : List α)
    (s : State) : s.Keeps (l.foldl f s) := by
  induction l generalizing s with
  | nil => exact .refl s
  | cons a l ih => exact (hf s a).trans (ih _)

theorem State.kickN_keeps (n : Nat) (s : State) : s.Keeps (s.kickN n) := by
  induction n generalizing s with
  | zero => exact .refl s
  | succ n ih =>
    unfold State.kickN
    dsimp only
    repeat' split
    all_goals first
      | exact .refl s
      | exact s.onDev_keeps _
      | exact (s.onDev_keeps _).trans (ih _)

theorem State.kick_keeps (s : State) : s.Keeps s.kick := s.kickN_keeps _

theorem State.ownWrite_keeps (s : State) (w : OwnWrite) : s.Keeps (s.ownWrite w) := (s.onDev_keeps _).trans (State.kick_keeps _)

theorem State.hostJob_keeps (s : State) (j : FlashJob) : s.Keeps (s.hostJob j) := (s.onDev_keeps _).trans (State.kick_keeps _)

theorem State.saveCorrection_keeps (s : State) : s.Keeps s.saveCorrection := (s.onDev_keeps _).trans (State.ownWrite_keeps ..)

theorem State.enterQuiesce_keeps (s : State) (cause : Nat) : s.Keeps (s.enterQuiesce cause) :=
  (s.onDev_keeps _).trans (State.saveCorrection_keeps _)

theorem State.enter_keeps (s : State) (st : DevState) : s.Keeps (s.enter st) := by
  unfold State.enter
  split
  · exact s.onDev_keeps _
  · exact s.onDev_keeps _
  · exact s.enterQuiesce_keeps _
  · exact s.onDev_keeps _
  · exact .refl s

theorem State.drainList_keeps (s : State) : s.Keeps s.drainList :=
  (s.onDev_keeps _).trans (.foldl _ (fun t _ => t.ownWrite_keeps _) _ _)

theorem State.flagRow_keeps (s : State) (cls mac row : Nat) (f : FaultEntry → FaultEntry) : s.Keeps (s.flagRow cls mac row f) :=
  .foldl _ (fun t _ => t.ownWrite_keeps _) _ _

theorem State.repairRow_keeps (s : State) (cls mac row : Nat) : s.Keeps (s.repairRow cls mac row).1 := by
  unfold State.repairRow
  generalize s.dev.softRepair cls mac row = x
  exact (s.onDev_keeps fun _ => x.1).trans (State.flagRow_keeps ..)

theorem State.bootRepairs_keeps (s : State) : s.Keeps s.bootRepairs := by
  unfold State.bootRepairs
  refine .foldl _ (fun t e => ?_) _ s
  generalize rowOf e.line = x
  dsimp only
  split
  · exact .refl t
  · exact t.repairRow_keeps ..

theorem State.listCells_keeps (s : State) (cls slice : Nat) (cells : List CellReads) (u : Bool) :
    s.Keeps (s.listCells cls slice cells u) := by
  unfold State.listCells
  dsimp only
  split
  · exact ((s.onDev_keeps _).trans (State.drainList_keeps _)).trans (.foldl _ (fun t _ => t.flagRow_keeps ..) _ _)
  · exact (s.onDev_keeps _).trans (State.drainList_keeps _)

theorem State.repairRows_keeps (s : State) (cls : Nat) (rows : List (Nat × Nat)) : s.Keeps (s.repairRows cls rows).1 := by
  have h : ∀ (l : List (Nat × Nat)) (x : State × List (Nat × Nat)), s.Keeps x.1 → s.Keeps (l.foldl (fun x r =>
      if (x.1.repairRow cls r.1 r.2).2 then ((x.1.repairRow cls r.1 r.2).1, x.2)
      else ((x.1.repairRow cls r.1 r.2).1, r :: x.2)) x).1 := by
    intro l
    induction l with
    | nil => exact fun x hx => hx
    | cons r l ih =>
      intro x hx
      refine ih _ ?_
      dsimp only
      split <;> exact hx.trans (x.1.repairRow_keeps ..)
  exact h rows (s, []) (.refl s)

theorem State.mendSlice_keeps (s : State) (cls slice : Nat) (cells again : List CellReads) :
    s.Keeps (s.mendSlice cls slice cells again) := by
  unfold State.mendSlice
  dsimp only
  split
  · exact s.listCells_keeps ..
  · have h (t : State) (ht : s.Keeps t) (b : List CellReads) :
        s.Keeps (if b.isEmpty then t else t.listCells cls slice b true) := by
      split
      · exact ht
      · exact ht.trans (State.listCells_keeps ..)
    exact h _ (s.repairRows_keeps ..) _

theorem State.testSlice_keeps (s : State) (cls slice : Nat) (upsets : List Upset) (first again : List CellReads) :
    s.Keeps (s.testSlice cls slice upsets first again) := by
  unfold State.testSlice
  dsimp only
  split
  · exact s.onDev_keeps _
  · exact (s.onDev_keeps _).trans ((State.onDev_keeps _ _).trans (State.mendSlice_keeps ..))

/-! ### Host commands -/

/-- An effect that leaves the flash and the queue alone. -/
def Effect.Keeps (eff : Effect) : Prop := ∀ (c : Ctx) (s : State), s.Keeps (eff c s).1

theorem onDev_keeps (f : List Host.Cell → Ctx → Dev → Dev × CmdResult) : Effect.Keeps (Sys2Proof.Machine.onDev f) :=
  fun c s => s.onDev_keeps fun d => (f s.flash c d).1

theorem reads_keeps (f : Dev → List Byte) : Effect.Keeps (reads f) := onDev_keeps _

theorem readsFree_keeps (f : Dev → List Byte) : Effect.Keeps (readsFree f) := onDev_keeps _

theorem lengthEff_keeps : Effect.Keeps lengthEff := fun _ s => .refl s

theorem runNow_keeps (k : CmdKind) (h : CmdHeader) (late : Option Nat) (eff : Effect) (he : Effect.Keeps eff) (s : State) :
    s.Keeps (runNow k h late eff s) := by
  unfold runNow
  dsimp only
  split
  · have := (s.onDev_keeps _).trans (he ⟨h, k.opcode, late, s.dev.now⟩ (s.onDev (·.holdEvents)))
    revert this
    generalize eff ⟨h, k.opcode, late, s.dev.now⟩ (s.onDev (·.holdEvents)) = x
    obtain ⟨t, r⟩ := x
    intro this
    cases r <;> exact this.trans (t.onDev_keeps _)
  · exact s.onDev_keeps _

theorem acceptCmd_keeps (i : Instr) (b : Bool) (k : CmdKind) (h : CmdHeader) (eff : Effect) (he : Effect.Keeps eff) (s : State) :
    s.Keeps (acceptCmd i b k h eff s) := by
  have hr : Effect.Keeps (if b then lengthEff else eff) := by
    split
    · exact lengthEff_keeps
    · exact he
  unfold acceptCmd
  extract_lets d run
  have hr : Effect.Keeps run := hr
  clear_value run
  split
  · exact .refl s
  split
  · exact s.onDev_keeps _
  split
  · exact (s.onDev_keeps _).trans (runNow_keeps _ _ _ _ hr _)
  split
  · exact s.onDev_keeps _
  split
  · exact s.onDev_keeps _
  split
  · split
    · exact (s.onDev_keeps _).trans (runNow_keeps _ _ _ _ hr _)
    · exact s.onDev_keeps _
  split
  · exact s.onDev_keeps _
  · exact s.onDev_keeps _

theorem hostRun_keeps (i : Instr) (k : CmdKind) (h : CmdHeader) (eff : Effect) (he : Effect.Keeps eff) (s : State) :
    s.Keeps (hostRun i k h eff s) := acceptCmd_keeps i false k h eff he s

/-! ### Effects that act on the flash or the whole state -/

/-- An answer at once, and nothing else. -/
theorem done_keeps (s : State) (r : CmdResult) : s.Keeps (s, r).1 := .refl s

/-- A choice between two effects that keep both keeps both. -/
theorem State.Keeps.ite {s : State} {p : Prop} [Decidable p] {x y : State × CmdResult} (hx : s.Keeps x.1) (hy : s.Keeps y.1) :
    s.Keeps (if p then x else y).1 := by
  split
  · exact hx
  · exact hy

theorem sysGoEff_keeps (target : Nat) : Effect.Keeps (sysGoEff target) := by
  intro c s
  unfold sysGoEff
  split
  · exact .refl s
  · refine .ite (.refl s) (.ite (.refl s) (.ite (.refl s) ?_))
    dsimp only
    exact .ite (s.enter_keeps _) ((s.enter_keeps _).trans (State.onDev_keeps _ _))

theorem mapEraseSlotEff_keeps (slot : Nat) : Effect.Keeps (mapEraseSlotEff slot) := fun _ s =>
  .ite (.refl s) (.ite (.refl s) (.ite (.refl s) (s.hostJob_keeps _)))

theorem mapWriteEff_keeps (slot offset : Nat) (data : List Byte) : Effect.Keeps (mapWriteEff slot offset data) := fun _ s =>
  .ite (.refl s) (.ite (.refl s) (.ite (.refl s) (.ite (.refl s) (s.hostJob_keeps _))))

theorem checkedEff_keeps (slot : Nat) (ok : Ctx → PisteMap → State → State × CmdResult)
    (h : ∀ (c : Ctx) (m : PisteMap) (s : State), s.Keeps (ok c m s).1) : Effect.Keeps (checkedEff slot ok) := by
  intro c s
  unfold checkedEff
  refine .ite (.refl s) (.ite (.refl s) ?_)
  split
  · exact .refl s
  · exact h c _ s

theorem mapVerifyEff_keeps (slot : Nat) : Effect.Keeps (mapVerifyEff slot) := checkedEff_keeps slot _ fun _ _ s => .refl s

theorem mapLoadEff_keeps (slot : Nat) : Effect.Keeps (mapLoadEff slot) := by
  intro c s
  unfold mapLoadEff
  refine .ite (.refl s) ?_
  have h := checkedEff_keeps slot (fun _ m s =>
    (s.onDev fun d => (d.writeBanks bankHalf bankHalf).modMap fun x => { x with shadow := some m },
      .done .ok (verifiedData s.flash m))) (fun c m s => s.onDev_keeps _) c s
  revert h
  generalize checkedEff slot _ c s = x
  intro h
  obtain ⟨t, r⟩ := x
  dsimp only at h ⊢
  split
  · exact h
  · exact .refl s
  · exact .ite (.refl s) (s.onDev_keeps _)

theorem mapSetBootEff_keeps (slot : Nat) : Effect.Keeps (mapSetBootEff slot) :=
  checkedEff_keeps slot _ fun _ _ s => s.ownWrite_keeps _

theorem mapKeyAddEff_keeps (key : List Byte) : Effect.Keeps (mapKeyAddEff key) := fun _ s =>
  .ite (.refl s) (.ite (.refl s) (.ite (.refl s) (s.ownWrite_keeps _)))

theorem mapKeyRemoveEff_keeps (keyId : Nat) : Effect.Keeps (mapKeyRemoveEff keyId) := fun _ s =>
  .ite (.refl s) (.ite (.refl s) (s.ownWrite_keeps _))

theorem mapKeyLockEff_keeps : Effect.Keeps mapKeyLockEff := fun _ s => .ite (.refl s) (s.ownWrite_keeps _)

theorem mapKeyUnlockEff_keeps : Effect.Keeps mapKeyUnlockEff := fun _ s => s.hostJob_keeps _

theorem fwEraseEff_keeps (image slot : Nat) : Effect.Keeps (fwEraseEff image slot) := fun _ s =>
  .ite (.refl s) (.ite (.refl s) (.ite (.refl s) ((s.onDev_keeps _).trans (State.hostJob_keeps ..))))

theorem fwWriteEff_keeps (image slot offset : Nat) (data : List Byte) : Effect.Keeps (fwWriteEff image slot offset data) :=
  fun _ s => .ite (.refl s) (.ite (.refl s) (.ite (.refl s) (.ite (.refl s) ((s.onDev_keeps _).trans (State.hostJob_keeps ..)))))

theorem fwVerifyEff_keeps (image slot : Nat) : Effect.Keeps (fwVerifyEff image slot) := by
  intro c s
  unfold fwVerifyEff
  refine .ite (.refl s) (.ite (.refl s) ?_)
  split
  · exact .refl s
  · exact s.onDev_keeps _

theorem fwActivateEff_keeps (ctrl lane : Nat) : Effect.Keeps (fwActivateEff ctrl lane) := fun _ s =>
  .ite (.refl s) (.ite (.refl s) (.ite (.refl s) (.ite (.refl s) (.ite (.refl s) (s.ownWrite_keeps _)))))

theorem fwConfirmEff_keeps : Effect.Keeps fwConfirmEff := fun _ s =>
  .ite ((s.onDev_keeps _).trans (State.ownWrite_keeps ..)) (.refl s)

theorem flashReadEff_keeps (offset length : Nat) : Effect.Keeps (flashReadEff offset length) := fun _ s =>
  .ite (.refl s) (.refl s)

theorem flashEraseEff_keeps (sector : Nat) : Effect.Keeps (flashEraseEff sector) := fun _ s =>
  .ite (.refl s) (.ite (.refl s) (s.hostJob_keeps _))

theorem flashWriteEff_keeps (offset : Nat) (data : List Byte) : Effect.Keeps (flashWriteEff offset data) := fun _ s =>
  .ite (.refl s) (.ite (.refl s) (.ite (.refl s) (s.hostJob_keeps _)))

theorem bistFuseEff_keeps : Effect.Keeps bistFuseEff := by
  intro c s
  unfold bistFuseEff
  exact .ite (.refl s) ((s.onDev_keeps _).trans (.foldl _ (fun t r => t.flagRow_keeps ..) _ _))

theorem fwStatus_keeps : Effect.Keeps fun _ s => (s, .done .ok (fwStatusData s)) := fun _ s => .refl s

/-- No host command changes the flash or the queue. -/
theorem hostEff_keeps (i : Instr) (h : CmdHeader) (k : CmdKind) (eff : Effect) (e : hostEff i = some (h, k, eff)) :
    Effect.Keeps eff := by
  cases i <;> simp only [hostEff, Option.some.injEq, Prod.mk.injEq, reduceCtorEq] at e
  all_goals obtain ⟨-, -, rfl⟩ := e
  all_goals with_reducible first
    | apply sysGoEff_keeps
    | apply mapEraseSlotEff_keeps
    | apply mapWriteEff_keeps
    | apply mapVerifyEff_keeps
    | apply mapLoadEff_keeps
    | apply mapSetBootEff_keeps
    | apply mapKeyAddEff_keeps
    | apply mapKeyRemoveEff_keeps
    | apply mapKeyLockEff_keeps
    | apply mapKeyUnlockEff_keeps
    | apply fwEraseEff_keeps
    | apply fwWriteEff_keeps
    | apply fwVerifyEff_keeps
    | apply fwActivateEff_keeps
    | apply fwConfirmEff_keeps
    | apply flashReadEff_keeps
    | apply flashEraseEff_keeps
    | apply flashWriteEff_keeps
    | apply bistFuseEff_keeps
    | apply fwStatus_keeps
    | apply reads_keeps
    | apply readsFree_keeps
    | apply onDev_keeps
    | skip
  all_goals exact onDev_keeps _

/-- A host command's meaning is what a packet with it would start. -/
theorem exec_of_hostEff (i : Instr) (h : CmdHeader) (k : CmdKind) (eff : Effect) (e : hostEff i = some (h, k, eff)) (s : State) :
    exec i s = .next (hostRun i k h eff s) := by
  cases i <;> simp only [hostEff, Option.some.injEq, Prod.mk.injEq, reduceCtorEq] at e
  all_goals
    obtain ⟨rfl, rfl, rfl⟩ := e
    rfl

/-! ### Packets -/

theorem State.takePacket_keeps (s : State) (port : Nat) (bs : List Byte) (poisoned : Bool) :
    s.Keeps (s.takePacket port bs poisoned) := by
  unfold State.takePacket
  extract_lets h op s'
  split
  · exact .refl s
  have hs : s.Keeps s' := s.onDev_keeps _
  clear_value s'
  refine hs.trans ?_
  split
  · exact s'.onDev_keeps _
  split
  · exact s'.onDev_keeps _
  · split
    · exact acceptCmd_keeps _ _ _ _ _ (hostEff_keeps _ _ _ _ ‹_›) _
    · exact .refl s'
  · split
    · exact acceptCmd_keeps _ _ _ _ _ (hostEff_keeps _ _ _ _ ‹_›) _
    · exact .refl s'

theorem State.takePackets_keeps (n : Nat) (s : State) : s.Keeps (s.takePackets n) := by
  induction n generalizing s with
  | zero => exact .refl s
  | succ n ih =>
    unfold State.takePackets
    split
    · exact .refl s
    · exact ((s.onDev_keeps _).trans (State.takePacket_keeps ..)).trans (ih _)

theorem State.serve_keeps (s : State) : s.Keeps s.serve := s.takePackets_keeps _

theorem State.fallDue_keeps (s : State) (e : Timed) : s.Keeps (s.fallDue e) := by
  unfold State.fallDue
  extract_lets s'
  have h : s.Keeps s' := s.onDev_keeps _
  clear_value s'
  split
  · exact h
  · rename_i eff heff
    refine h.trans ?_
    extract_lets run
    have hr : Effect.Keeps run := by
      have hk := hostEff_keeps _ _ _ _ heff
      change Effect.Keeps (if e.badLength then lengthEff else eff)
      split
      · exact lengthEff_keeps
      · exact hk
    clear_value run
    split
    · exact runNow_keeps _ _ _ _ hr _
    split
    · exact runNow_keeps _ _ _ _ hr _
    · exact s'.onDev_keeps _

theorem State.runDue_keeps (n : Nat) (s : State) : s.Keeps (s.runDue n) := by
  induction n generalizing s with
  | zero => exact .refl s
  | succ n ih =>
    unfold State.runDue
    split
    · exact (s.fallDue_keeps _).trans (ih _)
    · exact .refl s

end Sys2Proof.Machine
end

