-- ==== Sys2Proof/Laws/Answers.lean ====
section
/-! SUPPORT. How a statement about the answer of a host command follows from what its own effect does. -/

namespace Sys2Proof.Machine

/-- A command that is carried out is legal where it runs. -/
theorem taken_legal (k : CmdKind) (h : CmdHeader) (s : State)
    (legal : List DevState) (hl : (legal.all fun st => k.legal.contains st) = true)
    (hc : s.dev.carries h legal = true) : (s.onDev (·.takeFlight h k.opcode)).dev.legal k = true := by
  unfold Dev.carries at hc
  simp only [Bool.and_eq_true, Bool.not_eq_true'] at hc
  obtain ⟨⟨_, d⟩, f⟩ := hc
  have g : (s.onDev (·.takeFlight h k.opcode)).dev.sys = s.dev.sys := rfl
  have g' : (s.onDev (·.takeFlight h k.opcode)).dev.triad = s.dev.triad := rfl
  unfold Dev.legal
  rw [g, g', List.all_eq_true.1 hl _ (by simpa using d), f]
  rfl

/-- A command that is carried out runs its effect on the state in which it is in flight; then its reply is formed, or follows
later. -/
theorem exec_carries {i : Instr} {h : CmdHeader} {k : CmdKind} {eff : Effect} (e : hostEff i = some (h, k, eff)) {s : State}
    {legal : List DevState} (hl : (legal.all fun st => k.legal.contains st) = true) (hc : s.dev.carries h legal = true)
    {t : State} {r : CmdResult} (he : eff ⟨h, k.opcode, none, s.dev.now⟩ (s.taken h k.opcode) = (t, r)) :
    exec i s = .next (match r with
      | .done st data => t.replied h k.opcode s.dev.now st data
      | .wait => t.released) := by
  have lg := taken_legal k h s legal hl hc
  unfold Dev.carries at hc
  simp only [Bool.and_eq_true, Bool.not_eq_true'] at hc
  obtain ⟨⟨⟨⟨a, b⟩, c⟩, _⟩, _⟩ := hc
  rw [exec_of_hostEff i h k eff e]
  have hn : (s.onDev (·.takeFlight h k.opcode)).dev.now = s.dev.now := rfl
  have he' : eff ⟨h, k.opcode, none, s.dev.now⟩ ((s.onDev (·.takeFlight h k.opcode)).onDev (·.holdEvents)) = (t, r) := he
  have run : hostRun i k h eff s = runNow k h none eff (s.onDev (·.takeFlight h k.opcode)) := by
    simp [hostRun, acceptCmd, a, b, c]
  rw [run, runNow, if_pos lg]
  rw [hn, he']
  cases r <;> rfl

/-- A command whose effect answers at once. -/
theorem Answers.of {i : Instr} {h : CmdHeader} {k : CmdKind} {eff : Effect} (e : hostEff i = some (h, k, eff))
    {legal : List DevState} (hl : (legal.all fun st => k.legal.contains st) = true)
    {pre : State → Prop} {st : Status} {data : State → List Byte} {f : State → State}
    (he : ∀ s : State, pre s → eff ⟨h, k.opcode, none, s.dev.now⟩ (s.taken h k.opcode)
      = (f (s.taken h k.opcode), .done st (data (s.taken h k.opcode)))) :
    Answers i h k.opcode legal pre st data f := by
  intro s hc hp
  exact exec_carries e hl hc (he s hp)

/-- A command whose effect answers OK with data. -/
theorem AnswersData.of {i : Instr} {h : CmdHeader} {k : CmdKind} {eff : Effect} (e : hostEff i = some (h, k, eff))
    {legal : List DevState} (hl : (legal.all fun st => k.legal.contains st) = true)
    {pre : State → Prop} {post : State → List Byte → Prop} {f : State → State}
    (he : ∀ s : State, pre s → ∃ data, post (s.taken h k.opcode) data ∧
      eff ⟨h, k.opcode, none, s.dev.now⟩ (s.taken h k.opcode) = (f (s.taken h k.opcode), .done .ok data)) :
    AnswersData i h k.opcode legal pre post f := by
  intro s hc hp
  obtain ⟨data, hd, this⟩ := he s hp
  exact ⟨data, hd, exec_carries e hl hc this⟩

/-- A command whose effect answers at once, and of which something is told. -/
theorem AnswersWith.of {i : Instr} {h : CmdHeader} {k : CmdKind} {eff : Effect} (e : hostEff i = some (h, k, eff))
    {legal : List DevState} (hl : (legal.all fun st => k.legal.contains st) = true)
    {pre : State → Prop} {st : Status} {post : State → State → Prop}
    (he : ∀ s : State, pre s → ∃ t, post (s.taken h k.opcode) t ∧
      eff ⟨h, k.opcode, none, s.dev.now⟩ (s.taken h k.opcode) = (t, .done st [])) :
    AnswersWith i h k.opcode legal pre st post := by
  intro s hc hp
  obtain ⟨t, ht, this⟩ := he s hp
  exact ⟨t, ht, exec_carries e hl hc this⟩

/-- A command whose reply follows its completion. -/
theorem AnswersLater.of {i : Instr} {h : CmdHeader} {k : CmdKind} {eff : Effect} (e : hostEff i = some (h, k, eff))
    {legal : List DevState} (hl : (legal.all fun st => k.legal.contains st) = true)
    {pre : State → Prop} {f : State → State}
    (he : ∀ s : State, pre s → eff ⟨h, k.opcode, none, s.dev.now⟩ (s.taken h k.opcode) = (f (s.taken h k.opcode), .wait)) :
    AnswersLater i h k.opcode legal pre f := by
  intro s hc hp
  exact exec_carries e hl hc (he s hp)

end Sys2Proof.Machine
end

