-- ==== Sys2Proof/Laws/Flash.lean ====
section
/-! SUPPORT. The bytes of the flash: setting and erasing them keeps the canonical form, and what is read back is what was
set. -/

namespace Sys2Proof.Machine

theorem flashWf_cons (c : Host.Cell) (r : List Host.Cell) :
    flashWf (c :: r) = true ↔ c.2 ≠ flashBlank ∧ (∀ x ∈ r.head?, c.1 < x.1) ∧ flashWf r = true := by
  cases r with
  | nil => simp [flashWf]
  | cons x r => simp [flashWf, and_assoc]

/-- In a canonical list every later cell lies at a higher offset. -/
theorem flashWf_lt (c : Host.Cell) (r : List Host.Cell) (h : flashWf (c :: r) = true) : ∀ x ∈ r, c.1 < x.1 := by
  induction r generalizing c with
  | nil => simp
  | cons y r ih =>
    rw [flashWf_cons] at h
    obtain ⟨-, h1, h2⟩ := h
    have h1 := h1 y (by simp)
    intro x hx
    rcases List.mem_cons.1 hx with rfl | hx
    · exact h1
    · exact Nat.lt_trans h1 (ih y h2 x hx)

theorem flashWf_of (c : Host.Cell) (r : List Host.Cell) (h1 : c.2 ≠ flashBlank) (h2 : ∀ x ∈ r, c.1 < x.1)
    (h3 : flashWf r = true) : flashWf (c :: r) = true := by
  rw [flashWf_cons]
  exact ⟨h1, fun x hx => h2 x (List.mem_of_mem_head? hx), h3⟩

/-- Setting a byte brings in no offset below a bound that lies below it. -/
theorem flashPut_lt (f : List Host.Cell) (a : Nat) (b : Byte) (n : Nat) (hn : n < a) (h : ∀ x ∈ f, n < x.1) :
    ∀ x ∈ flashPut f a b, n < x.1 := by
  induction f with
  | nil => unfold flashPut; split <;> simp; exact hn
  | cons c r ih =>
    have hc := h c (by simp)
    have hr : ∀ x ∈ r, n < x.1 := fun x hx => h x (by simp [hx])
    have cons : ∀ (y : Host.Cell) (l : List Host.Cell), n < y.1 → (∀ x ∈ l, n < x.1) → ∀ x ∈ y :: l, n < x.1 := by
      intro y l hy hl x hx
      rcases List.mem_cons.1 hx with rfl | hx
      · exact hy
      · exact hl x hx
    unfold flashPut
    split
    · exact cons _ _ hc (ih hr)
    · split
      · split
        · exact hr
        · exact cons _ _ hn hr
      · split
        · exact h
        · exact cons _ _ hn h

theorem flashPut_wf (f : List Host.Cell) (a : Nat) (b : Byte) (h : flashWf f = true) : flashWf (flashPut f a b) = true := by
  induction f with
  | nil => unfold flashPut; split <;> simp_all [flashWf]
  | cons c r ih =>
    have hl := flashWf_lt c r h
    have ⟨hb, _, hr⟩ := (flashWf_cons c r).1 h
    unfold flashPut
    split
    · exact flashWf_of _ _ hb (flashPut_lt r a b c.1 ‹_› hl) (ih hr)
    · split
      · split
        · exact hr
        · rename_i h1 _
          exact flashWf_of _ _ ‹_› (fun x hx => h1 ▸ hl x hx) hr
      · split
        · exact h
        · refine flashWf_of _ _ ‹_› (fun x hx => ?_) h
          have : a < c.1 := by omega
          rcases List.mem_cons.1 hx with rfl | hx
          · exact this
          · exact Nat.lt_trans this (hl x hx)

theorem flashWrite_wf (f : List Host.Cell) (a : Nat) (bs : List Byte) (h : flashWf f = true) :
    flashWf (flashWrite f a bs) = true := by
  induction bs generalizing f a with
  | nil => exact h
  | cons b bs ih => exact ih _ _ (flashPut_wf f a b h)

theorem flashFilter_wf (f : List Host.Cell) (p : Host.Cell → Bool) (h : flashWf f = true) : flashWf (f.filter p) = true := by
  induction f with
  | nil => exact h
  | cons c r ih =>
    have hl := flashWf_lt c r h
    have ⟨hb, _, hr⟩ := (flashWf_cons c r).1 h
    simp only [List.filter_cons]
    split
    · exact flashWf_of _ _ hb (fun x hx => hl x (List.mem_filter.1 hx).1) (ih hr)
    · exact ih hr

theorem flashErase_wf (f : List Host.Cell) (s : Nat) (h : flashWf f = true) : flashWf (flashErase f s) = true :=
  flashFilter_wf f _ h

/-- A fold of changes that each keep the form keeps it. -/
theorem flashFold_wf {α : Type} (g : List Host.Cell → α → List Host.Cell)
    (hg : ∀ f a, flashWf f = true → flashWf (g f a) = true) (l : List α) (f : List Host.Cell) (h : flashWf f = true) :
    flashWf (l.foldl g f) = true := by
  induction l generalizing f with
  | nil => exact h
  | cons a l ih => exact ih _ (hg f a h)

theorem FlashStep.apply_wf (x : FlashStep) (f : List Host.Cell) (h : flashWf f = true) : flashWf (x.apply f) = true := by
  cases x with
  | erase s => exact flashErase_wf f s h
  | program a bs => exact flashWrite_wf f a bs h

theorem FlashStep.tear_wf (x : FlashStep) (use : Nat) (f : List Host.Cell) (h : flashWf f = true) :
    flashWf (x.tear use f) = true := by
  cases x with
  | erase s => exact flashFold_wf _ (fun f k hf => flashPut_wf f _ _ hf) _ f h
  | program a bs => exact flashFold_wf _ (fun f k hf => flashPut_wf f _ _ hf) _ f h

theorem spoil_wf (x : FlashStep) (wrong : List FlashFault) (f : List Host.Cell) (h : flashWf f = true) :
    flashWf (spoil x wrong f) = true := by
  unfold spoil
  generalize x.target = t
  obtain ⟨a, n⟩ := t
  refine flashFold_wf _ (fun f w hf => ?_) _ f h
  split
  · exact flashPut_wf f _ _ hf
  · exact hf

/-! ### Reading what was set -/

/-- Below every listed offset the flash is blank. -/
theorem flashByte_below (f : List Host.Cell) (a : Nat) (h : ∀ x ∈ f, a < x.1) : flashByte f a = flashBlank := by
  have : (f.find? fun c => c.1 == a) = none := by
    rw [List.find?_eq_none]
    intro x hx
    have := h x hx
    simp
    omega
  simp [flashByte, this]

theorem flashByte_cons (c : Host.Cell) (r : List Host.Cell) (a : Nat) :
    flashByte (c :: r) a = if c.1 = a then c.2 else flashByte r a := by
  unfold flashByte
  rw [List.find?_cons]
  split <;> simp_all

/-- Setting a byte: it reads as set, every other byte as before. -/
theorem flashByte_flashPut (f : List Host.Cell) (a : Nat) (b : Byte) (x : Nat) (h : flashWf f = true) :
    flashByte (flashPut f a b) x = if x = a then b else flashByte f x := by
  induction f with
  | nil =>
    unfold flashPut
    split
    · simp_all [flashByte]
    · simp only [flashByte_cons]
      by_cases e : a = x
      · simp [e]
      · simp [e, Ne.symm e]
  | cons c r ih =>
    have hl := flashWf_lt c r h
    have ⟨hb, _, hr⟩ := (flashWf_cons c r).1 h
    unfold flashPut
    split
    · simp only [flashByte_cons, ih hr]
      by_cases e : c.1 = x
      · have : x ≠ a := by omega
        simp [e, this]
      · simp [e]
    · split
      · rename_i h1
        split
        · rename_i h2
          simp only [flashByte_cons]
          by_cases e : x = a
          · subst e
            rw [flashByte_below r _ (fun y hy => h1 ▸ hl y hy)]
            simp [h2]
          · have : c.1 ≠ x := by omega
            simp [e, this]
        · simp only [flashByte_cons]
          by_cases e : x = a
          · simp [e]
          · have e' : a ≠ x := fun k => e k.symm
            have : c.1 ≠ x := by omega
            simp [e, e', this]
      · split
        · by_cases e : x = a
          · subst e
            rw [flashByte_below (c :: r) x, if_pos rfl, ‹b = flashBlank›]
            intro y hy
            have : x < c.1 := by omega
            rcases List.mem_cons.1 hy with rfl | hy
            · exact this
            · exact Nat.lt_trans this (hl y hy)
          · simp [e]
        · rw [flashByte_cons]
          by_cases e : x = a
          · simp [e]
          · have e' : a ≠ x := fun k => e k.symm
            simp [e, e']

/-- Erasing a sector: its bytes read blank, every other byte as before. -/
theorem flashByte_flashErase (f : List Host.Cell) (s x : Nat) (h : flashWf f = true) :
    flashByte (flashErase f s) x = if x / sectorBytes = s then flashBlank else flashByte f x := by
  unfold flashErase
  induction f with
  | nil => simp [flashByte]
  | cons c r ih =>
    have hl := flashWf_lt c r h
    have ⟨_, _, hr⟩ := (flashWf_cons c r).1 h
    have ih := ih hr
    simp only [List.filter_cons]
    split
    · rename_i k
      simp only [flashByte_cons, ih]
      by_cases e : c.1 = x
      · subst e
        simp at k
        simp [k]
      · simp [e]
    · rename_i k
      simp at k
      rw [ih, flashByte_cons]
      by_cases e : c.1 = x
      · subst e
        simp [k]
      · simp [e]

/-- A flash with nothing listed reads blank. -/
theorem flashRun_nil (a n : Nat) : flashRun [] a n = List.replicate n flashBlank := by
  induction n generalizing a with
  | zero => rfl
  | succ n ih => simp [flashRun, ih, List.replicate_succ]

/-- Above its last listed byte the flash reads blank. -/
theorem flashBytes_above {f : List Host.Cell} {a : Nat} (h : ∀ c ∈ f, c.1 < a) (n : Nat) :
    flashBytes f a n = List.replicate n flashBlank := by
  have : ∀ l : List Host.Cell, (∀ c ∈ l, c.1 < a) → l.dropWhile (fun c => decide (c.1 < a)) = [] := by
    intro l
    induction l with
    | nil => intro _; rfl
    | cons c r ih =>
      intro hl
      rw [List.dropWhile_cons, if_pos (by simpa using hl c (by simp))]
      exact ih fun x hx => hl x (by simp [hx])
  simp only [flashBytes, this f h, flashRun_nil]

/-- A flash that holds one boot record, at the start of the first boot sector, and nothing else has that record in force. -/
theorem bootRecord_first {f : List Host.Cell} (h : ∀ c ∈ f, c.1 < 64) (v : recordValid bootMagic (recordAt f 0 0) = true) :
    bootRecord f = some (bootRecordOf (recordAt f 0 0)) := by
  have bad : ∀ s p, s ≠ 0 ∨ p ≠ 0 → recordValid bootMagic (recordAt f s p) = false := by
    intro s p hp
    rw [recordAt, flashBytes_above]
    · decide
    · intro c hc
      have := h c hc
      have : sectorBytes = 65536 := rfl
      rcases Nat.eq_zero_or_pos s with rfl | hs
      · omega
      · have := Nat.mul_le_mul_right sectorBytes hs; omega
  have skip : ∀ (g : Option (Nat × Nat × List Byte) → Nat → Option (Nat × Nat × List Byte)) (l : List Nat)
      (best : Option (Nat × Nat × List Byte)), (∀ b, ∀ p ∈ l, g b p = b) → l.foldl g best = best := by
    intro g l
    induction l with
    | nil => intro best _; rfl
    | cons p l ih =>
      intro best hl
      rw [List.foldl_cons, hl best p (by simp)]
      exact ih best fun b q hq => hl b q (by simp [hq])
  have r : List.range 1024 = 0 :: (List.range 1023).map Nat.succ := List.range_succ_eq_map
  unfold bootRecord recordInForce
  simp only [List.foldl_cons, List.foldl_nil]
  rw [skip _ (List.range 1024) _ fun b p _ => by simp [bad 1 p (by simp)], r, List.foldl_cons, skip]
  · simp [v]
  · intro b p hp
    obtain ⟨q, -, rfl⟩ := List.mem_map.1 hp
    simp [bad 0 (q + 1) (by simp)]

end Sys2Proof.Machine
end

