-- ==== Sys2Proof/Laws/Frame.lean ====
section
/-! SUPPORT. What raising an event, sending a record and answering a command can change: the event state, the merge queues with
the chain buffers and turns they take, the passes waiting on a link, and, for an answer, the command counts; every other part of
the state stays as it was. -/

namespace Sys2Proof.Machine

/-- A state with the event state, the merge queues, the link ports, the turns, the code words of the memories with the faults
injected into them and the counter of free values left out of account. -/
def Dev.rest (d : Dev) : Dev :=
  { d with
    evt := EvtState.initial, mrg := MrgState.initial, link := fill 8 LinkPort.initial, turns := Turns.initial
    integ := { d.integ with mem := [], injected := [] }, free := 0 }

/-- Nothing but the event state, the merge queues, the link ports, the turns, the code words of the memories and the counter of
free values differs. -/
def Dev.QueuesOnly (d d' : Dev) : Prop := d'.rest = d.rest

theorem Dev.QueuesOnly.refl (d : Dev) : d.QueuesOnly d := rfl

theorem Dev.QueuesOnly.trans {a b c : Dev} (h : a.QueuesOnly b) (k : b.QueuesOnly c) : a.QueuesOnly c := Eq.trans k h

theorem Dev.QueuesOnly.ofMrg (d : Dev) (m : MrgState) : Dev.QueuesOnly d { d with mrg := m } := rfl

theorem Dev.QueuesOnly.ofEvt (d : Dev) (e : EvtState) : Dev.QueuesOnly d { d with evt := e } := rfl

/-- A fold of changes of the queues changes nothing else. -/
theorem Dev.QueuesOnly.foldl {α : Type} (f : Dev → α → Dev) (hf : ∀ (d : Dev) (a : α), d.QueuesOnly (f d a)) (l : List α) (d : Dev) :
    d.QueuesOnly (l.foldl f d) := by
  induction l generalizing d with
  | nil => exact .refl d
  | cons a l ih => exact (hf d a).trans (ih (f d a))

theorem Dev.countBufs_only (d : Dev) (p : Pool) (f : Nat → Nat) : d.QueuesOnly (d.countBufs p f) := by
  unfold Dev.countBufs
  split <;> rfl

theorem Dev.freeBufs_only (d : Dev) (q : QRec) : d.QueuesOnly (d.freeBufs q) := (d.countBufs_only _ _).trans (.ofMrg _ _)

theorem Dev.takeTurn_only (d : Dev) (cls client mac : Nat) : d.QueuesOnly (d.takeTurn cls client mac) := by
  unfold Dev.takeTurn
  split <;> rfl

theorem Dev.freshBytes_only (d : Dev) (cls first n : Nat) : d.QueuesOnly (d.freshBytes cls first n) := rfl

theorem Dev.takeBuffers_only (client n : Nat) (d : Dev) : d.QueuesOnly (d.takeBuffers client n).1 := by
  induction n generalizing d with
  | zero => exact .refl d
  | succ n ih =>
    have h := d.takeTurn_only 1 client (macroAt (4096 * d.nextBuf))
    exact (h.trans (show Dev.QueuesOnly _ _ from rfl)).trans (ih _)

theorem Dev.newRec_only (d : Dev) (client : Nat) (bytes : List Byte) (key : Nat) (pool : Pool) :
    d.QueuesOnly (d.newRec client bytes key pool).1 :=
  ((d.countBufs_only pool _).trans (Dev.takeBuffers_only ..)).trans (.ofMrg _ _)

theorem Dev.noteWriter_only (d : Dev) (typ : Nat) : d.QueuesOnly (d.noteWriter typ) := by
  unfold Dev.noteWriter
  split <;> rfl

theorem Dev.modGrant_only (d : Dev) (a p v : Nat) (f : Grant → Grant) : d.QueuesOnly (d.modGrant a p v f) := .ofMrg d _

theorem Dev.sendReturn_only (d : Dev) (a p v : Nat) : d.QueuesOnly (d.sendReturn a p v) := by
  unfold Dev.sendReturn
  split
  · rfl
  · split <;> rfl

theorem Dev.returnPasses_only (d : Dev) (a p v n : Nat) : d.QueuesOnly (d.returnPasses a p v n) := by
  unfold Dev.returnPasses
  extract_lets d'
  have h : d.QueuesOnly d' := rfl
  split
  · exact h.trans (Dev.sendReturn_only ..)
  · exact h

theorem Dev.releaseRec_only (d : Dev) (q : QRec) : d.QueuesOnly (d.releaseRec q) := by
  unfold Dev.releaseRec
  have h := d.freeBufs_only q
  dsimp only
  split
  · split
    · exact h
    · exact h.trans (Dev.returnPasses_only ..)
  · exact h

theorem Dev.modUp_only (d : Dev) (vc : Nat) (f : TxStream → TxStream) : d.QueuesOnly (d.modUp vc f) := .ofMrg d _

theorem Dev.formMarker_only (d : Dev) (vc count first last : Nat) : d.QueuesOnly (d.formMarker vc count first last) := by
  unfold Dev.formMarker
  have h := d.newRec_only 2 (gapMarker d 1 true vc 0 count first last).bytes first (.marker vc)
  generalize d.newRec 2 (gapMarker d 1 true vc 0 count first last).bytes first (.marker vc) = x at h ⊢
  exact h.trans (Dev.modUp_only ..)

theorem Dev.dropUp_only (d : Dev) (vc key : Nat) : d.QueuesOnly (d.dropUp vc key).1 := by
  unfold Dev.dropUp
  generalize hx : ({ d with mrg := { d.mrg with counters := { d.mrg.counters with
    itemsDropped := modAt d.mrg.counters.itemsDropped vc (· + 1) } } } : Dev) = x
  have h : d.QueuesOnly x := hx ▸ .ofMrg d _
  clear hx
  dsimp only
  split
  · split
    · exact h.trans (x.modUp_only ..)
    · split
      · exact h.trans (x.modUp_only ..)
      · exact h.trans (x.formMarker_only ..)
  · split
    · exact h.trans (x.modUp_only ..)
    · exact h.trans (x.formMarker_only ..)

theorem Dev.joinItem_only (d : Dev) (vc : Nat) (recs : List QRec) : d.QueuesOnly (d.joinItem vc recs).1 := by
  unfold Dev.joinItem
  dsimp only
  split
  · exact Dev.modUp_only ..
  · exact (Dev.QueuesOnly.foldl _ (fun d q => d.releaseRec_only q) recs d).trans (Dev.dropUp_only ..)

theorem Dev.writeLocal_only (d : Dev) (vc : Nat) (r : Rec) (old : Bool) : d.QueuesOnly (d.writeLocal vc r old).1 := by
  have h := (d.noteWriter_only r.typ).trans (Dev.newRec_only _ (clientOf r.typ) r.bytes r.eventKey .loc)
  rw [Dev.writeLocal]
  revert h
  generalize (d.noteWriter r.typ).newRec (clientOf r.typ) r.bytes r.eventKey .loc = x
  intro h
  obtain ⟨x, q⟩ := x
  exact h.trans (x.joinItem_only vc _)

theorem Dev.joinFormed_only (d : Dev) (vc : Nat) (r : Rec) (old : Bool) : d.QueuesOnly (d.joinFormed vc r old).1 := by
  unfold Dev.joinFormed
  split
  · exact Dev.writeLocal_only ..
  · exact .ofMrg d _

theorem Dev.joinLocal_only (d : Dev) (vc : Nat) (r : Rec) : d.QueuesOnly (d.joinLocal vc r).1 := d.joinFormed_only vc r false

theorem Dev.serviceEvent_only (d : Dev) (src kind seq : Nat) (rep : Bool) (t : TimeWord) (items : List EvItem) :
    d.QueuesOnly (d.serviceEvent src kind seq rep t items) := by
  unfold Dev.serviceEvent
  dsimp only
  split <;> exact .ofEvt d _

theorem Dev.deliverNow_only (d : Dev) (src kind seq : Nat) (rep : Bool) (t : TimeWord) (items : List EvItem) :
    d.QueuesOnly (d.deliverNow src kind seq rep t items).1 := by
  unfold Dev.deliverNow
  extract_lets up
  have h := d.joinLocal_only 0 (eventRec d src kind seq 0 rep t items)
  generalize d.joinLocal 0 (eventRec d src kind seq 0 rep t items) = x at h
  obtain ⟨x, n⟩ := x
  have k : d.QueuesOnly (if up then
      (if n.isSome then { x with evt := { x.evt with droppedUp := (x.evt.droppedUp + 1) % 2 ^ 64 } } else x, n)
      else (d, none)).1 := by
    split
    · dsimp only
      split
      · exact h.trans (.ofEvt ..)
      · exact h
    · rfl
  revert k
  generalize (if up then
      (if n.isSome then { x with evt := { x.evt with droppedUp := (x.evt.droppedUp + 1) % 2 ^ 64 } } else x, n)
      else (d, none)) = y
  intro k
  obtain ⟨y, m⟩ := y
  dsimp only at k ⊢
  split
  · exact k.trans (Dev.serviceEvent_only ..)
  · exact k

theorem Dev.deliver_only (d : Dev) (src kind seq : Nat) (t : TimeWord) (items : List EvItem) :
    d.QueuesOnly (d.deliver src kind seq t items).1 := by
  unfold Dev.deliver
  split
  · exact Dev.deliverNow_only ..
  · exact .ofEvt d _

theorem Dev.raiseOnce_only (d : Dev) (src kind : Nat) (items : List EvItem) :
    d.QueuesOnly (d.raiseOnce src kind items).1 := by
  unfold Dev.raiseOnce
  dsimp only
  split
  · exact .refl d
  · split
    · exact .ofEvt d _
    · split
      · exact ((Dev.QueuesOnly.ofEvt d _).trans (Dev.deliver_only ..)).trans (.ofEvt ..)
      · exact (Dev.QueuesOnly.ofEvt d _).trans (Dev.deliver_only ..)

theorem Dev.startInterval_only (d : Dev) (src kind key : Nat) : d.QueuesOnly (d.startInterval src kind key) := .ofEvt d _

theorem Dev.raiseDropped_only (d : Dev) (vc : Nat) (n : Option Nat) : d.QueuesOnly (d.raiseDropped vc n) := by
  unfold Dev.raiseDropped
  split
  · rfl
  · split
    · exact (d.startInterval_only ..).trans (Dev.raiseOnce_only ..)
    · rfl

theorem Dev.holdEvents_only (d : Dev) : d.QueuesOnly d.holdEvents := .ofEvt d _

theorem Dev.deliverHeld_only (d : Dev) (e : HeldEvent) : d.QueuesOnly (d.deliverHeld e) := by
  unfold Dev.deliverHeld
  have h := d.deliverNow_only e.source e.kind e.seq false e.time e.items
  generalize d.deliverNow e.source e.kind e.seq false e.time e.items = x at h ⊢
  exact h.trans (Dev.raiseDropped_only ..)

/-- The delivery of the events held changes nothing but the queues. -/
theorem Dev.releaseEvents_only (d : Dev) : d.QueuesOnly d.releaseEvents :=
  (Dev.QueuesOnly.ofEvt d _).trans (Dev.QueuesOnly.foldl _ (fun d e => d.deliverHeld_only e) _ _)

theorem Dev.raise_only (d : Dev) (src kind : Nat) (items : List EvItem) : d.QueuesOnly (d.raise src kind items) := by
  unfold Dev.raise
  have h := d.raiseOnce_only src kind items
  generalize d.raiseOnce src kind items = x at h ⊢
  exact h.trans (Dev.raiseDropped_only ..)

theorem Dev.raiseLimited_only (d : Dev) (src kind key : Nat) (items : List EvItem) :
    d.QueuesOnly (d.raiseLimited src kind key items) := by
  unfold Dev.raiseLimited
  split
  · exact (d.startInterval_only ..).trans (Dev.raise_only ..)
  · rfl

theorem Dev.sendFormed_only (d : Dev) (vc : Nat) (r : Rec) (old : Bool) : d.QueuesOnly (d.sendFormed vc r old) :=
  (d.joinFormed_only vc r old).trans (Dev.raiseDropped_only ..)

theorem Dev.sendUp_only (d : Dev) (vc : Nat) (r : Rec) : d.QueuesOnly (d.sendUp vc r) := d.sendFormed_only vc r false

theorem Dev.sendItem_only (d : Dev) (vc : Nat) (recs : List QRec) : d.QueuesOnly (d.sendItem vc recs) := by
  unfold Dev.sendItem
  have h := d.joinItem_only vc recs
  generalize d.joinItem vc recs = x at h ⊢
  exact h.trans (Dev.raiseDropped_only ..)

theorem Dev.sendReply_only (d : Dev) (h : CmdHeader) (place : List SvcItem → Rec → List SvcItem) (r : Rec) :
    d.QueuesOnly (d.sendReply h place r) := by
  unfold Dev.sendReply
  split
  · exact .ofEvt d _
  · exact Dev.sendUp_only ..

theorem Dev.noReply_only (d : Dev) (h : CmdHeader) (opcode : Nat) (st : Status) : d.QueuesOnly (d.noReply h opcode st) := by
  unfold Dev.noReply
  split
  · rfl
  · exact (Dev.QueuesOnly.ofEvt d _).trans (Dev.raiseLimited_only ..)

theorem Dev.onSvdo_eq (d : Dev) (bytes : List Byte) :
    d.onSvdo bytes = { d with cmd := { d.cmd with svdo := d.statusByte :: bytes } } := rfl

theorem Dev.QueuesOnly.sys {d d' : Dev} (h : d.QueuesOnly d') : d'.sys = d.sys := (congrArg Dev.sys (show d'.rest = d.rest from h) :)
theorem Dev.QueuesOnly.cmd {d d' : Dev} (h : d.QueuesOnly d') : d'.cmd = d.cmd := (congrArg Dev.cmd (show d'.rest = d.rest from h) :)
theorem Dev.QueuesOnly.map {d d' : Dev} (h : d.QueuesOnly d') : d'.map = d.map := (congrArg Dev.map (show d'.rest = d.rest from h) :)
theorem Dev.QueuesOnly.fe {d d' : Dev} (h : d.QueuesOnly d') : d'.fe = d.fe := (congrArg Dev.fe (show d'.rest = d.rest from h) :)
theorem Dev.QueuesOnly.wfc {d d' : Dev} (h : d.QueuesOnly d') : d'.wfc = d.wfc := (congrArg Dev.wfc (show d'.rest = d.rest from h) :)
theorem Dev.QueuesOnly.mon {d d' : Dev} (h : d.QueuesOnly d') : d'.mon = d.mon := (congrArg Dev.mon (show d'.rest = d.rest from h) :)
theorem Dev.QueuesOnly.time {d d' : Dev} (h : d.QueuesOnly d') : d'.time = d.time := (congrArg Dev.time (show d'.rest = d.rest from h) :)
theorem Dev.QueuesOnly.tdc {d d' : Dev} (h : d.QueuesOnly d') : d'.tdc = d.tdc := (congrArg Dev.tdc (show d'.rest = d.rest from h) :)
theorem Dev.QueuesOnly.slalom {d d' : Dev} (h : d.QueuesOnly d') : d'.slalom = d.slalom := (congrArg Dev.slalom (show d'.rest = d.rest from h) :)
theorem Dev.QueuesOnly.schuss {d d' : Dev} (h : d.QueuesOnly d') : d'.schuss = d.schuss := (congrArg Dev.schuss (show d'.rest = d.rest from h) :)
theorem Dev.QueuesOnly.acq {d d' : Dev} (h : d.QueuesOnly d') : d'.acq = d.acq := (congrArg Dev.acq (show d'.rest = d.rest from h) :)
theorem Dev.QueuesOnly.cmp {d d' : Dev} (h : d.QueuesOnly d') : d'.cmp = d.cmp := (congrArg Dev.cmp (show d'.rest = d.rest from h) :)
theorem Dev.QueuesOnly.lift {d d' : Dev} (h : d.QueuesOnly d') : d'.lift = d.lift := (congrArg Dev.lift (show d'.rest = d.rest from h) :)
theorem Dev.QueuesOnly.lanes {d d' : Dev} (h : d.QueuesOnly d') : d'.lanes = d.lanes := (congrArg Dev.lanes (show d'.rest = d.rest from h) :)
theorem Dev.QueuesOnly.pair {d d' : Dev} (h : d.QueuesOnly d') : d'.pair = d.pair := (congrArg Dev.pair (show d'.rest = d.rest from h) :)
theorem Dev.QueuesOnly.store {d d' : Dev} (h : d.QueuesOnly d') : d'.store = d.store := (congrArg Dev.store (show d'.rest = d.rest from h) :)
theorem Dev.QueuesOnly.pwr {d d' : Dev} (h : d.QueuesOnly d') : d'.pwr = d.pwr := (congrArg Dev.pwr (show d'.rest = d.rest from h) :)
theorem Dev.QueuesOnly.triad {d d' : Dev} (h : d.QueuesOnly d') : d'.triad = d.triad := (congrArg Dev.triad (show d'.rest = d.rest from h) :)
theorem Dev.QueuesOnly.cal {d d' : Dev} (h : d.QueuesOnly d') : d'.cal = d.cal := (congrArg Dev.cal (show d'.rest = d.rest from h) :)
theorem Dev.QueuesOnly.bist {d d' : Dev} (h : d.QueuesOnly d') : d'.bist = d.bist := (congrArg Dev.bist (show d'.rest = d.rest from h) :)
theorem Dev.QueuesOnly.hmon {d d' : Dev} (h : d.QueuesOnly d') : d'.hmon = d.hmon := (congrArg Dev.hmon (show d'.rest = d.rest from h) :)
theorem Dev.QueuesOnly.fw {d d' : Dev} (h : d.QueuesOnly d') : d'.fw = d.fw := (congrArg Dev.fw (show d'.rest = d.rest from h) :)
theorem Dev.QueuesOnly.integ_log {d d' : Dev} (h : d.QueuesOnly d') : d'.integ.log = d.integ.log := (congrArg (·.integ.log) (show d'.rest = d.rest from h) :)
theorem Dev.QueuesOnly.integ_remap {d d' : Dev} (h : d.QueuesOnly d') : d'.integ.remap = d.integ.remap := (congrArg (·.integ.remap) (show d'.rest = d.rest from h) :)
theorem Dev.QueuesOnly.integ_remapDue {d d' : Dev} (h : d.QueuesOnly d') : d'.integ.remapDue = d.integ.remapDue := (congrArg (·.integ.remapDue) (show d'.rest = d.rest from h) :)
theorem Dev.QueuesOnly.integ_listDue {d d' : Dev} (h : d.QueuesOnly d') : d'.integ.listDue = d.integ.listDue := (congrArg (·.integ.listDue) (show d'.rest = d.rest from h) :)
theorem Dev.QueuesOnly.integ_histories {d d' : Dev} (h : d.QueuesOnly d') : d'.integ.histories = d.integ.histories := (congrArg (·.integ.histories) (show d'.rest = d.rest from h) :)
theorem Dev.QueuesOnly.integ_memCounts {d d' : Dev} (h : d.QueuesOnly d') : d'.integ.memCounts = d.integ.memCounts := (congrArg (·.integ.memCounts) (show d'.rest = d.rest from h) :)
theorem Dev.QueuesOnly.integ_parity {d d' : Dev} (h : d.QueuesOnly d') : d'.integ.parity = d.integ.parity := (congrArg (·.integ.parity) (show d'.rest = d.rest from h) :)
theorem Dev.QueuesOnly.integ_handOver {d d' : Dev} (h : d.QueuesOnly d') : d'.integ.handOver = d.integ.handOver := (congrArg (·.integ.handOver) (show d'.rest = d.rest from h) :)
theorem Dev.QueuesOnly.integ_poisonedCrc {d d' : Dev} (h : d.QueuesOnly d') : d'.integ.poisonedCrc = d.integ.poisonedCrc := (congrArg (·.integ.poisonedCrc) (show d'.rest = d.rest from h) :)
theorem Dev.QueuesOnly.integ_poisonedFlag {d d' : Dev} (h : d.QueuesOnly d') : d'.integ.poisonedFlag = d.integ.poisonedFlag := (congrArg (·.integ.poisonedFlag) (show d'.rest = d.rest from h) :)
theorem Dev.QueuesOnly.integ_walks {d d' : Dev} (h : d.QueuesOnly d') : d'.integ.walks = d.integ.walks := (congrArg (·.integ.walks) (show d'.rest = d.rest from h) :)
theorem Dev.QueuesOnly.integ_crossingInjects {d d' : Dev} (h : d.QueuesOnly d') : d'.integ.crossingInjects = d.integ.crossingInjects := (congrArg (·.integ.crossingInjects) (show d'.rest = d.rest from h) :)
theorem Dev.QueuesOnly.integ_portInjects {d d' : Dev} (h : d.QueuesOnly d') : d'.integ.portInjects = d.integ.portInjects := (congrArg (·.integ.portInjects) (show d'.rest = d.rest from h) :)

/-- The final reply of a command changes nothing but the queues and the command counts. -/
theorem Dev.finish_only (d : Dev) (c : Ctx) (st : Status) (data : List Byte) :
    Dev.QueuesOnly ((d.endFlight c.header c.opcode).countAnswer (finalStatus c st)) (d.finish c st data) := by
  unfold Dev.finish
  dsimp only
  split
  · exact Dev.noReply_only ..
  · exact Dev.sendReply_only ..

/-- An answer without data changes nothing but the queues and the command counts. -/
theorem Dev.answer_only (d : Dev) (h : CmdHeader) (opcode : Nat) (st : Status) (interim : Bool) :
    Dev.QueuesOnly (d.countAnswer st) (d.answer h opcode st interim) := by
  unfold Dev.answer
  dsimp only
  split
  · exact Dev.noReply_only ..
  · exact Dev.sendReply_only ..

/-! ### `Dev.raise` -/

@[simp] theorem Dev.raise_sys (d : Dev) (src kind : Nat) (items : List EvItem) : (d.raise src kind items).sys = d.sys :=
  (d.raise_only src kind items).sys
@[simp] theorem Dev.raise_cmd (d : Dev) (src kind : Nat) (items : List EvItem) : (d.raise src kind items).cmd = d.cmd :=
  (d.raise_only src kind items).cmd
@[simp] theorem Dev.raise_map (d : Dev) (src kind : Nat) (items : List EvItem) : (d.raise src kind items).map = d.map :=
  (d.raise_only src kind items).map
@[simp] theorem Dev.raise_fe (d : Dev) (src kind : Nat) (items : List EvItem) : (d.raise src kind items).fe = d.fe :=
  (d.raise_only src kind items).fe
@[simp] theorem Dev.raise_wfc (d : Dev) (src kind : Nat) (items : List EvItem) : (d.raise src kind items).wfc = d.wfc :=
  (d.raise_only src kind items).wfc
@[simp] theorem Dev.raise_mon (d : Dev) (src kind : Nat) (items : List EvItem) : (d.raise src kind items).mon = d.mon :=
  (d.raise_only src kind items).mon
@[simp] theorem Dev.raise_time (d : Dev) (src kind : Nat) (items : List EvItem) : (d.raise src kind items).time = d.time :=
  (d.raise_only src kind items).time
@[simp] theorem Dev.raise_tdc (d : Dev) (src kind : Nat) (items : List EvItem) : (d.raise src kind items).tdc = d.tdc :=
  (d.raise_only src kind items).tdc
@[simp] theorem Dev.raise_slalom (d : Dev) (src kind : Nat) (items : List EvItem) : (d.raise src kind items).slalom = d.slalom :=
  (d.raise_only src kind items).slalom
@[simp] theorem Dev.raise_schuss (d : Dev) (src kind : Nat) (items : List EvItem) : (d.raise src kind items).schuss = d.schuss :=
  (d.raise_only src kind items).schuss
@[simp] theorem Dev.raise_acq (d : Dev) (src kind : Nat) (items : List EvItem) : (d.raise src kind items).acq = d.acq :=
  (d.raise_only src kind items).acq
@[simp] theorem Dev.raise_cmp (d : Dev) (src kind : Nat) (items : List EvItem) : (d.raise src kind items).cmp = d.cmp :=
  (d.raise_only src kind items).cmp
@[simp] theorem Dev.raise_lift (d : Dev) (src kind : Nat) (items : List EvItem) : (d.raise src kind items).lift = d.lift :=
  (d.raise_only src kind items).lift
@[simp] theorem Dev.raise_lanes (d : Dev) (src kind : Nat) (items : List EvItem) : (d.raise src kind items).lanes = d.lanes :=
  (d.raise_only src kind items).lanes
@[simp] theorem Dev.raise_pair (d : Dev) (src kind : Nat) (items : List EvItem) : (d.raise src kind items).pair = d.pair :=
  (d.raise_only src kind items).pair
@[simp] theorem Dev.raise_store (d : Dev) (src kind : Nat) (items : List EvItem) : (d.raise src kind items).store = d.store :=
  (d.raise_only src kind items).store
@[simp] theorem Dev.raise_pwr (d : Dev) (src kind : Nat) (items : List EvItem) : (d.raise src kind items).pwr = d.pwr :=
  (d.raise_only src kind items).pwr
@[simp] theorem Dev.raise_triad (d : Dev) (src kind : Nat) (items : List EvItem) : (d.raise src kind items).triad = d.triad :=
  (d.raise_only src kind items).triad
@[simp] theorem Dev.raise_cal (d : Dev) (src kind : Nat) (items : List EvItem) : (d.raise src kind items).cal = d.cal :=
  (d.raise_only src kind items).cal
@[simp] theorem Dev.raise_bist (d : Dev) (src kind : Nat) (items : List EvItem) : (d.raise src kind items).bist = d.bist :=
  (d.raise_only src kind items).bist
@[simp] theorem Dev.raise_hmon (d : Dev) (src kind : Nat) (items : List EvItem) : (d.raise src kind items).hmon = d.hmon :=
  (d.raise_only src kind items).hmon
@[simp] theorem Dev.raise_fw (d : Dev) (src kind : Nat) (items : List EvItem) : (d.raise src kind items).fw = d.fw :=
  (d.raise_only src kind items).fw
@[simp] theorem Dev.raise_integ_log (d : Dev) (src kind : Nat) (items : List EvItem) : (d.raise src kind items).integ.log = d.integ.log :=
  (d.raise_only src kind items).integ_log
@[simp] theorem Dev.raise_integ_remap (d : Dev) (src kind : Nat) (items : List EvItem) : (d.raise src kind items).integ.remap = d.integ.remap :=
  (d.raise_only src kind items).integ_remap
@[simp] theorem Dev.raise_integ_remapDue (d : Dev) (src kind : Nat) (items : List EvItem) : (d.raise src kind items).integ.remapDue = d.integ.remapDue :=
  (d.raise_only src kind items).integ_remapDue
@[simp] theorem Dev.raise_integ_listDue (d : Dev) (src kind : Nat) (items : List EvItem) : (d.raise src kind items).integ.listDue = d.integ.listDue :=
  (d.raise_only src kind items).integ_listDue
@[simp] theorem Dev.raise_integ_histories (d : Dev) (src kind : Nat) (items : List EvItem) : (d.raise src kind items).integ.histories = d.integ.histories :=
  (d.raise_only src kind items).integ_histories
@[simp] theorem Dev.raise_integ_memCounts (d : Dev) (src kind : Nat) (items : List EvItem) : (d.raise src kind items).integ.memCounts = d.integ.memCounts :=
  (d.raise_only src kind items).integ_memCounts
@[simp] theorem Dev.raise_integ_parity (d : Dev) (src kind : Nat) (items : List EvItem) : (d.raise src kind items).integ.parity = d.integ.parity :=
  (d.raise_only src kind items).integ_parity
@[simp] theorem Dev.raise_integ_handOver (d : Dev) (src kind : Nat) (items : List EvItem) : (d.raise src kind items).integ.handOver = d.integ.handOver :=
  (d.raise_only src kind items).integ_handOver
@[simp] theorem Dev.raise_integ_poisonedCrc (d : Dev) (src kind : Nat) (items : List EvItem) : (d.raise src kind items).integ.poisonedCrc = d.integ.poisonedCrc :=
  (d.raise_only src kind items).integ_poisonedCrc
@[simp] theorem Dev.raise_integ_poisonedFlag (d : Dev) (src kind : Nat) (items : List EvItem) : (d.raise src kind items).integ.poisonedFlag = d.integ.poisonedFlag :=
  (d.raise_only src kind items).integ_poisonedFlag
@[simp] theorem Dev.raise_integ_walks (d : Dev) (src kind : Nat) (items : List EvItem) : (d.raise src kind items).integ.walks = d.integ.walks :=
  (d.raise_only src kind items).integ_walks
@[simp] theorem Dev.raise_integ_crossingInjects (d : Dev) (src kind : Nat) (items : List EvItem) : (d.raise src kind items).integ.crossingInjects = d.integ.crossingInjects :=
  (d.raise_only src kind items).integ_crossingInjects
@[simp] theorem Dev.raise_integ_portInjects (d : Dev) (src kind : Nat) (items : List EvItem) : (d.raise src kind items).integ.portInjects = d.integ.portInjects :=
  (d.raise_only src kind items).integ_portInjects

/-! ### `Dev.raiseLimited` -/

@[simp] theorem Dev.raiseLimited_sys (d : Dev) (src kind key : Nat) (items : List EvItem) : (d.raiseLimited src kind key items).sys = d.sys :=
  (d.raiseLimited_only src kind key items).sys
@[simp] theorem Dev.raiseLimited_cmd (d : Dev) (src kind key : Nat) (items : List EvItem) : (d.raiseLimited src kind key items).cmd = d.cmd :=
  (d.raiseLimited_only src kind key items).cmd
@[simp] theorem Dev.raiseLimited_map (d : Dev) (src kind key : Nat) (items : List EvItem) : (d.raiseLimited src kind key items).map = d.map :=
  (d.raiseLimited_only src kind key items).map
@[simp] theorem Dev.raiseLimited_fe (d : Dev) (src kind key : Nat) (items : List EvItem) : (d.raiseLimited src kind key items).fe = d.fe :=
  (d.raiseLimited_only src kind key items).fe
@[simp] theorem Dev.raiseLimited_wfc (d : Dev) (src kind key : Nat) (items : List EvItem) : (d.raiseLimited src kind key items).wfc = d.wfc :=
  (d.raiseLimited_only src kind key items).wfc
@[simp] theorem Dev.raiseLimited_mon (d : Dev) (src kind key : Nat) (items : List EvItem) : (d.raiseLimited src kind key items).mon = d.mon :=
  (d.raiseLimited_only src kind key items).mon
@[simp] theorem Dev.raiseLimited_time (d : Dev) (src kind key : Nat) (items : List EvItem) : (d.raiseLimited src kind key items).time = d.time :=
  (d.raiseLimited_only src kind key items).time
@[simp] theorem Dev.raiseLimited_tdc (d : Dev) (src kind key : Nat) (items : List EvItem) : (d.raiseLimited src kind key items).tdc = d.tdc :=
  (d.raiseLimited_only src kind key items).tdc
@[simp] theorem Dev.raiseLimited_slalom (d : Dev) (src kind key : Nat) (items : List EvItem) : (d.raiseLimited src kind key items).slalom = d.slalom :=
  (d.raiseLimited_only src kind key items).slalom
@[simp] theorem Dev.raiseLimited_schuss (d : Dev) (src kind key : Nat) (items : List EvItem) : (d.raiseLimited src kind key items).schuss = d.schuss :=
  (d.raiseLimited_only src kind key items).schuss
@[simp] theorem Dev.raiseLimited_acq (d : Dev) (src kind key : Nat) (items : List EvItem) : (d.raiseLimited src kind key items).acq = d.acq :=
  (d.raiseLimited_only src kind key items).acq
@[simp] theorem Dev.raiseLimited_cmp (d : Dev) (src kind key : Nat) (items : List EvItem) : (d.raiseLimited src kind key items).cmp = d.cmp :=
  (d.raiseLimited_only src kind key items).cmp
@[simp] theorem Dev.raiseLimited_lift (d : Dev) (src kind key : Nat) (items : List EvItem) : (d.raiseLimited src kind key items).lift = d.lift :=
  (d.raiseLimited_only src kind key items).lift
@[simp] theorem Dev.raiseLimited_lanes (d : Dev) (src kind key : Nat) (items : List EvItem) : (d.raiseLimited src kind key items).lanes = d.lanes :=
  (d.raiseLimited_only src kind key items).lanes
@[simp] theorem Dev.raiseLimited_pair (d : Dev) (src kind key : Nat) (items : List EvItem) : (d.raiseLimited src kind key items).pair = d.pair :=
  (d.raiseLimited_only src kind key items).pair
@[simp] theorem Dev.raiseLimited_store (d : Dev) (src kind key : Nat) (items : List EvItem) : (d.raiseLimited src kind key items).store = d.store :=
  (d.raiseLimited_only src kind key items).store
@[simp] theorem Dev.raiseLimited_pwr (d : Dev) (src kind key : Nat) (items : List EvItem) : (d.raiseLimited src kind key items).pwr = d.pwr :=
  (d.raiseLimited_only src kind key items).pwr
@[simp] theorem Dev.raiseLimited_triad (d : Dev) (src kind key : Nat) (items : List EvItem) : (d.raiseLimited src kind key items).triad = d.triad :=
  (d.raiseLimited_only src kind key items).triad
@[simp] theorem Dev.raiseLimited_cal (d : Dev) (src kind key : Nat) (items : List EvItem) : (d.raiseLimited src kind key items).cal = d.cal :=
  (d.raiseLimited_only src kind key items).cal
@[simp] theorem Dev.raiseLimited_bist (d : Dev) (src kind key : Nat) (items : List EvItem) : (d.raiseLimited src kind key items).bist = d.bist :=
  (d.raiseLimited_only src kind key items).bist
@[simp] theorem Dev.raiseLimited_hmon (d : Dev) (src kind key : Nat) (items : List EvItem) : (d.raiseLimited src kind key items).hmon = d.hmon :=
  (d.raiseLimited_only src kind key items).hmon
@[simp] theorem Dev.raiseLimited_fw (d : Dev) (src kind key : Nat) (items : List EvItem) : (d.raiseLimited src kind key items).fw = d.fw :=
  (d.raiseLimited_only src kind key items).fw
@[simp] theorem Dev.raiseLimited_integ_log (d : Dev) (src kind key : Nat) (items : List EvItem) : (d.raiseLimited src kind key items).integ.log = d.integ.log :=
  (d.raiseLimited_only src kind key items).integ_log
@[simp] theorem Dev.raiseLimited_integ_remap (d : Dev) (src kind key : Nat) (items : List EvItem) : (d.raiseLimited src kind key items).integ.remap = d.integ.remap :=
  (d.raiseLimited_only src kind key items).integ_remap
@[simp] theorem Dev.raiseLimited_integ_remapDue (d : Dev) (src kind key : Nat) (items : List EvItem) : (d.raiseLimited src kind key items).integ.remapDue = d.integ.remapDue :=
  (d.raiseLimited_only src kind key items).integ_remapDue
@[simp] theorem Dev.raiseLimited_integ_listDue (d : Dev) (src kind key : Nat) (items : List EvItem) : (d.raiseLimited src kind key items).integ.listDue = d.integ.listDue :=
  (d.raiseLimited_only src kind key items).integ_listDue
@[simp] theorem Dev.raiseLimited_integ_histories (d : Dev) (src kind key : Nat) (items : List EvItem) : (d.raiseLimited src kind key items).integ.histories = d.integ.histories :=
  (d.raiseLimited_only src kind key items).integ_histories
@[simp] theorem Dev.raiseLimited_integ_memCounts (d : Dev) (src kind key : Nat) (items : List EvItem) : (d.raiseLimited src kind key items).integ.memCounts = d.integ.memCounts :=
  (d.raiseLimited_only src kind key items).integ_memCounts
@[simp] theorem Dev.raiseLimited_integ_parity (d : Dev) (src kind key : Nat) (items : List EvItem) : (d.raiseLimited src kind key items).integ.parity = d.integ.parity :=
  (d.raiseLimited_only src kind key items).integ_parity
@[simp] theorem Dev.raiseLimited_integ_handOver (d : Dev) (src kind key : Nat) (items : List EvItem) : (d.raiseLimited src kind key items).integ.handOver = d.integ.handOver :=
  (d.raiseLimited_only src kind key items).integ_handOver
@[simp] theorem Dev.raiseLimited_integ_poisonedCrc (d : Dev) (src kind key : Nat) (items : List EvItem) : (d.raiseLimited src kind key items).integ.poisonedCrc = d.integ.poisonedCrc :=
  (d.raiseLimited_only src kind key items).integ_poisonedCrc
@[simp] theorem Dev.raiseLimited_integ_poisonedFlag (d : Dev) (src kind key : Nat) (items : List EvItem) : (d.raiseLimited src kind key items).integ.poisonedFlag = d.integ.poisonedFlag :=
  (d.raiseLimited_only src kind key items).integ_poisonedFlag
@[simp] theorem Dev.raiseLimited_integ_walks (d : Dev) (src kind key : Nat) (items : List EvItem) : (d.raiseLimited src kind key items).integ.walks = d.integ.walks :=
  (d.raiseLimited_only src kind key items).integ_walks
@[simp] theorem Dev.raiseLimited_integ_crossingInjects (d : Dev) (src kind key : Nat) (items : List EvItem) : (d.raiseLimited src kind key items).integ.crossingInjects = d.integ.crossingInjects :=
  (d.raiseLimited_only src kind key items).integ_crossingInjects
@[simp] theorem Dev.raiseLimited_integ_portInjects (d : Dev) (src kind key : Nat) (items : List EvItem) : (d.raiseLimited src kind key items).integ.portInjects = d.integ.portInjects :=
  (d.raiseLimited_only src kind key items).integ_portInjects

/-! ### `Dev.raiseDropped` -/

@[simp] theorem Dev.raiseDropped_sys (d : Dev) (vc : Nat) (n : Option Nat) : (d.raiseDropped vc n).sys = d.sys :=
  (d.raiseDropped_only vc n).sys
@[simp] theorem Dev.raiseDropped_cmd (d : Dev) (vc : Nat) (n : Option Nat) : (d.raiseDropped vc n).cmd = d.cmd :=
  (d.raiseDropped_only vc n).cmd
@[simp] theorem Dev.raiseDropped_map (d : Dev) (vc : Nat) (n : Option Nat) : (d.raiseDropped vc n).map = d.map :=
  (d.raiseDropped_only vc n).map
@[simp] theorem Dev.raiseDropped_fe (d : Dev) (vc : Nat) (n : Option Nat) : (d.raiseDropped vc n).fe = d.fe :=
  (d.raiseDropped_only vc n).fe
@[simp] theorem Dev.raiseDropped_wfc (d : Dev) (vc : Nat) (n : Option Nat) : (d.raiseDropped vc n).wfc = d.wfc :=
  (d.raiseDropped_only vc n).wfc
@[simp] theorem Dev.raiseDropped_mon (d : Dev) (vc : Nat) (n : Option Nat) : (d.raiseDropped vc n).mon = d.mon :=
  (d.raiseDropped_only vc n).mon
@[simp] theorem Dev.raiseDropped_time (d : Dev) (vc : Nat) (n : Option Nat) : (d.raiseDropped vc n).time = d.time :=
  (d.raiseDropped_only vc n).time
@[simp] theorem Dev.raiseDropped_tdc (d : Dev) (vc : Nat) (n : Option Nat) : (d.raiseDropped vc n).tdc = d.tdc :=
  (d.raiseDropped_only vc n).tdc
@[simp] theorem Dev.raiseDropped_slalom (d : Dev) (vc : Nat) (n : Option Nat) : (d.raiseDropped vc n).slalom = d.slalom :=
  (d.raiseDropped_only vc n).slalom
@[simp] theorem Dev.raiseDropped_schuss (d : Dev) (vc : Nat) (n : Option Nat) : (d.raiseDropped vc n).schuss = d.schuss :=
  (d.raiseDropped_only vc n).schuss
@[simp] theorem Dev.raiseDropped_acq (d : Dev) (vc : Nat) (n : Option Nat) : (d.raiseDropped vc n).acq = d.acq :=
  (d.raiseDropped_only vc n).acq
@[simp] theorem Dev.raiseDropped_cmp (d : Dev) (vc : Nat) (n : Option Nat) : (d.raiseDropped vc n).cmp = d.cmp :=
  (d.raiseDropped_only vc n).cmp
@[simp] theorem Dev.raiseDropped_lift (d : Dev) (vc : Nat) (n : Option Nat) : (d.raiseDropped vc n).lift = d.lift :=
  (d.raiseDropped_only vc n).lift
@[simp] theorem Dev.raiseDropped_lanes (d : Dev) (vc : Nat) (n : Option Nat) : (d.raiseDropped vc n).lanes = d.lanes :=
  (d.raiseDropped_only vc n).lanes
@[simp] theorem Dev.raiseDropped_pair (d : Dev) (vc : Nat) (n : Option Nat) : (d.raiseDropped vc n).pair = d.pair :=
  (d.raiseDropped_only vc n).pair
@[simp] theorem Dev.raiseDropped_store (d : Dev) (vc : Nat) (n : Option Nat) : (d.raiseDropped vc n).store = d.store :=
  (d.raiseDropped_only vc n).store
@[simp] theorem Dev.raiseDropped_pwr (d : Dev) (vc : Nat) (n : Option Nat) : (d.raiseDropped vc n).pwr = d.pwr :=
  (d.raiseDropped_only vc n).pwr
@[simp] theorem Dev.raiseDropped_triad (d : Dev) (vc : Nat) (n : Option Nat) : (d.raiseDropped vc n).triad = d.triad :=
  (d.raiseDropped_only vc n).triad
@[simp] theorem Dev.raiseDropped_cal (d : Dev) (vc : Nat) (n : Option Nat) : (d.raiseDropped vc n).cal = d.cal :=
  (d.raiseDropped_only vc n).cal
@[simp] theorem Dev.raiseDropped_bist (d : Dev) (vc : Nat) (n : Option Nat) : (d.raiseDropped vc n).bist = d.bist :=
  (d.raiseDropped_only vc n).bist
@[simp] theorem Dev.raiseDropped_hmon (d : Dev) (vc : Nat) (n : Option Nat) : (d.raiseDropped vc n).hmon = d.hmon :=
  (d.raiseDropped_only vc n).hmon
@[simp] theorem Dev.raiseDropped_fw (d : Dev) (vc : Nat) (n : Option Nat) : (d.raiseDropped vc n).fw = d.fw :=
  (d.raiseDropped_only vc n).fw
@[simp] theorem Dev.raiseDropped_integ_log (d : Dev) (vc : Nat) (n : Option Nat) : (d.raiseDropped vc n).integ.log = d.integ.log :=
  (d.raiseDropped_only vc n).integ_log
@[simp] theorem Dev.raiseDropped_integ_remap (d : Dev) (vc : Nat) (n : Option Nat) : (d.raiseDropped vc n).integ.remap = d.integ.remap :=
  (d.raiseDropped_only vc n).integ_remap
@[simp] theorem Dev.raiseDropped_integ_remapDue (d : Dev) (vc : Nat) (n : Option Nat) : (d.raiseDropped vc n).integ.remapDue = d.integ.remapDue :=
  (d.raiseDropped_only vc n).integ_remapDue
@[simp] theorem Dev.raiseDropped_integ_listDue (d : Dev) (vc : Nat) (n : Option Nat) : (d.raiseDropped vc n).integ.listDue = d.integ.listDue :=
  (d.raiseDropped_only vc n).integ_listDue
@[simp] theorem Dev.raiseDropped_integ_histories (d : Dev) (vc : Nat) (n : Option Nat) : (d.raiseDropped vc n).integ.histories = d.integ.histories :=
  (d.raiseDropped_only vc n).integ_histories
@[simp] theorem Dev.raiseDropped_integ_memCounts (d : Dev) (vc : Nat) (n : Option Nat) : (d.raiseDropped vc n).integ.memCounts = d.integ.memCounts :=
  (d.raiseDropped_only vc n).integ_memCounts
@[simp] theorem Dev.raiseDropped_integ_parity (d : Dev) (vc : Nat) (n : Option Nat) : (d.raiseDropped vc n).integ.parity = d.integ.parity :=
  (d.raiseDropped_only vc n).integ_parity
@[simp] theorem Dev.raiseDropped_integ_handOver (d : Dev) (vc : Nat) (n : Option Nat) : (d.raiseDropped vc n).integ.handOver = d.integ.handOver :=
  (d.raiseDropped_only vc n).integ_handOver
@[simp] theorem Dev.raiseDropped_integ_poisonedCrc (d : Dev) (vc : Nat) (n : Option Nat) : (d.raiseDropped vc n).integ.poisonedCrc = d.integ.poisonedCrc :=
  (d.raiseDropped_only vc n).integ_poisonedCrc
@[simp] theorem Dev.raiseDropped_integ_poisonedFlag (d : Dev) (vc : Nat) (n : Option Nat) : (d.raiseDropped vc n).integ.poisonedFlag = d.integ.poisonedFlag :=
  (d.raiseDropped_only vc n).integ_poisonedFlag
@[simp] theorem Dev.raiseDropped_integ_walks (d : Dev) (vc : Nat) (n : Option Nat) : (d.raiseDropped vc n).integ.walks = d.integ.walks :=
  (d.raiseDropped_only vc n).integ_walks
@[simp] theorem Dev.raiseDropped_integ_crossingInjects (d : Dev) (vc : Nat) (n : Option Nat) : (d.raiseDropped vc n).integ.crossingInjects = d.integ.crossingInjects :=
  (d.raiseDropped_only vc n).integ_crossingInjects
@[simp] theorem Dev.raiseDropped_integ_portInjects (d : Dev) (vc : Nat) (n : Option Nat) : (d.raiseDropped vc n).integ.portInjects = d.integ.portInjects :=
  (d.raiseDropped_only vc n).integ_portInjects

/-! ### `Dev.sendUp` -/

@[simp] theorem Dev.sendUp_sys (d : Dev) (vc : Nat) (r : Rec) : (d.sendUp vc r).sys = d.sys :=
  (d.sendUp_only vc r).sys
@[simp] theorem Dev.sendUp_cmd (d : Dev) (vc : Nat) (r : Rec) : (d.sendUp vc r).cmd = d.cmd :=
  (d.sendUp_only vc r).cmd
@[simp] theorem Dev.sendUp_map (d : Dev) (vc : Nat) (r : Rec) : (d.sendUp vc r).map = d.map :=
  (d.sendUp_only vc r).map
@[simp] theorem Dev.sendUp_fe (d : Dev) (vc : Nat) (r : Rec) : (d.sendUp vc r).fe = d.fe :=
  (d.sendUp_only vc r).fe
@[simp] theorem Dev.sendUp_wfc (d : Dev) (vc : Nat) (r : Rec) : (d.sendUp vc r).wfc = d.wfc :=
  (d.sendUp_only vc r).wfc
@[simp] theorem Dev.sendUp_mon (d : Dev) (vc : Nat) (r : Rec) : (d.sendUp vc r).mon = d.mon :=
  (d.sendUp_only vc r).mon
@[simp] theorem Dev.sendUp_time (d : Dev) (vc : Nat) (r : Rec) : (d.sendUp vc r).time = d.time :=
  (d.sendUp_only vc r).time
@[simp] theorem Dev.sendUp_tdc (d : Dev) (vc : Nat) (r : Rec) : (d.sendUp vc r).tdc = d.tdc :=
  (d.sendUp_only vc r).tdc
@[simp] theorem Dev.sendUp_slalom (d : Dev) (vc : Nat) (r : Rec) : (d.sendUp vc r).slalom = d.slalom :=
  (d.sendUp_only vc r).slalom
@[simp] theorem Dev.sendUp_schuss (d : Dev) (vc : Nat) (r : Rec) : (d.sendUp vc r).schuss = d.schuss :=
  (d.sendUp_only vc r).schuss
@[simp] theorem Dev.sendUp_acq (d : Dev) (vc : Nat) (r : Rec) : (d.sendUp vc r).acq = d.acq :=
  (d.sendUp_only vc r).acq
@[simp] theorem Dev.sendUp_cmp (d : Dev) (vc : Nat) (r : Rec) : (d.sendUp vc r).cmp = d.cmp :=
  (d.sendUp_only vc r).cmp
@[simp] theorem Dev.sendUp_lift (d : Dev) (vc : Nat) (r : Rec) : (d.sendUp vc r).lift = d.lift :=
  (d.sendUp_only vc r).lift
@[simp] theorem Dev.sendUp_lanes (d : Dev) (vc : Nat) (r : Rec) : (d.sendUp vc r).lanes = d.lanes :=
  (d.sendUp_only vc r).lanes
@[simp] theorem Dev.sendUp_pair (d : Dev) (vc : Nat) (r : Rec) : (d.sendUp vc r).pair = d.pair :=
  (d.sendUp_only vc r).pair
@[simp] theorem Dev.sendUp_store (d : Dev) (vc : Nat) (r : Rec) : (d.sendUp vc r).store = d.store :=
  (d.sendUp_only vc r).store
@[simp] theorem Dev.sendUp_pwr (d : Dev) (vc : Nat) (r : Rec) : (d.sendUp vc r).pwr = d.pwr :=
  (d.sendUp_only vc r).pwr
@[simp] theorem Dev.sendUp_triad (d : Dev) (vc : Nat) (r : Rec) : (d.sendUp vc r).triad = d.triad :=
  (d.sendUp_only vc r).triad
@[simp] theorem Dev.sendUp_cal (d : Dev) (vc : Nat) (r : Rec) : (d.sendUp vc r).cal = d.cal :=
  (d.sendUp_only vc r).cal
@[simp] theorem Dev.sendUp_bist (d : Dev) (vc : Nat) (r : Rec) : (d.sendUp vc r).bist = d.bist :=
  (d.sendUp_only vc r).bist
@[simp] theorem Dev.sendUp_hmon (d : Dev) (vc : Nat) (r : Rec) : (d.sendUp vc r).hmon = d.hmon :=
  (d.sendUp_only vc r).hmon
@[simp] theorem Dev.sendUp_fw (d : Dev) (vc : Nat) (r : Rec) : (d.sendUp vc r).fw = d.fw :=
  (d.sendUp_only vc r).fw
@[simp] theorem Dev.sendUp_integ_log (d : Dev) (vc : Nat) (r : Rec) : (d.sendUp vc r).integ.log = d.integ.log :=
  (d.sendUp_only vc r).integ_log
@[simp] theorem Dev.sendUp_integ_remap (d : Dev) (vc : Nat) (r : Rec) : (d.sendUp vc r).integ.remap = d.integ.remap :=
  (d.sendUp_only vc r).integ_remap
@[simp] theorem Dev.sendUp_integ_remapDue (d : Dev) (vc : Nat) (r : Rec) : (d.sendUp vc r).integ.remapDue = d.integ.remapDue :=
  (d.sendUp_only vc r).integ_remapDue
@[simp] theorem Dev.sendUp_integ_listDue (d : Dev) (vc : Nat) (r : Rec) : (d.sendUp vc r).integ.listDue = d.integ.listDue :=
  (d.sendUp_only vc r).integ_listDue
@[simp] theorem Dev.sendUp_integ_histories (d : Dev) (vc : Nat) (r : Rec) : (d.sendUp vc r).integ.histories = d.integ.histories :=
  (d.sendUp_only vc r).integ_histories
@[simp] theorem Dev.sendUp_integ_memCounts (d : Dev) (vc : Nat) (r : Rec) : (d.sendUp vc r).integ.memCounts = d.integ.memCounts :=
  (d.sendUp_only vc r).integ_memCounts
@[simp] theorem Dev.sendUp_integ_parity (d : Dev) (vc : Nat) (r : Rec) : (d.sendUp vc r).integ.parity = d.integ.parity :=
  (d.sendUp_only vc r).integ_parity
@[simp] theorem Dev.sendUp_integ_handOver (d : Dev) (vc : Nat) (r : Rec) : (d.sendUp vc r).integ.handOver = d.integ.handOver :=
  (d.sendUp_only vc r).integ_handOver
@[simp] theorem Dev.sendUp_integ_poisonedCrc (d : Dev) (vc : Nat) (r : Rec) : (d.sendUp vc r).integ.poisonedCrc = d.integ.poisonedCrc :=
  (d.sendUp_only vc r).integ_poisonedCrc
@[simp] theorem Dev.sendUp_integ_poisonedFlag (d : Dev) (vc : Nat) (r : Rec) : (d.sendUp vc r).integ.poisonedFlag = d.integ.poisonedFlag :=
  (d.sendUp_only vc r).integ_poisonedFlag
@[simp] theorem Dev.sendUp_integ_walks (d : Dev) (vc : Nat) (r : Rec) : (d.sendUp vc r).integ.walks = d.integ.walks :=
  (d.sendUp_only vc r).integ_walks
@[simp] theorem Dev.sendUp_integ_crossingInjects (d : Dev) (vc : Nat) (r : Rec) : (d.sendUp vc r).integ.crossingInjects = d.integ.crossingInjects :=
  (d.sendUp_only vc r).integ_crossingInjects
@[simp] theorem Dev.sendUp_integ_portInjects (d : Dev) (vc : Nat) (r : Rec) : (d.sendUp vc r).integ.portInjects = d.integ.portInjects :=
  (d.sendUp_only vc r).integ_portInjects

/-! ### `Dev.sendItem` -/

@[simp] theorem Dev.sendItem_sys (d : Dev) (vc : Nat) (recs : List QRec) : (d.sendItem vc recs).sys = d.sys :=
  (d.sendItem_only vc recs).sys
@[simp] theorem Dev.sendItem_cmd (d : Dev) (vc : Nat) (recs : List QRec) : (d.sendItem vc recs).cmd = d.cmd :=
  (d.sendItem_only vc recs).cmd
@[simp] theorem Dev.sendItem_map (d : Dev) (vc : Nat) (recs : List QRec) : (d.sendItem vc recs).map = d.map :=
  (d.sendItem_only vc recs).map
@[simp] theorem Dev.sendItem_fe (d : Dev) (vc : Nat) (recs : List QRec) : (d.sendItem vc recs).fe = d.fe :=
  (d.sendItem_only vc recs).fe
@[simp] theorem Dev.sendItem_wfc (d : Dev) (vc : Nat) (recs : List QRec) : (d.sendItem vc recs).wfc = d.wfc :=
  (d.sendItem_only vc recs).wfc
@[simp] theorem Dev.sendItem_mon (d : Dev) (vc : Nat) (recs : List QRec) : (d.sendItem vc recs).mon = d.mon :=
  (d.sendItem_only vc recs).mon
@[simp] theorem Dev.sendItem_time (d : Dev) (vc : Nat) (recs : List QRec) : (d.sendItem vc recs).time = d.time :=
  (d.sendItem_only vc recs).time
@[simp] theorem Dev.sendItem_tdc (d : Dev) (vc : Nat) (recs : List QRec) : (d.sendItem vc recs).tdc = d.tdc :=
  (d.sendItem_only vc recs).tdc
@[simp] theorem Dev.sendItem_slalom (d : Dev) (vc : Nat) (recs : List QRec) : (d.sendItem vc recs).slalom = d.slalom :=
  (d.sendItem_only vc recs).slalom
@[simp] theorem Dev.sendItem_schuss (d : Dev) (vc : Nat) (recs : List QRec) : (d.sendItem vc recs).schuss = d.schuss :=
  (d.sendItem_only vc recs).schuss
@[simp] theorem Dev.sendItem_acq (d : Dev) (vc : Nat) (recs : List QRec) : (d.sendItem vc recs).acq = d.acq :=
  (d.sendItem_only vc recs).acq
@[simp] theorem Dev.sendItem_cmp (d : Dev) (vc : Nat) (recs : List QRec) : (d.sendItem vc recs).cmp = d.cmp :=
  (d.sendItem_only vc recs).cmp
@[simp] theorem Dev.sendItem_lift (d : Dev) (vc : Nat) (recs : List QRec) : (d.sendItem vc recs).lift = d.lift :=
  (d.sendItem_only vc recs).lift
@[simp] theorem Dev.sendItem_lanes (d : Dev) (vc : Nat) (recs : List QRec) : (d.sendItem vc recs).lanes = d.lanes :=
  (d.sendItem_only vc recs).lanes
@[simp] theorem Dev.sendItem_pair (d : Dev) (vc : Nat) (recs : List QRec) : (d.sendItem vc recs).pair = d.pair :=
  (d.sendItem_only vc recs).pair
@[simp] theorem Dev.sendItem_store (d : Dev) (vc : Nat) (recs : List QRec) : (d.sendItem vc recs).store = d.store :=
  (d.sendItem_only vc recs).store
@[simp] theorem Dev.sendItem_pwr (d : Dev) (vc : Nat) (recs : List QRec) : (d.sendItem vc recs).pwr = d.pwr :=
  (d.sendItem_only vc recs).pwr
@[simp] theorem Dev.sendItem_triad (d : Dev) (vc : Nat) (recs : List QRec) : (d.sendItem vc recs).triad = d.triad :=
  (d.sendItem_only vc recs).triad
@[simp] theorem Dev.sendItem_cal (d : Dev) (vc : Nat) (recs : List QRec) : (d.sendItem vc recs).cal = d.cal :=
  (d.sendItem_only vc recs).cal
@[simp] theorem Dev.sendItem_bist (d : Dev) (vc : Nat) (recs : List QRec) : (d.sendItem vc recs).bist = d.bist :=
  (d.sendItem_only vc recs).bist
@[simp] theorem Dev.sendItem_hmon (d : Dev) (vc : Nat) (recs : List QRec) : (d.sendItem vc recs).hmon = d.hmon :=
  (d.sendItem_only vc recs).hmon
@[simp] theorem Dev.sendItem_fw (d : Dev) (vc : Nat) (recs : List QRec) : (d.sendItem vc recs).fw = d.fw :=
  (d.sendItem_only vc recs).fw
@[simp] theorem Dev.sendItem_integ_log (d : Dev) (vc : Nat) (recs : List QRec) : (d.sendItem vc recs).integ.log = d.integ.log :=
  (d.sendItem_only vc recs).integ_log
@[simp] theorem Dev.sendItem_integ_remap (d : Dev) (vc : Nat) (recs : List QRec) : (d.sendItem vc recs).integ.remap = d.integ.remap :=
  (d.sendItem_only vc recs).integ_remap
@[simp] theorem Dev.sendItem_integ_remapDue (d : Dev) (vc : Nat) (recs : List QRec) : (d.sendItem vc recs).integ.remapDue = d.integ.remapDue :=
  (d.sendItem_only vc recs).integ_remapDue
@[simp] theorem Dev.sendItem_integ_listDue (d : Dev) (vc : Nat) (recs : List QRec) : (d.sendItem vc recs).integ.listDue = d.integ.listDue :=
  (d.sendItem_only vc recs).integ_listDue
@[simp] theorem Dev.sendItem_integ_histories (d : Dev) (vc : Nat) (recs : List QRec) : (d.sendItem vc recs).integ.histories = d.integ.histories :=
  (d.sendItem_only vc recs).integ_histories
@[simp] theorem Dev.sendItem_integ_memCounts (d : Dev) (vc : Nat) (recs : List QRec) : (d.sendItem vc recs).integ.memCounts = d.integ.memCounts :=
  (d.sendItem_only vc recs).integ_memCounts
@[simp] theorem Dev.sendItem_integ_parity (d : Dev) (vc : Nat) (recs : List QRec) : (d.sendItem vc recs).integ.parity = d.integ.parity :=
  (d.sendItem_only vc recs).integ_parity
@[simp] theorem Dev.sendItem_integ_handOver (d : Dev) (vc : Nat) (recs : List QRec) : (d.sendItem vc recs).integ.handOver = d.integ.handOver :=
  (d.sendItem_only vc recs).integ_handOver
@[simp] theorem Dev.sendItem_integ_poisonedCrc (d : Dev) (vc : Nat) (recs : List QRec) : (d.sendItem vc recs).integ.poisonedCrc = d.integ.poisonedCrc :=
  (d.sendItem_only vc recs).integ_poisonedCrc
@[simp] theorem Dev.sendItem_integ_poisonedFlag (d : Dev) (vc : Nat) (recs : List QRec) : (d.sendItem vc recs).integ.poisonedFlag = d.integ.poisonedFlag :=
  (d.sendItem_only vc recs).integ_poisonedFlag
@[simp] theorem Dev.sendItem_integ_walks (d : Dev) (vc : Nat) (recs : List QRec) : (d.sendItem vc recs).integ.walks = d.integ.walks :=
  (d.sendItem_only vc recs).integ_walks
@[simp] theorem Dev.sendItem_integ_crossingInjects (d : Dev) (vc : Nat) (recs : List QRec) : (d.sendItem vc recs).integ.crossingInjects = d.integ.crossingInjects :=
  (d.sendItem_only vc recs).integ_crossingInjects
@[simp] theorem Dev.sendItem_integ_portInjects (d : Dev) (vc : Nat) (recs : List QRec) : (d.sendItem vc recs).integ.portInjects = d.integ.portInjects :=
  (d.sendItem_only vc recs).integ_portInjects

/-! ### `Dev.sendReturn` -/

@[simp] theorem Dev.sendReturn_sys (d : Dev) (a p v : Nat) : (d.sendReturn a p v).sys = d.sys :=
  (d.sendReturn_only a p v).sys
@[simp] theorem Dev.sendReturn_cmd (d : Dev) (a p v : Nat) : (d.sendReturn a p v).cmd = d.cmd :=
  (d.sendReturn_only a p v).cmd
@[simp] theorem Dev.sendReturn_map (d : Dev) (a p v : Nat) : (d.sendReturn a p v).map = d.map :=
  (d.sendReturn_only a p v).map
@[simp] theorem Dev.sendReturn_fe (d : Dev) (a p v : Nat) : (d.sendReturn a p v).fe = d.fe :=
  (d.sendReturn_only a p v).fe
@[simp] theorem Dev.sendReturn_wfc (d : Dev) (a p v : Nat) : (d.sendReturn a p v).wfc = d.wfc :=
  (d.sendReturn_only a p v).wfc
@[simp] theorem Dev.sendReturn_mon (d : Dev) (a p v : Nat) : (d.sendReturn a p v).mon = d.mon :=
  (d.sendReturn_only a p v).mon
@[simp] theorem Dev.sendReturn_time (d : Dev) (a p v : Nat) : (d.sendReturn a p v).time = d.time :=
  (d.sendReturn_only a p v).time
@[simp] theorem Dev.sendReturn_tdc (d : Dev) (a p v : Nat) : (d.sendReturn a p v).tdc = d.tdc :=
  (d.sendReturn_only a p v).tdc
@[simp] theorem Dev.sendReturn_slalom (d : Dev) (a p v : Nat) : (d.sendReturn a p v).slalom = d.slalom :=
  (d.sendReturn_only a p v).slalom
@[simp] theorem Dev.sendReturn_schuss (d : Dev) (a p v : Nat) : (d.sendReturn a p v).schuss = d.schuss :=
  (d.sendReturn_only a p v).schuss
@[simp] theorem Dev.sendReturn_acq (d : Dev) (a p v : Nat) : (d.sendReturn a p v).acq = d.acq :=
  (d.sendReturn_only a p v).acq
@[simp] theorem Dev.sendReturn_cmp (d : Dev) (a p v : Nat) : (d.sendReturn a p v).cmp = d.cmp :=
  (d.sendReturn_only a p v).cmp
@[simp] theorem Dev.sendReturn_lift (d : Dev) (a p v : Nat) : (d.sendReturn a p v).lift = d.lift :=
  (d.sendReturn_only a p v).lift
@[simp] theorem Dev.sendReturn_lanes (d : Dev) (a p v : Nat) : (d.sendReturn a p v).lanes = d.lanes :=
  (d.sendReturn_only a p v).lanes
@[simp] theorem Dev.sendReturn_pair (d : Dev) (a p v : Nat) : (d.sendReturn a p v).pair = d.pair :=
  (d.sendReturn_only a p v).pair
@[simp] theorem Dev.sendReturn_store (d : Dev) (a p v : Nat) : (d.sendReturn a p v).store = d.store :=
  (d.sendReturn_only a p v).store
@[simp] theorem Dev.sendReturn_pwr (d : Dev) (a p v : Nat) : (d.sendReturn a p v).pwr = d.pwr :=
  (d.sendReturn_only a p v).pwr
@[simp] theorem Dev.sendReturn_triad (d : Dev) (a p v : Nat) : (d.sendReturn a p v).triad = d.triad :=
  (d.sendReturn_only a p v).triad
@[simp] theorem Dev.sendReturn_cal (d : Dev) (a p v : Nat) : (d.sendReturn a p v).cal = d.cal :=
  (d.sendReturn_only a p v).cal
@[simp] theorem Dev.sendReturn_bist (d : Dev) (a p v : Nat) : (d.sendReturn a p v).bist = d.bist :=
  (d.sendReturn_only a p v).bist
@[simp] theorem Dev.sendReturn_hmon (d : Dev) (a p v : Nat) : (d.sendReturn a p v).hmon = d.hmon :=
  (d.sendReturn_only a p v).hmon
@[simp] theorem Dev.sendReturn_fw (d : Dev) (a p v : Nat) : (d.sendReturn a p v).fw = d.fw :=
  (d.sendReturn_only a p v).fw
@[simp] theorem Dev.sendReturn_integ_log (d : Dev) (a p v : Nat) : (d.sendReturn a p v).integ.log = d.integ.log :=
  (d.sendReturn_only a p v).integ_log
@[simp] theorem Dev.sendReturn_integ_remap (d : Dev) (a p v : Nat) : (d.sendReturn a p v).integ.remap = d.integ.remap :=
  (d.sendReturn_only a p v).integ_remap
@[simp] theorem Dev.sendReturn_integ_remapDue (d : Dev) (a p v : Nat) : (d.sendReturn a p v).integ.remapDue = d.integ.remapDue :=
  (d.sendReturn_only a p v).integ_remapDue
@[simp] theorem Dev.sendReturn_integ_listDue (d : Dev) (a p v : Nat) : (d.sendReturn a p v).integ.listDue = d.integ.listDue :=
  (d.sendReturn_only a p v).integ_listDue
@[simp] theorem Dev.sendReturn_integ_histories (d : Dev) (a p v : Nat) : (d.sendReturn a p v).integ.histories = d.integ.histories :=
  (d.sendReturn_only a p v).integ_histories
@[simp] theorem Dev.sendReturn_integ_memCounts (d : Dev) (a p v : Nat) : (d.sendReturn a p v).integ.memCounts = d.integ.memCounts :=
  (d.sendReturn_only a p v).integ_memCounts
@[simp] theorem Dev.sendReturn_integ_parity (d : Dev) (a p v : Nat) : (d.sendReturn a p v).integ.parity = d.integ.parity :=
  (d.sendReturn_only a p v).integ_parity
@[simp] theorem Dev.sendReturn_integ_handOver (d : Dev) (a p v : Nat) : (d.sendReturn a p v).integ.handOver = d.integ.handOver :=
  (d.sendReturn_only a p v).integ_handOver
@[simp] theorem Dev.sendReturn_integ_poisonedCrc (d : Dev) (a p v : Nat) : (d.sendReturn a p v).integ.poisonedCrc = d.integ.poisonedCrc :=
  (d.sendReturn_only a p v).integ_poisonedCrc
@[simp] theorem Dev.sendReturn_integ_poisonedFlag (d : Dev) (a p v : Nat) : (d.sendReturn a p v).integ.poisonedFlag = d.integ.poisonedFlag :=
  (d.sendReturn_only a p v).integ_poisonedFlag
@[simp] theorem Dev.sendReturn_integ_walks (d : Dev) (a p v : Nat) : (d.sendReturn a p v).integ.walks = d.integ.walks :=
  (d.sendReturn_only a p v).integ_walks
@[simp] theorem Dev.sendReturn_integ_crossingInjects (d : Dev) (a p v : Nat) : (d.sendReturn a p v).integ.crossingInjects = d.integ.crossingInjects :=
  (d.sendReturn_only a p v).integ_crossingInjects
@[simp] theorem Dev.sendReturn_integ_portInjects (d : Dev) (a p v : Nat) : (d.sendReturn a p v).integ.portInjects = d.integ.portInjects :=
  (d.sendReturn_only a p v).integ_portInjects

/-! ### `Dev.returnPasses` -/

@[simp] theorem Dev.returnPasses_sys (d : Dev) (a p v n : Nat) : (d.returnPasses a p v n).sys = d.sys :=
  (d.returnPasses_only a p v n).sys
@[simp] theorem Dev.returnPasses_cmd (d : Dev) (a p v n : Nat) : (d.returnPasses a p v n).cmd = d.cmd :=
  (d.returnPasses_only a p v n).cmd
@[simp] theorem Dev.returnPasses_map (d : Dev) (a p v n : Nat) : (d.returnPasses a p v n).map = d.map :=
  (d.returnPasses_only a p v n).map
@[simp] theorem Dev.returnPasses_fe (d : Dev) (a p v n : Nat) : (d.returnPasses a p v n).fe = d.fe :=
  (d.returnPasses_only a p v n).fe
@[simp] theorem Dev.returnPasses_wfc (d : Dev) (a p v n : Nat) : (d.returnPasses a p v n).wfc = d.wfc :=
  (d.returnPasses_only a p v n).wfc
@[simp] theorem Dev.returnPasses_mon (d : Dev) (a p v n : Nat) : (d.returnPasses a p v n).mon = d.mon :=
  (d.returnPasses_only a p v n).mon
@[simp] theorem Dev.returnPasses_time (d : Dev) (a p v n : Nat) : (d.returnPasses a p v n).time = d.time :=
  (d.returnPasses_only a p v n).time
@[simp] theorem Dev.returnPasses_tdc (d : Dev) (a p v n : Nat) : (d.returnPasses a p v n).tdc = d.tdc :=
  (d.returnPasses_only a p v n).tdc
@[simp] theorem Dev.returnPasses_slalom (d : Dev) (a p v n : Nat) : (d.returnPasses a p v n).slalom = d.slalom :=
  (d.returnPasses_only a p v n).slalom
@[simp] theorem Dev.returnPasses_schuss (d : Dev) (a p v n : Nat) : (d.returnPasses a p v n).schuss = d.schuss :=
  (d.returnPasses_only a p v n).schuss
@[simp] theorem Dev.returnPasses_acq (d : Dev) (a p v n : Nat) : (d.returnPasses a p v n).acq = d.acq :=
  (d.returnPasses_only a p v n).acq
@[simp] theorem Dev.returnPasses_cmp (d : Dev) (a p v n : Nat) : (d.returnPasses a p v n).cmp = d.cmp :=
  (d.returnPasses_only a p v n).cmp
@[simp] theorem Dev.returnPasses_lift (d : Dev) (a p v n : Nat) : (d.returnPasses a p v n).lift = d.lift :=
  (d.returnPasses_only a p v n).lift
@[simp] theorem Dev.returnPasses_lanes (d : Dev) (a p v n : Nat) : (d.returnPasses a p v n).lanes = d.lanes :=
  (d.returnPasses_only a p v n).lanes
@[simp] theorem Dev.returnPasses_pair (d : Dev) (a p v n : Nat) : (d.returnPasses a p v n).pair = d.pair :=
  (d.returnPasses_only a p v n).pair
@[simp] theorem Dev.returnPasses_store (d : Dev) (a p v n : Nat) : (d.returnPasses a p v n).store = d.store :=
  (d.returnPasses_only a p v n).store
@[simp] theorem Dev.returnPasses_pwr (d : Dev) (a p v n : Nat) : (d.returnPasses a p v n).pwr = d.pwr :=
  (d.returnPasses_only a p v n).pwr
@[simp] theorem Dev.returnPasses_triad (d : Dev) (a p v n : Nat) : (d.returnPasses a p v n).triad = d.triad :=
  (d.returnPasses_only a p v n).triad
@[simp] theorem Dev.returnPasses_cal (d : Dev) (a p v n : Nat) : (d.returnPasses a p v n).cal = d.cal :=
  (d.returnPasses_only a p v n).cal
@[simp] theorem Dev.returnPasses_bist (d : Dev) (a p v n : Nat) : (d.returnPasses a p v n).bist = d.bist :=
  (d.returnPasses_only a p v n).bist
@[simp] theorem Dev.returnPasses_hmon (d : Dev) (a p v n : Nat) : (d.returnPasses a p v n).hmon = d.hmon :=
  (d.returnPasses_only a p v n).hmon
@[simp] theorem Dev.returnPasses_fw (d : Dev) (a p v n : Nat) : (d.returnPasses a p v n).fw = d.fw :=
  (d.returnPasses_only a p v n).fw
@[simp] theorem Dev.returnPasses_integ_log (d : Dev) (a p v n : Nat) : (d.returnPasses a p v n).integ.log = d.integ.log :=
  (d.returnPasses_only a p v n).integ_log
@[simp] theorem Dev.returnPasses_integ_remap (d : Dev) (a p v n : Nat) : (d.returnPasses a p v n).integ.remap = d.integ.remap :=
  (d.returnPasses_only a p v n).integ_remap
@[simp] theorem Dev.returnPasses_integ_remapDue (d : Dev) (a p v n : Nat) : (d.returnPasses a p v n).integ.remapDue = d.integ.remapDue :=
  (d.returnPasses_only a p v n).integ_remapDue
@[simp] theorem Dev.returnPasses_integ_listDue (d : Dev) (a p v n : Nat) : (d.returnPasses a p v n).integ.listDue = d.integ.listDue :=
  (d.returnPasses_only a p v n).integ_listDue
@[simp] theorem Dev.returnPasses_integ_histories (d : Dev) (a p v n : Nat) : (d.returnPasses a p v n).integ.histories = d.integ.histories :=
  (d.returnPasses_only a p v n).integ_histories
@[simp] theorem Dev.returnPasses_integ_memCounts (d : Dev) (a p v n : Nat) : (d.returnPasses a p v n).integ.memCounts = d.integ.memCounts :=
  (d.returnPasses_only a p v n).integ_memCounts
@[simp] theorem Dev.returnPasses_integ_parity (d : Dev) (a p v n : Nat) : (d.returnPasses a p v n).integ.parity = d.integ.parity :=
  (d.returnPasses_only a p v n).integ_parity
@[simp] theorem Dev.returnPasses_integ_handOver (d : Dev) (a p v n : Nat) : (d.returnPasses a p v n).integ.handOver = d.integ.handOver :=
  (d.returnPasses_only a p v n).integ_handOver
@[simp] theorem Dev.returnPasses_integ_poisonedCrc (d : Dev) (a p v n : Nat) : (d.returnPasses a p v n).integ.poisonedCrc = d.integ.poisonedCrc :=
  (d.returnPasses_only a p v n).integ_poisonedCrc
@[simp] theorem Dev.returnPasses_integ_poisonedFlag (d : Dev) (a p v n : Nat) : (d.returnPasses a p v n).integ.poisonedFlag = d.integ.poisonedFlag :=
  (d.returnPasses_only a p v n).integ_poisonedFlag
@[simp] theorem Dev.returnPasses_integ_walks (d : Dev) (a p v n : Nat) : (d.returnPasses a p v n).integ.walks = d.integ.walks :=
  (d.returnPasses_only a p v n).integ_walks
@[simp] theorem Dev.returnPasses_integ_crossingInjects (d : Dev) (a p v n : Nat) : (d.returnPasses a p v n).integ.crossingInjects = d.integ.crossingInjects :=
  (d.returnPasses_only a p v n).integ_crossingInjects
@[simp] theorem Dev.returnPasses_integ_portInjects (d : Dev) (a p v n : Nat) : (d.returnPasses a p v n).integ.portInjects = d.integ.portInjects :=
  (d.returnPasses_only a p v n).integ_portInjects

/-! ### `Dev.releaseRec` -/

@[simp] theorem Dev.releaseRec_sys (d : Dev) (q : QRec) : (d.releaseRec q).sys = d.sys :=
  (d.releaseRec_only q).sys
@[simp] theorem Dev.releaseRec_cmd (d : Dev) (q : QRec) : (d.releaseRec q).cmd = d.cmd :=
  (d.releaseRec_only q).cmd
@[simp] theorem Dev.releaseRec_map (d : Dev) (q : QRec) : (d.releaseRec q).map = d.map :=
  (d.releaseRec_only q).map
@[simp] theorem Dev.releaseRec_fe (d : Dev) (q : QRec) : (d.releaseRec q).fe = d.fe :=
  (d.releaseRec_only q).fe
@[simp] theorem Dev.releaseRec_wfc (d : Dev) (q : QRec) : (d.releaseRec q).wfc = d.wfc :=
  (d.releaseRec_only q).wfc
@[simp] theorem Dev.releaseRec_mon (d : Dev) (q : QRec) : (d.releaseRec q).mon = d.mon :=
  (d.releaseRec_only q).mon
@[simp] theorem Dev.releaseRec_time (d : Dev) (q : QRec) : (d.releaseRec q).time = d.time :=
  (d.releaseRec_only q).time
@[simp] theorem Dev.releaseRec_tdc (d : Dev) (q : QRec) : (d.releaseRec q).tdc = d.tdc :=
  (d.releaseRec_only q).tdc
@[simp] theorem Dev.releaseRec_slalom (d : Dev) (q : QRec) : (d.releaseRec q).slalom = d.slalom :=
  (d.releaseRec_only q).slalom
@[simp] theorem Dev.releaseRec_schuss (d : Dev) (q : QRec) : (d.releaseRec q).schuss = d.schuss :=
  (d.releaseRec_only q).schuss
@[simp] theorem Dev.releaseRec_acq (d : Dev) (q : QRec) : (d.releaseRec q).acq = d.acq :=
  (d.releaseRec_only q).acq
@[simp] theorem Dev.releaseRec_cmp (d : Dev) (q : QRec) : (d.releaseRec q).cmp = d.cmp :=
  (d.releaseRec_only q).cmp
@[simp] theorem Dev.releaseRec_lift (d : Dev) (q : QRec) : (d.releaseRec q).lift = d.lift :=
  (d.releaseRec_only q).lift
@[simp] theorem Dev.releaseRec_lanes (d : Dev) (q : QRec) : (d.releaseRec q).lanes = d.lanes :=
  (d.releaseRec_only q).lanes
@[simp] theorem Dev.releaseRec_pair (d : Dev) (q : QRec) : (d.releaseRec q).pair = d.pair :=
  (d.releaseRec_only q).pair
@[simp] theorem Dev.releaseRec_store (d : Dev) (q : QRec) : (d.releaseRec q).store = d.store :=
  (d.releaseRec_only q).store
@[simp] theorem Dev.releaseRec_pwr (d : Dev) (q : QRec) : (d.releaseRec q).pwr = d.pwr :=
  (d.releaseRec_only q).pwr
@[simp] theorem Dev.releaseRec_triad (d : Dev) (q : QRec) : (d.releaseRec q).triad = d.triad :=
  (d.releaseRec_only q).triad
@[simp] theorem Dev.releaseRec_cal (d : Dev) (q : QRec) : (d.releaseRec q).cal = d.cal :=
  (d.releaseRec_only q).cal
@[simp] theorem Dev.releaseRec_bist (d : Dev) (q : QRec) : (d.releaseRec q).bist = d.bist :=
  (d.releaseRec_only q).bist
@[simp] theorem Dev.releaseRec_hmon (d : Dev) (q : QRec) : (d.releaseRec q).hmon = d.hmon :=
  (d.releaseRec_only q).hmon
@[simp] theorem Dev.releaseRec_fw (d : Dev) (q : QRec) : (d.releaseRec q).fw = d.fw :=
  (d.releaseRec_only q).fw
@[simp] theorem Dev.releaseRec_integ_log (d : Dev) (q : QRec) : (d.releaseRec q).integ.log = d.integ.log :=
  (d.releaseRec_only q).integ_log
@[simp] theorem Dev.releaseRec_integ_remap (d : Dev) (q : QRec) : (d.releaseRec q).integ.remap = d.integ.remap :=
  (d.releaseRec_only q).integ_remap
@[simp] theorem Dev.releaseRec_integ_remapDue (d : Dev) (q : QRec) : (d.releaseRec q).integ.remapDue = d.integ.remapDue :=
  (d.releaseRec_only q).integ_remapDue
@[simp] theorem Dev.releaseRec_integ_listDue (d : Dev) (q : QRec) : (d.releaseRec q).integ.listDue = d.integ.listDue :=
  (d.releaseRec_only q).integ_listDue
@[simp] theorem Dev.releaseRec_integ_histories (d : Dev) (q : QRec) : (d.releaseRec q).integ.histories = d.integ.histories :=
  (d.releaseRec_only q).integ_histories
@[simp] theorem Dev.releaseRec_integ_memCounts (d : Dev) (q : QRec) : (d.releaseRec q).integ.memCounts = d.integ.memCounts :=
  (d.releaseRec_only q).integ_memCounts
@[simp] theorem Dev.releaseRec_integ_parity (d : Dev) (q : QRec) : (d.releaseRec q).integ.parity = d.integ.parity :=
  (d.releaseRec_only q).integ_parity
@[simp] theorem Dev.releaseRec_integ_handOver (d : Dev) (q : QRec) : (d.releaseRec q).integ.handOver = d.integ.handOver :=
  (d.releaseRec_only q).integ_handOver
@[simp] theorem Dev.releaseRec_integ_poisonedCrc (d : Dev) (q : QRec) : (d.releaseRec q).integ.poisonedCrc = d.integ.poisonedCrc :=
  (d.releaseRec_only q).integ_poisonedCrc
@[simp] theorem Dev.releaseRec_integ_poisonedFlag (d : Dev) (q : QRec) : (d.releaseRec q).integ.poisonedFlag = d.integ.poisonedFlag :=
  (d.releaseRec_only q).integ_poisonedFlag
@[simp] theorem Dev.releaseRec_integ_walks (d : Dev) (q : QRec) : (d.releaseRec q).integ.walks = d.integ.walks :=
  (d.releaseRec_only q).integ_walks
@[simp] theorem Dev.releaseRec_integ_crossingInjects (d : Dev) (q : QRec) : (d.releaseRec q).integ.crossingInjects = d.integ.crossingInjects :=
  (d.releaseRec_only q).integ_crossingInjects
@[simp] theorem Dev.releaseRec_integ_portInjects (d : Dev) (q : QRec) : (d.releaseRec q).integ.portInjects = d.integ.portInjects :=
  (d.releaseRec_only q).integ_portInjects

/-! ### `Dev.holdEvents` -/

@[simp] theorem Dev.holdEvents_sys (d : Dev)  : d.holdEvents.sys = d.sys :=
  (d.holdEvents_only).sys
@[simp] theorem Dev.holdEvents_cmd (d : Dev)  : d.holdEvents.cmd = d.cmd :=
  (d.holdEvents_only).cmd
@[simp] theorem Dev.holdEvents_map (d : Dev)  : d.holdEvents.map = d.map :=
  (d.holdEvents_only).map
@[simp] theorem Dev.holdEvents_fe (d : Dev)  : d.holdEvents.fe = d.fe :=
  (d.holdEvents_only).fe
@[simp] theorem Dev.holdEvents_wfc (d : Dev)  : d.holdEvents.wfc = d.wfc :=
  (d.holdEvents_only).wfc
@[simp] theorem Dev.holdEvents_mon (d : Dev)  : d.holdEvents.mon = d.mon :=
  (d.holdEvents_only).mon
@[simp] theorem Dev.holdEvents_time (d : Dev)  : d.holdEvents.time = d.time :=
  (d.holdEvents_only).time
@[simp] theorem Dev.holdEvents_tdc (d : Dev)  : d.holdEvents.tdc = d.tdc :=
  (d.holdEvents_only).tdc
@[simp] theorem Dev.holdEvents_slalom (d : Dev)  : d.holdEvents.slalom = d.slalom :=
  (d.holdEvents_only).slalom
@[simp] theorem Dev.holdEvents_schuss (d : Dev)  : d.holdEvents.schuss = d.schuss :=
  (d.holdEvents_only).schuss
@[simp] theorem Dev.holdEvents_acq (d : Dev)  : d.holdEvents.acq = d.acq :=
  (d.holdEvents_only).acq
@[simp] theorem Dev.holdEvents_cmp (d : Dev)  : d.holdEvents.cmp = d.cmp :=
  (d.holdEvents_only).cmp
@[simp] theorem Dev.holdEvents_lift (d : Dev)  : d.holdEvents.lift = d.lift :=
  (d.holdEvents_only).lift
@[simp] theorem Dev.holdEvents_lanes (d : Dev)  : d.holdEvents.lanes = d.lanes :=
  (d.holdEvents_only).lanes
@[simp] theorem Dev.holdEvents_pair (d : Dev)  : d.holdEvents.pair = d.pair :=
  (d.holdEvents_only).pair
@[simp] theorem Dev.holdEvents_store (d : Dev)  : d.holdEvents.store = d.store :=
  (d.holdEvents_only).store
@[simp] theorem Dev.holdEvents_pwr (d : Dev)  : d.holdEvents.pwr = d.pwr :=
  (d.holdEvents_only).pwr
@[simp] theorem Dev.holdEvents_triad (d : Dev)  : d.holdEvents.triad = d.triad :=
  (d.holdEvents_only).triad
@[simp] theorem Dev.holdEvents_cal (d : Dev)  : d.holdEvents.cal = d.cal :=
  (d.holdEvents_only).cal
@[simp] theorem Dev.holdEvents_bist (d : Dev)  : d.holdEvents.bist = d.bist :=
  (d.holdEvents_only).bist
@[simp] theorem Dev.holdEvents_hmon (d : Dev)  : d.holdEvents.hmon = d.hmon :=
  (d.holdEvents_only).hmon
@[simp] theorem Dev.holdEvents_fw (d : Dev)  : d.holdEvents.fw = d.fw :=
  (d.holdEvents_only).fw
@[simp] theorem Dev.holdEvents_integ_log (d : Dev)  : d.holdEvents.integ.log = d.integ.log :=
  (d.holdEvents_only).integ_log
@[simp] theorem Dev.holdEvents_integ_remap (d : Dev)  : d.holdEvents.integ.remap = d.integ.remap :=
  (d.holdEvents_only).integ_remap
@[simp] theorem Dev.holdEvents_integ_remapDue (d : Dev)  : d.holdEvents.integ.remapDue = d.integ.remapDue :=
  (d.holdEvents_only).integ_remapDue
@[simp] theorem Dev.holdEvents_integ_listDue (d : Dev)  : d.holdEvents.integ.listDue = d.integ.listDue :=
  (d.holdEvents_only).integ_listDue
@[simp] theorem Dev.holdEvents_integ_histories (d : Dev)  : d.holdEvents.integ.histories = d.integ.histories :=
  (d.holdEvents_only).integ_histories
@[simp] theorem Dev.holdEvents_integ_memCounts (d : Dev)  : d.holdEvents.integ.memCounts = d.integ.memCounts :=
  (d.holdEvents_only).integ_memCounts
@[simp] theorem Dev.holdEvents_integ_parity (d : Dev)  : d.holdEvents.integ.parity = d.integ.parity :=
  (d.holdEvents_only).integ_parity
@[simp] theorem Dev.holdEvents_integ_handOver (d : Dev)  : d.holdEvents.integ.handOver = d.integ.handOver :=
  (d.holdEvents_only).integ_handOver
@[simp] theorem Dev.holdEvents_integ_poisonedCrc (d : Dev)  : d.holdEvents.integ.poisonedCrc = d.integ.poisonedCrc :=
  (d.holdEvents_only).integ_poisonedCrc
@[simp] theorem Dev.holdEvents_integ_poisonedFlag (d : Dev)  : d.holdEvents.integ.poisonedFlag = d.integ.poisonedFlag :=
  (d.holdEvents_only).integ_poisonedFlag
@[simp] theorem Dev.holdEvents_integ_walks (d : Dev)  : d.holdEvents.integ.walks = d.integ.walks :=
  (d.holdEvents_only).integ_walks
@[simp] theorem Dev.holdEvents_integ_crossingInjects (d : Dev)  : d.holdEvents.integ.crossingInjects = d.integ.crossingInjects :=
  (d.holdEvents_only).integ_crossingInjects
@[simp] theorem Dev.holdEvents_integ_portInjects (d : Dev)  : d.holdEvents.integ.portInjects = d.integ.portInjects :=
  (d.holdEvents_only).integ_portInjects

/-! ### `Dev.releaseEvents` -/

@[simp] theorem Dev.releaseEvents_sys (d : Dev)  : d.releaseEvents.sys = d.sys :=
  (d.releaseEvents_only).sys
@[simp] theorem Dev.releaseEvents_cmd (d : Dev)  : d.releaseEvents.cmd = d.cmd :=
  (d.releaseEvents_only).cmd
@[simp] theorem Dev.releaseEvents_map (d : Dev)  : d.releaseEvents.map = d.map :=
  (d.releaseEvents_only).map
@[simp] theorem Dev.releaseEvents_fe (d : Dev)  : d.releaseEvents.fe = d.fe :=
  (d.releaseEvents_only).fe
@[simp] theorem Dev.releaseEvents_wfc (d : Dev)  : d.releaseEvents.wfc = d.wfc :=
  (d.releaseEvents_only).wfc
@[simp] theorem Dev.releaseEvents_mon (d : Dev)  : d.releaseEvents.mon = d.mon :=
  (d.releaseEvents_only).mon
@[simp] theorem Dev.releaseEvents_time (d : Dev)  : d.releaseEvents.time = d.time :=
  (d.releaseEvents_only).time
@[simp] theorem Dev.releaseEvents_tdc (d : Dev)  : d.releaseEvents.tdc = d.tdc :=
  (d.releaseEvents_only).tdc
@[simp] theorem Dev.releaseEvents_slalom (d : Dev)  : d.releaseEvents.slalom = d.slalom :=
  (d.releaseEvents_only).slalom
@[simp] theorem Dev.releaseEvents_schuss (d : Dev)  : d.releaseEvents.schuss = d.schuss :=
  (d.releaseEvents_only).schuss
@[simp] theorem Dev.releaseEvents_acq (d : Dev)  : d.releaseEvents.acq = d.acq :=
  (d.releaseEvents_only).acq
@[simp] theorem Dev.releaseEvents_cmp (d : Dev)  : d.releaseEvents.cmp = d.cmp :=
  (d.releaseEvents_only).cmp
@[simp] theorem Dev.releaseEvents_lift (d : Dev)  : d.releaseEvents.lift = d.lift :=
  (d.releaseEvents_only).lift
@[simp] theorem Dev.releaseEvents_lanes (d : Dev)  : d.releaseEvents.lanes = d.lanes :=
  (d.releaseEvents_only).lanes
@[simp] theorem Dev.releaseEvents_pair (d : Dev)  : d.releaseEvents.pair = d.pair :=
  (d.releaseEvents_only).pair
@[simp] theorem Dev.releaseEvents_store (d : Dev)  : d.releaseEvents.store = d.store :=
  (d.releaseEvents_only).store
@[simp] theorem Dev.releaseEvents_pwr (d : Dev)  : d.releaseEvents.pwr = d.pwr :=
  (d.releaseEvents_only).pwr
@[simp] theorem Dev.releaseEvents_triad (d : Dev)  : d.releaseEvents.triad = d.triad :=
  (d.releaseEvents_only).triad
@[simp] theorem Dev.releaseEvents_cal (d : Dev)  : d.releaseEvents.cal = d.cal :=
  (d.releaseEvents_only).cal
@[simp] theorem Dev.releaseEvents_bist (d : Dev)  : d.releaseEvents.bist = d.bist :=
  (d.releaseEvents_only).bist
@[simp] theorem Dev.releaseEvents_hmon (d : Dev)  : d.releaseEvents.hmon = d.hmon :=
  (d.releaseEvents_only).hmon
@[simp] theorem Dev.releaseEvents_fw (d : Dev)  : d.releaseEvents.fw = d.fw :=
  (d.releaseEvents_only).fw
@[simp] theorem Dev.releaseEvents_integ_log (d : Dev)  : d.releaseEvents.integ.log = d.integ.log :=
  (d.releaseEvents_only).integ_log
@[simp] theorem Dev.releaseEvents_integ_remap (d : Dev)  : d.releaseEvents.integ.remap = d.integ.remap :=
  (d.releaseEvents_only).integ_remap
@[simp] theorem Dev.releaseEvents_integ_remapDue (d : Dev)  : d.releaseEvents.integ.remapDue = d.integ.remapDue :=
  (d.releaseEvents_only).integ_remapDue
@[simp] theorem Dev.releaseEvents_integ_listDue (d : Dev)  : d.releaseEvents.integ.listDue = d.integ.listDue :=
  (d.releaseEvents_only).integ_listDue
@[simp] theorem Dev.releaseEvents_integ_histories (d : Dev)  : d.releaseEvents.integ.histories = d.integ.histories :=
  (d.releaseEvents_only).integ_histories
@[simp] theorem Dev.releaseEvents_integ_memCounts (d : Dev)  : d.releaseEvents.integ.memCounts = d.integ.memCounts :=
  (d.releaseEvents_only).integ_memCounts
@[simp] theorem Dev.releaseEvents_integ_parity (d : Dev)  : d.releaseEvents.integ.parity = d.integ.parity :=
  (d.releaseEvents_only).integ_parity
@[simp] theorem Dev.releaseEvents_integ_handOver (d : Dev)  : d.releaseEvents.integ.handOver = d.integ.handOver :=
  (d.releaseEvents_only).integ_handOver
@[simp] theorem Dev.releaseEvents_integ_poisonedCrc (d : Dev)  : d.releaseEvents.integ.poisonedCrc = d.integ.poisonedCrc :=
  (d.releaseEvents_only).integ_poisonedCrc
@[simp] theorem Dev.releaseEvents_integ_poisonedFlag (d : Dev)  : d.releaseEvents.integ.poisonedFlag = d.integ.poisonedFlag :=
  (d.releaseEvents_only).integ_poisonedFlag
@[simp] theorem Dev.releaseEvents_integ_walks (d : Dev)  : d.releaseEvents.integ.walks = d.integ.walks :=
  (d.releaseEvents_only).integ_walks
@[simp] theorem Dev.releaseEvents_integ_crossingInjects (d : Dev)  : d.releaseEvents.integ.crossingInjects = d.integ.crossingInjects :=
  (d.releaseEvents_only).integ_crossingInjects
@[simp] theorem Dev.releaseEvents_integ_portInjects (d : Dev)  : d.releaseEvents.integ.portInjects = d.integ.portInjects :=
  (d.releaseEvents_only).integ_portInjects

/-! ### `Dev.finish` -/

@[simp] theorem Dev.finish_sys (d : Dev) (c : Ctx) (st : Status) (data : List Byte) : (d.finish c st data).sys = d.sys :=
  (d.finish_only c st data).sys
@[simp] theorem Dev.finish_cmd (d : Dev) (c : Ctx) (st : Status) (data : List Byte) : (d.finish c st data).cmd = ((d.endFlight c.header c.opcode).countAnswer (finalStatus c st)).cmd :=
  (d.finish_only c st data).cmd
@[simp] theorem Dev.finish_map (d : Dev) (c : Ctx) (st : Status) (data : List Byte) : (d.finish c st data).map = d.map :=
  (d.finish_only c st data).map
@[simp] theorem Dev.finish_fe (d : Dev) (c : Ctx) (st : Status) (data : List Byte) : (d.finish c st data).fe = d.fe :=
  (d.finish_only c st data).fe
@[simp] theorem Dev.finish_wfc (d : Dev) (c : Ctx) (st : Status) (data : List Byte) : (d.finish c st data).wfc = d.wfc :=
  (d.finish_only c st data).wfc
@[simp] theorem Dev.finish_mon (d : Dev) (c : Ctx) (st : Status) (data : List Byte) : (d.finish c st data).mon = d.mon :=
  (d.finish_only c st data).mon
@[simp] theorem Dev.finish_time (d : Dev) (c : Ctx) (st : Status) (data : List Byte) : (d.finish c st data).time = d.time :=
  (d.finish_only c st data).time
@[simp] theorem Dev.finish_tdc (d : Dev) (c : Ctx) (st : Status) (data : List Byte) : (d.finish c st data).tdc = d.tdc :=
  (d.finish_only c st data).tdc
@[simp] theorem Dev.finish_slalom (d : Dev) (c : Ctx) (st : Status) (data : List Byte) : (d.finish c st data).slalom = d.slalom :=
  (d.finish_only c st data).slalom
@[simp] theorem Dev.finish_schuss (d : Dev) (c : Ctx) (st : Status) (data : List Byte) : (d.finish c st data).schuss = d.schuss :=
  (d.finish_only c st data).schuss
@[simp] theorem Dev.finish_acq (d : Dev) (c : Ctx) (st : Status) (data : List Byte) : (d.finish c st data).acq = d.acq :=
  (d.finish_only c st data).acq
@[simp] theorem Dev.finish_cmp (d : Dev) (c : Ctx) (st : Status) (data : List Byte) : (d.finish c st data).cmp = d.cmp :=
  (d.finish_only c st data).cmp
@[simp] theorem Dev.finish_lift (d : Dev) (c : Ctx) (st : Status) (data : List Byte) : (d.finish c st data).lift = d.lift :=
  (d.finish_only c st data).lift
@[simp] theorem Dev.finish_lanes (d : Dev) (c : Ctx) (st : Status) (data : List Byte) : (d.finish c st data).lanes = d.lanes :=
  (d.finish_only c st data).lanes
@[simp] theorem Dev.finish_pair (d : Dev) (c : Ctx) (st : Status) (data : List Byte) : (d.finish c st data).pair = d.pair :=
  (d.finish_only c st data).pair
@[simp] theorem Dev.finish_store (d : Dev) (c : Ctx) (st : Status) (data : List Byte) : (d.finish c st data).store = d.store :=
  (d.finish_only c st data).store
@[simp] theorem Dev.finish_pwr (d : Dev) (c : Ctx) (st : Status) (data : List Byte) : (d.finish c st data).pwr = d.pwr :=
  (d.finish_only c st data).pwr
@[simp] theorem Dev.finish_triad (d : Dev) (c : Ctx) (st : Status) (data : List Byte) : (d.finish c st data).triad = d.triad :=
  (d.finish_only c st data).triad
@[simp] theorem Dev.finish_cal (d : Dev) (c : Ctx) (st : Status) (data : List Byte) : (d.finish c st data).cal = d.cal :=
  (d.finish_only c st data).cal
@[simp] theorem Dev.finish_bist (d : Dev) (c : Ctx) (st : Status) (data : List Byte) : (d.finish c st data).bist = d.bist :=
  (d.finish_only c st data).bist
@[simp] theorem Dev.finish_hmon (d : Dev) (c : Ctx) (st : Status) (data : List Byte) : (d.finish c st data).hmon = d.hmon :=
  (d.finish_only c st data).hmon
@[simp] theorem Dev.finish_fw (d : Dev) (c : Ctx) (st : Status) (data : List Byte) : (d.finish c st data).fw = d.fw :=
  (d.finish_only c st data).fw
@[simp] theorem Dev.finish_integ_log (d : Dev) (c : Ctx) (st : Status) (data : List Byte) : (d.finish c st data).integ.log = d.integ.log :=
  (d.finish_only c st data).integ_log
@[simp] theorem Dev.finish_integ_remap (d : Dev) (c : Ctx) (st : Status) (data : List Byte) : (d.finish c st data).integ.remap = d.integ.remap :=
  (d.finish_only c st data).integ_remap
@[simp] theorem Dev.finish_integ_remapDue (d : Dev) (c : Ctx) (st : Status) (data : List Byte) : (d.finish c st data).integ.remapDue = d.integ.remapDue :=
  (d.finish_only c st data).integ_remapDue
@[simp] theorem Dev.finish_integ_listDue (d : Dev) (c : Ctx) (st : Status) (data : List Byte) : (d.finish c st data).integ.listDue = d.integ.listDue :=
  (d.finish_only c st data).integ_listDue
@[simp] theorem Dev.finish_integ_histories (d : Dev) (c : Ctx) (st : Status) (data : List Byte) : (d.finish c st data).integ.histories = d.integ.histories :=
  (d.finish_only c st data).integ_histories
@[simp] theorem Dev.finish_integ_memCounts (d : Dev) (c : Ctx) (st : Status) (data : List Byte) : (d.finish c st data).integ.memCounts = d.integ.memCounts :=
  (d.finish_only c st data).integ_memCounts
@[simp] theorem Dev.finish_integ_parity (d : Dev) (c : Ctx) (st : Status) (data : List Byte) : (d.finish c st data).integ.parity = d.integ.parity :=
  (d.finish_only c st data).integ_parity
@[simp] theorem Dev.finish_integ_handOver (d : Dev) (c : Ctx) (st : Status) (data : List Byte) : (d.finish c st data).integ.handOver = d.integ.handOver :=
  (d.finish_only c st data).integ_handOver
@[simp] theorem Dev.finish_integ_poisonedCrc (d : Dev) (c : Ctx) (st : Status) (data : List Byte) : (d.finish c st data).integ.poisonedCrc = d.integ.poisonedCrc :=
  (d.finish_only c st data).integ_poisonedCrc
@[simp] theorem Dev.finish_integ_poisonedFlag (d : Dev) (c : Ctx) (st : Status) (data : List Byte) : (d.finish c st data).integ.poisonedFlag = d.integ.poisonedFlag :=
  (d.finish_only c st data).integ_poisonedFlag
@[simp] theorem Dev.finish_integ_walks (d : Dev) (c : Ctx) (st : Status) (data : List Byte) : (d.finish c st data).integ.walks = d.integ.walks :=
  (d.finish_only c st data).integ_walks
@[simp] theorem Dev.finish_integ_crossingInjects (d : Dev) (c : Ctx) (st : Status) (data : List Byte) : (d.finish c st data).integ.crossingInjects = d.integ.crossingInjects :=
  (d.finish_only c st data).integ_crossingInjects
@[simp] theorem Dev.finish_integ_portInjects (d : Dev) (c : Ctx) (st : Status) (data : List Byte) : (d.finish c st data).integ.portInjects = d.integ.portInjects :=
  (d.finish_only c st data).integ_portInjects

/-! ### `Dev.answer` -/

@[simp] theorem Dev.answer_sys (d : Dev) (h : CmdHeader) (opcode : Nat) (st : Status) (interim : Bool) : (d.answer h opcode st interim).sys = d.sys :=
  (d.answer_only h opcode st interim).sys
@[simp] theorem Dev.answer_cmd (d : Dev) (h : CmdHeader) (opcode : Nat) (st : Status) (interim : Bool) : (d.answer h opcode st interim).cmd = (d.countAnswer st).cmd :=
  (d.answer_only h opcode st interim).cmd
@[simp] theorem Dev.answer_map (d : Dev) (h : CmdHeader) (opcode : Nat) (st : Status) (interim : Bool) : (d.answer h opcode st interim).map = d.map :=
  (d.answer_only h opcode st interim).map
@[simp] theorem Dev.answer_fe (d : Dev) (h : CmdHeader) (opcode : Nat) (st : Status) (interim : Bool) : (d.answer h opcode st interim).fe = d.fe :=
  (d.answer_only h opcode st interim).fe
@[simp] theorem Dev.answer_wfc (d : Dev) (h : CmdHeader) (opcode : Nat) (st : Status) (interim : Bool) : (d.answer h opcode st interim).wfc = d.wfc :=
  (d.answer_only h opcode st interim).wfc
@[simp] theorem Dev.answer_mon (d : Dev) (h : CmdHeader) (opcode : Nat) (st : Status) (interim : Bool) : (d.answer h opcode st interim).mon = d.mon :=
  (d.answer_only h opcode st interim).mon
@[simp] theorem Dev.answer_time (d : Dev) (h : CmdHeader) (opcode : Nat) (st : Status) (interim : Bool) : (d.answer h opcode st interim).time = d.time :=
  (d.answer_only h opcode st interim).time
@[simp] theorem Dev.answer_tdc (d : Dev) (h : CmdHeader) (opcode : Nat) (st : Status) (interim : Bool) : (d.answer h opcode st interim).tdc = d.tdc :=
  (d.answer_only h opcode st interim).tdc
@[simp] theorem Dev.answer_slalom (d : Dev) (h : CmdHeader) (opcode : Nat) (st : Status) (interim : Bool) : (d.answer h opcode st interim).slalom = d.slalom :=
  (d.answer_only h opcode st interim).slalom
@[simp] theorem Dev.answer_schuss (d : Dev) (h : CmdHeader) (opcode : Nat) (st : Status) (interim : Bool) : (d.answer h opcode st interim).schuss = d.schuss :=
  (d.answer_only h opcode st interim).schuss
@[simp] theorem Dev.answer_acq (d : Dev) (h : CmdHeader) (opcode : Nat) (st : Status) (interim : Bool) : (d.answer h opcode st interim).acq = d.acq :=
  (d.answer_only h opcode st interim).acq
@[simp] theorem Dev.answer_cmp (d : Dev) (h : CmdHeader) (opcode : Nat) (st : Status) (interim : Bool) : (d.answer h opcode st interim).cmp = d.cmp :=
  (d.answer_only h opcode st interim).cmp
@[simp] theorem Dev.answer_lift (d : Dev) (h : CmdHeader) (opcode : Nat) (st : Status) (interim : Bool) : (d.answer h opcode st interim).lift = d.lift :=
  (d.answer_only h opcode st interim).lift
@[simp] theorem Dev.answer_lanes (d : Dev) (h : CmdHeader) (opcode : Nat) (st : Status) (interim : Bool) : (d.answer h opcode st interim).lanes = d.lanes :=
  (d.answer_only h opcode st interim).lanes
@[simp] theorem Dev.answer_pair (d : Dev) (h : CmdHeader) (opcode : Nat) (st : Status) (interim : Bool) : (d.answer h opcode st interim).pair = d.pair :=
  (d.answer_only h opcode st interim).pair
@[simp] theorem Dev.answer_store (d : Dev) (h : CmdHeader) (opcode : Nat) (st : Status) (interim : Bool) : (d.answer h opcode st interim).store = d.store :=
  (d.answer_only h opcode st interim).store
@[simp] theorem Dev.answer_pwr (d : Dev) (h : CmdHeader) (opcode : Nat) (st : Status) (interim : Bool) : (d.answer h opcode st interim).pwr = d.pwr :=
  (d.answer_only h opcode st interim).pwr
@[simp] theorem Dev.answer_triad (d : Dev) (h : CmdHeader) (opcode : Nat) (st : Status) (interim : Bool) : (d.answer h opcode st interim).triad = d.triad :=
  (d.answer_only h opcode st interim).triad
@[simp] theorem Dev.answer_cal (d : Dev) (h : CmdHeader) (opcode : Nat) (st : Status) (interim : Bool) : (d.answer h opcode st interim).cal = d.cal :=
  (d.answer_only h opcode st interim).cal
@[simp] theorem Dev.answer_bist (d : Dev) (h : CmdHeader) (opcode : Nat) (st : Status) (interim : Bool) : (d.answer h opcode st interim).bist = d.bist :=
  (d.answer_only h opcode st interim).bist
@[simp] theorem Dev.answer_hmon (d : Dev) (h : CmdHeader) (opcode : Nat) (st : Status) (interim : Bool) : (d.answer h opcode st interim).hmon = d.hmon :=
  (d.answer_only h opcode st interim).hmon
@[simp] theorem Dev.answer_fw (d : Dev) (h : CmdHeader) (opcode : Nat) (st : Status) (interim : Bool) : (d.answer h opcode st interim).fw = d.fw :=
  (d.answer_only h opcode st interim).fw
@[simp] theorem Dev.answer_integ_log (d : Dev) (h : CmdHeader) (opcode : Nat) (st : Status) (interim : Bool) : (d.answer h opcode st interim).integ.log = d.integ.log :=
  (d.answer_only h opcode st interim).integ_log
@[simp] theorem Dev.answer_integ_remap (d : Dev) (h : CmdHeader) (opcode : Nat) (st : Status) (interim : Bool) : (d.answer h opcode st interim).integ.remap = d.integ.remap :=
  (d.answer_only h opcode st interim).integ_remap
@[simp] theorem Dev.answer_integ_remapDue (d : Dev) (h : CmdHeader) (opcode : Nat) (st : Status) (interim : Bool) : (d.answer h opcode st interim).integ.remapDue = d.integ.remapDue :=
  (d.answer_only h opcode st interim).integ_remapDue
@[simp] theorem Dev.answer_integ_listDue (d : Dev) (h : CmdHeader) (opcode : Nat) (st : Status) (interim : Bool) : (d.answer h opcode st interim).integ.listDue = d.integ.listDue :=
  (d.answer_only h opcode st interim).integ_listDue
@[simp] theorem Dev.answer_integ_histories (d : Dev) (h : CmdHeader) (opcode : Nat) (st : Status) (interim : Bool) : (d.answer h opcode st interim).integ.histories = d.integ.histories :=
  (d.answer_only h opcode st interim).integ_histories
@[simp] theorem Dev.answer_integ_memCounts (d : Dev) (h : CmdHeader) (opcode : Nat) (st : Status) (interim : Bool) : (d.answer h opcode st interim).integ.memCounts = d.integ.memCounts :=
  (d.answer_only h opcode st interim).integ_memCounts
@[simp] theorem Dev.answer_integ_parity (d : Dev) (h : CmdHeader) (opcode : Nat) (st : Status) (interim : Bool) : (d.answer h opcode st interim).integ.parity = d.integ.parity :=
  (d.answer_only h opcode st interim).integ_parity
@[simp] theorem Dev.answer_integ_handOver (d : Dev) (h : CmdHeader) (opcode : Nat) (st : Status) (interim : Bool) : (d.answer h opcode st interim).integ.handOver = d.integ.handOver :=
  (d.answer_only h opcode st interim).integ_handOver
@[simp] theorem Dev.answer_integ_poisonedCrc (d : Dev) (h : CmdHeader) (opcode : Nat) (st : Status) (interim : Bool) : (d.answer h opcode st interim).integ.poisonedCrc = d.integ.poisonedCrc :=
  (d.answer_only h opcode st interim).integ_poisonedCrc
@[simp] theorem Dev.answer_integ_poisonedFlag (d : Dev) (h : CmdHeader) (opcode : Nat) (st : Status) (interim : Bool) : (d.answer h opcode st interim).integ.poisonedFlag = d.integ.poisonedFlag :=
  (d.answer_only h opcode st interim).integ_poisonedFlag
@[simp] theorem Dev.answer_integ_walks (d : Dev) (h : CmdHeader) (opcode : Nat) (st : Status) (interim : Bool) : (d.answer h opcode st interim).integ.walks = d.integ.walks :=
  (d.answer_only h opcode st interim).integ_walks
@[simp] theorem Dev.answer_integ_crossingInjects (d : Dev) (h : CmdHeader) (opcode : Nat) (st : Status) (interim : Bool) : (d.answer h opcode st interim).integ.crossingInjects = d.integ.crossingInjects :=
  (d.answer_only h opcode st interim).integ_crossingInjects
@[simp] theorem Dev.answer_integ_portInjects (d : Dev) (h : CmdHeader) (opcode : Nat) (st : Status) (interim : Bool) : (d.answer h opcode st interim).integ.portInjects = d.integ.portInjects :=
  (d.answer_only h opcode st interim).integ_portInjects

@[simp] theorem Dev.endFlight_sys (d : Dev) (h : CmdHeader) (opcode : Nat) : (d.endFlight h opcode).sys = d.sys := rfl
@[simp] theorem Dev.endFlight_evt (d : Dev) (h : CmdHeader) (opcode : Nat) : (d.endFlight h opcode).evt = d.evt := rfl
@[simp] theorem Dev.endFlight_map (d : Dev) (h : CmdHeader) (opcode : Nat) : (d.endFlight h opcode).map = d.map := rfl
@[simp] theorem Dev.endFlight_fe (d : Dev) (h : CmdHeader) (opcode : Nat) : (d.endFlight h opcode).fe = d.fe := rfl
@[simp] theorem Dev.endFlight_wfc (d : Dev) (h : CmdHeader) (opcode : Nat) : (d.endFlight h opcode).wfc = d.wfc := rfl
@[simp] theorem Dev.endFlight_mon (d : Dev) (h : CmdHeader) (opcode : Nat) : (d.endFlight h opcode).mon = d.mon := rfl
@[simp] theorem Dev.endFlight_time (d : Dev) (h : CmdHeader) (opcode : Nat) : (d.endFlight h opcode).time = d.time := rfl
@[simp] theorem Dev.endFlight_tdc (d : Dev) (h : CmdHeader) (opcode : Nat) : (d.endFlight h opcode).tdc = d.tdc := rfl
@[simp] theorem Dev.endFlight_slalom (d : Dev) (h : CmdHeader) (opcode : Nat) : (d.endFlight h opcode).slalom = d.slalom := rfl
@[simp] theorem Dev.endFlight_schuss (d : Dev) (h : CmdHeader) (opcode : Nat) : (d.endFlight h opcode).schuss = d.schuss := rfl
@[simp] theorem Dev.endFlight_acq (d : Dev) (h : CmdHeader) (opcode : Nat) : (d.endFlight h opcode).acq = d.acq := rfl
@[simp] theorem Dev.endFlight_cmp (d : Dev) (h : CmdHeader) (opcode : Nat) : (d.endFlight h opcode).cmp = d.cmp := rfl
@[simp] theorem Dev.endFlight_mrg (d : Dev) (h : CmdHeader) (opcode : Nat) : (d.endFlight h opcode).mrg = d.mrg := rfl
@[simp] theorem Dev.endFlight_link (d : Dev) (h : CmdHeader) (opcode : Nat) : (d.endFlight h opcode).link = d.link := rfl
@[simp] theorem Dev.endFlight_lift (d : Dev) (h : CmdHeader) (opcode : Nat) : (d.endFlight h opcode).lift = d.lift := rfl
@[simp] theorem Dev.endFlight_lanes (d : Dev) (h : CmdHeader) (opcode : Nat) : (d.endFlight h opcode).lanes = d.lanes := rfl
@[simp] theorem Dev.endFlight_pair (d : Dev) (h : CmdHeader) (opcode : Nat) : (d.endFlight h opcode).pair = d.pair := rfl
@[simp] theorem Dev.endFlight_store (d : Dev) (h : CmdHeader) (opcode : Nat) : (d.endFlight h opcode).store = d.store := rfl
@[simp] theorem Dev.endFlight_integ (d : Dev) (h : CmdHeader) (opcode : Nat) : (d.endFlight h opcode).integ = d.integ := rfl
@[simp] theorem Dev.endFlight_pwr (d : Dev) (h : CmdHeader) (opcode : Nat) : (d.endFlight h opcode).pwr = d.pwr := rfl
@[simp] theorem Dev.endFlight_triad (d : Dev) (h : CmdHeader) (opcode : Nat) : (d.endFlight h opcode).triad = d.triad := rfl
@[simp] theorem Dev.endFlight_cal (d : Dev) (h : CmdHeader) (opcode : Nat) : (d.endFlight h opcode).cal = d.cal := rfl
@[simp] theorem Dev.endFlight_bist (d : Dev) (h : CmdHeader) (opcode : Nat) : (d.endFlight h opcode).bist = d.bist := rfl
@[simp] theorem Dev.endFlight_hmon (d : Dev) (h : CmdHeader) (opcode : Nat) : (d.endFlight h opcode).hmon = d.hmon := rfl
@[simp] theorem Dev.endFlight_fw (d : Dev) (h : CmdHeader) (opcode : Nat) : (d.endFlight h opcode).fw = d.fw := rfl
@[simp] theorem Dev.endFlight_free (d : Dev) (h : CmdHeader) (opcode : Nat) : (d.endFlight h opcode).free = d.free := rfl
@[simp] theorem Dev.takeFlight_sys (d : Dev) (h : CmdHeader) (opcode : Nat) : (d.takeFlight h opcode).sys = d.sys := rfl
@[simp] theorem Dev.takeFlight_evt (d : Dev) (h : CmdHeader) (opcode : Nat) : (d.takeFlight h opcode).evt = d.evt := rfl
@[simp] theorem Dev.takeFlight_map (d : Dev) (h : CmdHeader) (opcode : Nat) : (d.takeFlight h opcode).map = d.map := rfl
@[simp] theorem Dev.takeFlight_fe (d : Dev) (h : CmdHeader) (opcode : Nat) : (d.takeFlight h opcode).fe = d.fe := rfl
@[simp] theorem Dev.takeFlight_wfc (d : Dev) (h : CmdHeader) (opcode : Nat) : (d.takeFlight h opcode).wfc = d.wfc := rfl
@[simp] theorem Dev.takeFlight_mon (d : Dev) (h : CmdHeader) (opcode : Nat) : (d.takeFlight h opcode).mon = d.mon := rfl
@[simp] theorem Dev.takeFlight_time (d : Dev) (h : CmdHeader) (opcode : Nat) : (d.takeFlight h opcode).time = d.time := rfl
@[simp] theorem Dev.takeFlight_tdc (d : Dev) (h : CmdHeader) (opcode : Nat) : (d.takeFlight h opcode).tdc = d.tdc := rfl
@[simp] theorem Dev.takeFlight_slalom (d : Dev) (h : CmdHeader) (opcode : Nat) : (d.takeFlight h opcode).slalom = d.slalom := rfl
@[simp] theorem Dev.takeFlight_schuss (d : Dev) (h : CmdHeader) (opcode : Nat) : (d.takeFlight h opcode).schuss = d.schuss := rfl
@[simp] theorem Dev.takeFlight_acq (d : Dev) (h : CmdHeader) (opcode : Nat) : (d.takeFlight h opcode).acq = d.acq := rfl
@[simp] theorem Dev.takeFlight_cmp (d : Dev) (h : CmdHeader) (opcode : Nat) : (d.takeFlight h opcode).cmp = d.cmp := rfl
@[simp] theorem Dev.takeFlight_mrg (d : Dev) (h : CmdHeader) (opcode : Nat) : (d.takeFlight h opcode).mrg = d.mrg := rfl
@[simp] theorem Dev.takeFlight_link (d : Dev) (h : CmdHeader) (opcode : Nat) : (d.takeFlight h opcode).link = d.link := rfl
@[simp] theorem Dev.takeFlight_lift (d : Dev) (h : CmdHeader) (opcode : Nat) : (d.takeFlight h opcode).lift = d.lift := rfl
@[simp] theorem Dev.takeFlight_lanes (d : Dev) (h : CmdHeader) (opcode : Nat) : (d.takeFlight h opcode).lanes = d.lanes := rfl
@[simp] theorem Dev.takeFlight_pair (d : Dev) (h : CmdHeader) (opcode : Nat) : (d.takeFlight h opcode).pair = d.pair := rfl
@[simp] theorem Dev.takeFlight_store (d : Dev) (h : CmdHeader) (opcode : Nat) : (d.takeFlight h opcode).store = d.store := rfl
@[simp] theorem Dev.takeFlight_integ (d : Dev) (h : CmdHeader) (opcode : Nat) : (d.takeFlight h opcode).integ = d.integ := rfl
@[simp] theorem Dev.takeFlight_pwr (d : Dev) (h : CmdHeader) (opcode : Nat) : (d.takeFlight h opcode).pwr = d.pwr := rfl
@[simp] theorem Dev.takeFlight_triad (d : Dev) (h : CmdHeader) (opcode : Nat) : (d.takeFlight h opcode).triad = d.triad := rfl
@[simp] theorem Dev.takeFlight_cal (d : Dev) (h : CmdHeader) (opcode : Nat) : (d.takeFlight h opcode).cal = d.cal := rfl
@[simp] theorem Dev.takeFlight_bist (d : Dev) (h : CmdHeader) (opcode : Nat) : (d.takeFlight h opcode).bist = d.bist := rfl
@[simp] theorem Dev.takeFlight_hmon (d : Dev) (h : CmdHeader) (opcode : Nat) : (d.takeFlight h opcode).hmon = d.hmon := rfl
@[simp] theorem Dev.takeFlight_fw (d : Dev) (h : CmdHeader) (opcode : Nat) : (d.takeFlight h opcode).fw = d.fw := rfl
@[simp] theorem Dev.takeFlight_free (d : Dev) (h : CmdHeader) (opcode : Nat) : (d.takeFlight h opcode).free = d.free := rfl

@[simp] theorem Dev.countAnswer_sys (d : Dev) (st : Status) : (d.countAnswer st).sys = d.sys := rfl
@[simp] theorem Dev.countAnswer_evt (d : Dev) (st : Status) : (d.countAnswer st).evt = d.evt := rfl
@[simp] theorem Dev.countAnswer_map (d : Dev) (st : Status) : (d.countAnswer st).map = d.map := rfl
@[simp] theorem Dev.countAnswer_fe (d : Dev) (st : Status) : (d.countAnswer st).fe = d.fe := rfl
@[simp] theorem Dev.countAnswer_wfc (d : Dev) (st : Status) : (d.countAnswer st).wfc = d.wfc := rfl
@[simp] theorem Dev.countAnswer_mon (d : Dev) (st : Status) : (d.countAnswer st).mon = d.mon := rfl
@[simp] theorem Dev.countAnswer_time (d : Dev) (st : Status) : (d.countAnswer st).time = d.time := rfl
@[simp] theorem Dev.countAnswer_tdc (d : Dev) (st : Status) : (d.countAnswer st).tdc = d.tdc := rfl
@[simp] theorem Dev.countAnswer_slalom (d : Dev) (st : Status) : (d.countAnswer st).slalom = d.slalom := rfl
@[simp] theorem Dev.countAnswer_schuss (d : Dev) (st : Status) : (d.countAnswer st).schuss = d.schuss := rfl
@[simp] theorem Dev.countAnswer_acq (d : Dev) (st : Status) : (d.countAnswer st).acq = d.acq := rfl
@[simp] theorem Dev.countAnswer_cmp (d : Dev) (st : Status) : (d.countAnswer st).cmp = d.cmp := rfl
@[simp] theorem Dev.countAnswer_mrg (d : Dev) (st : Status) : (d.countAnswer st).mrg = d.mrg := rfl
@[simp] theorem Dev.countAnswer_link (d : Dev) (st : Status) : (d.countAnswer st).link = d.link := rfl
@[simp] theorem Dev.countAnswer_lift (d : Dev) (st : Status) : (d.countAnswer st).lift = d.lift := rfl
@[simp] theorem Dev.countAnswer_lanes (d : Dev) (st : Status) : (d.countAnswer st).lanes = d.lanes := rfl
@[simp] theorem Dev.countAnswer_pair (d : Dev) (st : Status) : (d.countAnswer st).pair = d.pair := rfl
@[simp] theorem Dev.countAnswer_store (d : Dev) (st : Status) : (d.countAnswer st).store = d.store := rfl
@[simp] theorem Dev.countAnswer_integ (d : Dev) (st : Status) : (d.countAnswer st).integ = d.integ := rfl
@[simp] theorem Dev.countAnswer_pwr (d : Dev) (st : Status) : (d.countAnswer st).pwr = d.pwr := rfl
@[simp] theorem Dev.countAnswer_triad (d : Dev) (st : Status) : (d.countAnswer st).triad = d.triad := rfl
@[simp] theorem Dev.countAnswer_cal (d : Dev) (st : Status) : (d.countAnswer st).cal = d.cal := rfl
@[simp] theorem Dev.countAnswer_bist (d : Dev) (st : Status) : (d.countAnswer st).bist = d.bist := rfl
@[simp] theorem Dev.countAnswer_hmon (d : Dev) (st : Status) : (d.countAnswer st).hmon = d.hmon := rfl
@[simp] theorem Dev.countAnswer_fw (d : Dev) (st : Status) : (d.countAnswer st).fw = d.fw := rfl
@[simp] theorem Dev.countAnswer_free (d : Dev) (st : Status) : (d.countAnswer st).free = d.free := rfl

end Sys2Proof.Machine
end

