-- ==== Sys2Proof/Laws/Memory.lean ====
section
/-! SUPPORT. The code words of the memories: storing one keeps the canonical form, and what is read back is what was stored. -/

namespace Sys2Proof.Machine

theorem memWf_cons (c : CodeCell) (r : List CodeCell) :
    memWf (c :: r) = true ↔ c.word ≠ codeWord 0 ∧ (∀ x ∈ r.head?, c.at_ < x.at_) ∧ memWf r = true := by
  cases r <;> simp [memWf, and_assoc]

/-- The canonical form says that the words are listed by rising address, and none that an unlisted address holds. -/
theorem memWf_iff (m : List CodeCell) :
    memWf m = true ↔ (m.Pairwise fun a b => a.at_ < b.at_) ∧ ∀ c ∈ m, c.word ≠ codeWord 0 := by
  induction m with
  | nil => simp [memWf]
  | cons c r ih =>
    rw [memWf_cons, ih, List.pairwise_cons]
    constructor
    · rintro ⟨hc, hh, hp, hw⟩
      refine ⟨⟨fun x hx => ?_, hp⟩, by simpa [hc] using hw⟩
      cases r with
      | nil => simp at hx
      | cons y r =>
        have hy := hh y (by simp)
        rcases List.mem_cons.1 hx with rfl | hx
        · exact hy
        · exact Nat.lt_trans hy ((List.pairwise_cons.1 hp).1 x hx)
    · rintro ⟨⟨hl, hp⟩, hw⟩
      exact ⟨hw c (by simp), fun x hx => hl x (List.mem_of_mem_head? hx), hp, fun x hx => hw x (by simp [hx])⟩

theorem takeWhile_lt (m : List CodeCell) (k : Nat) : ∀ x ∈ m.takeWhile (fun c => decide (c.at_ < k)), x.at_ < k := by
  induction m with
  | nil => simp
  | cons c r ih =>
    by_cases hc : c.at_ < k
    · simpa [List.takeWhile_cons, hc] using ih
    · simp [hc]

theorem dropWhile_ge (m : List CodeCell) (k : Nat) (h : m.Pairwise fun a b => a.at_ < b.at_) :
    ∀ x ∈ m.dropWhile (fun c => decide (c.at_ < k)), k ≤ x.at_ := by
  induction m with
  | nil => simp
  | cons c r ih =>
    rw [List.pairwise_cons] at h
    by_cases hc : c.at_ < k
    · simpa [List.dropWhile_cons, hc] using ih h.2
    · intro x hx
      simp only [List.dropWhile_cons, hc, decide_false, Bool.false_eq_true, if_false] at hx
      rcases List.mem_cons.1 hx with rfl | hx
      · omega
      · have := h.1 x hx; omega

/-- Storing a word keeps the canonical form. -/
theorem memWrite_wf (m : List CodeCell) (k w : Nat) (h : memWf m = true) : memWf (memWrite m k w) = true := by
  rw [memWf_iff] at h ⊢
  obtain ⟨hp, hw⟩ := h
  have hl := (List.takeWhile_sublist (fun c : CodeCell => decide (c.at_ < k)) (l := m))
  have hd := (List.dropWhile_sublist (fun c : CodeCell => decide (c.at_ < k)) (l := m))
  have hf := (List.filter_sublist (p := fun c : CodeCell => c.at_ != k) (l := m.dropWhile fun c => decide (c.at_ < k)))
  have hge : ∀ x ∈ (m.dropWhile fun c => decide (c.at_ < k)).filter fun c => c.at_ != k, k < x.at_ := fun x hx => by
    rw [List.mem_filter] at hx
    have := dropWhile_ge m k hp x hx.1
    have : x.at_ ≠ k := by simpa using hx.2
    omega
  have hlt := takeWhile_lt m k
  unfold memWrite
  constructor
  · split
    · rw [List.pairwise_append]
      exact ⟨hp.sublist hl, hp.sublist (hf.trans hd), fun a ha b hb => Nat.lt_trans (hlt a ha) (hge b hb)⟩
    · rw [List.pairwise_append, List.pairwise_cons]
      refine ⟨hp.sublist hl, ⟨fun x hx => hge x hx, hp.sublist (hf.trans hd)⟩, fun a ha b hb => ?_⟩
      rcases List.mem_cons.1 hb with rfl | hb
      · exact hlt a ha
      · exact Nat.lt_trans (hlt a ha) (hge b hb)
  · intro c hc
    split at hc
    · rcases List.mem_append.1 hc with hc | hc
      · exact hw c (hl.subset hc)
      · exact hw c (hd.subset (hf.subset hc))
    · rcases List.mem_append.1 hc with hc | hc
      · exact hw c (hl.subset hc)
      · rcases List.mem_cons.1 hc with rfl | hc
        · assumption
        · exact hw c (hd.subset (hf.subset hc))

theorem find_none_of_lt (m : List CodeCell) (k : Nat) :
    (m.takeWhile fun c => decide (c.at_ < k)).find? (fun c => c.at_ == k) = none := by
  rw [List.find?_eq_none]
  intro x hx
  have := takeWhile_lt m k x hx
  simp; omega

/-- A word read back is the word stored. -/
@[simp] theorem memRead_memWrite (m : List CodeCell) (k w : Nat) : memRead (memWrite m k w) k = w := by
  unfold memRead memWrite
  split
  · rename_i h
    have : ((m.dropWhile fun c => decide (c.at_ < k)).filter fun c => c.at_ != k).find? (fun c => c.at_ == k) = none := by
      rw [List.find?_eq_none]
      intro x hx
      simpa using (List.mem_filter.1 hx).2
    simp only [List.find?_append, find_none_of_lt, this]
    simpa using h.symm
  · simp [List.find?_append, find_none_of_lt]

/-- Storing a word leaves every other address as it was. -/
theorem memRead_memWrite_ne (m : List CodeCell) (k w j : Nat) (h : j ≠ k) : memRead (memWrite m k w) j = memRead m j := by
  have hf : ((m.dropWhile fun c => decide (c.at_ < k)).filter fun c => c.at_ != k).find? (fun c => c.at_ == j)
      = (m.dropWhile fun c => decide (c.at_ < k)).find? fun c => c.at_ == j := by
    rw [List.find?_filter]
    congr 1
    funext c
    by_cases hc : c.at_ = j <;> simp [hc, h]
  have hm : m.find? (fun c => c.at_ == j)
      = ((m.takeWhile fun c => decide (c.at_ < k)) ++ m.dropWhile fun c => decide (c.at_ < k)).find? fun c => c.at_ == j := by
    rw [List.takeWhile_append_dropWhile]
  unfold memRead memWrite
  rw [hm]
  split
  · rw [List.find?_append, List.find?_append, hf]
  · have hk : (k == j) = false := by simp; omega
    rw [List.find?_append, List.find?_append, List.find?_cons, hf]
    simp [hk]

end Sys2Proof.Machine
end

