-- ==== Sys2Proof/Tests/Slice0.lean ====
section
/-! SUPPORT. Tests: ill-formed commands, worked examples of the spec, and a witness for every statement with hypotheses. -/

namespace Sys2Proof.Tests

set_option Elab.async false

open Sys2Proof Sys2Proof.Machine

/-! ### States for tests: a module past Boot with empty flash, and piste maps of chosen bytes -/

/-- A module `ticks` after Boot in the given state, its images started and its loop locked, with blank flash. -/
def at_ (st : DevState) (f : Dev → Dev) : State :=
  let d := State.reset.dev
  { State.reset with
    flash := []
    dev := f { d with
      sys := { d.sys with state := st, imagesStarted := true, ticks := 1000000 }
      time := { d.time with locked := true, seconds := 10, tick := 1000000 } } }

/-- The module as it stands. -/
def asIs (d : Dev) : Dev := d

/-- A section of `len` bytes, zero but for values at offsets: offset, width in bytes, value. -/
def sect (typ inst len : Nat) (vals : List (Nat × Nat × Nat)) : Sect :=
  ⟨typ, inst, vals.foldl (fun bs (off, n, v) => bs.take off ++ leBytes n v ++ bs.drop (off + n)) (zeros len)⟩

/-- A map of these sections, in slot 1. -/
def testMap (sects : List Sect) : PisteMap := ⟨1, 7, 0, 0, sects⟩

/-- The module runs the map of these sections. -/
def mapped (sects : List Sect) (f : Dev → Dev) (d : Dev) : Dev :=
  f { d with map := { d.map with active := some (testMap sects) } }

/-- A header as the service port gives it: not timed, with a reply. -/
def hdr : CmdHeader := ⟨.service, 255, 1, false, false, false, false, .zero⟩

/-- A header with a requester one above its field. -/
def badHdr : CmdHeader := { hdr with requester := 256 }

/-- A header is refused for each of its fields (R414). -/
theorem test_ill_formed_headers :
    hdr.wf = true ∧ badHdr.wf = false ∧ ({ hdr with tag := 65536 } : CmdHeader).wf = false ∧
    ({ hdr with executeAt := ⟨2 ^ 40, 0, 0⟩ } : CmdHeader).wf = false ∧
    ({ hdr with executeAt := ⟨0, 2 ^ 32, 0⟩ } : CmdHeader).wf = false ∧
    ({ hdr with executeAt := ⟨0, 0, 256⟩ } : CmdHeader).wf = false ∧
    ({ hdr with path := .uplink 7 } : CmdHeader).wf = true ∧
    ({ hdr with path := .uplink 8 } : CmdHeader).wf = false := by decide

/-- Every constructor with operands that fit, part 1. -/
theorem test_wellFormed1 : (([ .sysIdentify hdr
  , .sysState hdr
  , .sysGo hdr 0
  , .sysReset hdr 0
  , .sysTriadStatus hdr
  , .sysTriadRepair hdr 0
  , .sysUplinkStatus hdr
  , .sysUplinkReturn hdr 0
  , .sysTimedList hdr 0
  , .sysTimedCancel hdr 0 0
  , .sysPing hdr []
  , .mapStatus hdr
  , .mapEraseSlot hdr 0
  , .mapWrite hdr 0 0 []
  , .mapVerify hdr 0
  , .mapLoad hdr 0
  , .mapSwap hdr 0
  , .mapCancelSwap hdr
  , .mapSetBoot hdr 0
  , .mapKeyAdd hdr []
  , .mapKeyRemove hdr 0
  , .mapKeyLock hdr
  , .mapKeyUnlock hdr
  , .feStatus hdr 0
  , .feSetGain hdr 0 0 0 false
  , .feSetThreshold hdr 0 0 0 false false false 0 0 0 0
  , .feSetBias hdr 0 0 0
  , .feSetTrim hdr 0 0 0
  , .feGate hdr 0 0 0 0
  , .feOpenCheck hdr 0 0
  , .wfcStatus hdr 0
  , .wfcSetMode hdr 0 0 0
  , .wfcCalControl hdr 0 0 0
  , .wfcReadCal hdr 0
  , .monStatus hdr
  , .monRead hdr 0 0
  , .monSetMode hdr 0
  , .timeStatus hdr
  , .timeSwitchSource hdr 0
  , .timeSetSeconds hdr 0 ] : List Instr).all Instr.wf) = true := by decide

/-- Every constructor with operands that fit, part 2. -/
theorem test_wellFormed2 : (([ .timeAlign hdr
  , .timeClearFail hdr 0
  , .timeSetSpread hdr 0 0 0 0
  , .tdcStatus hdr 0
  , .tdcReadCal hdr 0
  , .tdcSetOffset hdr 0 0 0
  , .slalomStatus hdr
  , .slalomArm hdr 0
  , .slalomDisarm hdr 0
  , .slalomFire hdr 0
  , .slalomCounters hdr false
  , .acqStatus hdr
  , .acqCounters hdr false
  , .acqTagControl hdr 0 0 0 0
  , .acqSetAverage hdr 0 0 0
  , .acqSetWater hdr 0 0 0 0
  , .cmpStatus hdr
  , .cmpCounters hdr false
  , .cmpFlush hdr 0
  , .cmpSetParams hdr 0 0 0 0 0 0 false []
  , .mrgStatus hdr 0
  , .mrgCounters hdr false
  , .mrgSetClose hdr 0 0
  , .mrgResumeStream hdr 0 0 0
  , .mrgCloseAll hdr
  , .laneStatus hdr 0
  , .laneCounters hdr 0 false
  , .laneRetrain hdr 0
  , .laneClimb hdr 0
  , .laneSleep hdr 0 0
  , .laneWake hdr 0 0
  , .lanePrbs hdr 0 0 0 false false false 0
  , .laneSetTx hdr 0 0 0 0
  , .laneLinkStatus hdr 0 false
  , .storeStatus hdr
  , .storeCounters hdr false
  , .storeFormat hdr 0
  , .storeCheckpoint hdr
  , .storeFind hdr .zero
  , .storeReplay hdr 0 0 ] : List Instr).all Instr.wf) = true := by decide

/-- Every constructor with operands that fit, part 3. -/
theorem test_wellFormed3 : (([ .storeReplayStop hdr
  , .integStatus hdr
  , .integLogRead hdr
  , .integLogClear hdr false
  , .integRemapRead hdr
  , .integGroom hdr 0 0 0
  , .integInject hdr 0 0 0 0 0 0 0
  , .evtStatus hdr
  , .evtMask hdr 0 0 0
  , .evtAck hdr 0
  , .evtCounters hdr false
  , .evtSetDelivery hdr false false 0
  , .pwrStatus hdr
  , .pwrSetLevel hdr 0
  , .pwrSetLimit hdr 0
  , .calStatus hdr
  , .calRun hdr 0 0
  , .calRead hdr 0
  , .bistRun hdr 0 0 0
  , .bistStatus hdr
  , .bistFuse hdr
  , .hmonRead hdr 0
  , .hmonClear hdr 0
  , .fwStatus hdr
  , .fwErase hdr 0 0
  , .fwWrite hdr 0 0 0 []
  , .fwVerify hdr 0 0
  , .fwActivate hdr 0 0
  , .fwConfirm hdr
  , .flashRead hdr 0 0
  , .flashErase hdr 0
  , .flashWrite hdr 0 []
  , .serviceWrite [] false
  , .serviceRead 0
  , .serviceStatus 0
  , .lodge []
  , .timedCommandDue
  , .nmiRepeat 0
  , .powerOn
  , .imagesStarted ] : List Instr).all Instr.wf) = true := by decide

/-- Every constructor with operands that fit, part 4. -/
theorem test_wellFormed4 : (([ .bootMapLoad
  , .powerFailWarning 0 0
  , .powerFailWarningCleared
  , .underVoltageLockOut
  , .overVoltageShutdown
  , .overVoltageRestart
  , .operatingRangeLeft 0
  , .railFault 0 0
  , .railRestart
  , .lidOverheatHold
  , .biasCurrentLimitOff 0
  , .biasOutOfTolerance 0 0
  , .biasRampDone 0
  , .powerWindowEnd 0
  , .snowploughCauseEnd
  , .vcoreSettled
  , .drainDone
  , .drainLimit
  , .fireTokenAdd
  , .countingWindowEnd 0 0 0
  , .sourceAbsent 0
  , .sourcePresent 0
  , .loopUnlock
  , .slewDone
  , .autoReturn
  , .ppsEdge 0
  , .ppsAbsent
  , .secondBoundary
  , .intCorrectionSave
  , .timeRequestSend
  , .timeRequest 0 0 0
  , .timeResponse 0 0 0
  , .timeExchangeTimeout 0
  , .timingEdge 0 false 0 false 0 0 false
  , .hitWordTimeout 0 0 0 false
  , .calSlotStart
  , .triggerEdge ⟨[], []⟩
  , .xtEdge 0 ⟨false, 0⟩
  , .pixelStretchEnd 0
  , .gateTimeout 0 ] : List Instr).all Instr.wf) = true := by decide

/-- Every constructor with operands that fit, part 5. -/
theorem test_wellFormed5 : (([ .fireMessage 0 0
  , .armMessage 0 0
  , .disarmMessage 0 0
  , .armApply
  , .busyMessage 0 0
  , .busyRepeat
  , .busyExpire
  , .keyExpire
  , .schussIdleMessage 0 0
  , .schussDelineationLost 0
  , .schussSlot 0 0
  , .segmentBuildStart ⟨[], []⟩ false false
  , .hitListClose
  , .tagFrameEdge ⟨[], []⟩
  , .tagFrameClose
  , .swapMarkerDone
  , .sectionReload 0 0 0
  , .cmpSegment [] ⟨[]⟩ [] false
  , .chainBufferFreed
  , .parcelReceived 0 0 [] []
  , .eventDeadline
  , .passReturnDelay
  , .chairTransmit 0 0 []
  , .alignmentBlockSend 0
  , .replayTimeout 0
  , .windowStall 0
  , .wheelSwitchTimeout 0
  , .copyLagTimeout
  , .memberLeftBehind 0
  , .alignmentBlockReceived 0 [] []
  , .relockTimeout 0
  , .kMarkerLock 0
  , .kLockLost 0
  , .laneControlSend 0
  , .laneControlMessage 0 []
  , .trainDone ⟨0, []⟩
  , .checkDone 0 []
  , .alignTimeout 0
  , .decideTimeout 0
  , .retryDelayEnd 0 ] : List Instr).all Instr.wf) = true := by decide

/-- Every constructor with operands that fit, part 6. -/
theorem test_wellFormed6 : (([ .upAReentryDelay
  , .sleepAckTimeout 0
  , .wakeWindowOpen 0
  , .wakeWindowEnd 0
  , .wakeKeyDue 0
  , .wakeBurst 0
  , .wakeFailed 0
  , .prbsTestEnd 0 []
  , .drivePresencePoll 0 false
  , .srstRelease 0
  , .pcieLinkUp 0 0 0
  , .pcieLinkTimeout 0
  , .controllerReady 0 ⟨0, 512, false, 64⟩
  , .nvmeCompletion 0 0 0 [] []
  , .nvmeTimeout 0
  , .checkpointPeriod
  , .groomerLine 0 []
  , .remapLine
  , .bistSlice 0 false [] [] []
  , .dwellEnd 0 [] [] [] [] [] [] [] []
  , .monSettleEnd
  , .monResult 0
  , .excitationWindowEnd
  , .monAfterEnd
  , .marginPeriod []
  , .openCheckDue 0
  , .openCheckCompare 0 0
  , .openCheckEnd 0
  , .gatePeriodEdge 0
  , .gatedFlagEnd 0
  , .gainScheduleDue
  , .gainChangeApply 0
  , .gainDeferTimeout 0
  , .rangeTransitionEnd 0 false false
  , .calRunStart
  , .calRepeatEnd 0 []
  , .voterRequest 0 0 0 [] false
  , .disagreeTimeout 0
  , .heartbeatLost
  , .herringbonePass 0 false ] : List Instr).all Instr.wf) = true := by decide

/-- Every constructor with operands that fit, part 7. -/
theorem test_wellFormed7 : (([ .trialTimeLimit
  , .flashOperationDone []
  , .gatePulseEnd 0
  , .acknowledgementWaiting 0
  , .calibrationPeriod 0
  , .clampConducts 0 false
  , .partnerFireWindowEnd
  , .driveRemoved 0 ] : List Instr).all Instr.wf) = true := by decide

/-- One term for each width that a command is checked for: the operand one above its field, part 1. -/
theorem test_illFormed1 : (([ .sysIdentify badHdr
  , .sysState badHdr
  , .sysGo badHdr 0
  , .sysGo hdr (2 ^ 8)
  , .sysReset badHdr 0
  , .sysReset hdr (2 ^ 8)
  , .sysTriadStatus badHdr
  , .sysTriadRepair badHdr 0
  , .sysTriadRepair hdr (2 ^ 8)
  , .sysUplinkStatus badHdr
  , .sysUplinkReturn badHdr 0
  , .sysUplinkReturn hdr (2 ^ 8)
  , .sysTimedList badHdr 0
  , .sysTimedList hdr (2 ^ 16)
  , .sysTimedCancel badHdr 0 0
  , .sysTimedCancel hdr (2 ^ 8) 0
  , .sysTimedCancel hdr 0 (2 ^ 16)
  , .sysPing badHdr []
  , .mapStatus badHdr
  , .mapEraseSlot badHdr 0
  , .mapEraseSlot hdr (2 ^ 8)
  , .mapWrite badHdr 0 0 []
  , .mapWrite hdr (2 ^ 8) 0 []
  , .mapWrite hdr 0 (2 ^ 32) []
  , .mapVerify badHdr 0
  , .mapVerify hdr (2 ^ 8)
  , .mapLoad badHdr 0
  , .mapLoad hdr (2 ^ 8)
  , .mapSwap badHdr 0
  , .mapSwap hdr (2 ^ 16)
  , .mapCancelSwap badHdr
  , .mapSetBoot badHdr 0
  , .mapSetBoot hdr (2 ^ 8)
  , .mapKeyAdd badHdr []
  , .mapKeyRemove badHdr 0
  , .mapKeyRemove hdr (2 ^ 64)
  , .mapKeyLock badHdr
  , .mapKeyUnlock badHdr
  , .feStatus badHdr 0
  , .feStatus hdr (2 ^ 16) ] : List Instr).all (fun i => !i.wf)) = true := by decide

/-- One term for each width that a command is checked for: the operand one above its field, part 2. -/
theorem test_illFormed2 : (([ .feSetGain badHdr 0 0 0 false
  , .feSetGain hdr (2 ^ 16) 0 0 false
  , .feSetGain hdr 0 (2 ^ 16) 0 false
  , .feSetGain hdr 0 0 (2 ^ 8) false
  , .feSetThreshold badHdr 0 0 0 false false false 0 0 0 0
  , .feSetThreshold hdr (2 ^ 16) 0 0 false false false 0 0 0 0
  , .feSetThreshold hdr 0 (2 ^ 16) 0 false false false 0 0 0 0
  , .feSetThreshold hdr 0 0 (2 ^ 8) false false false 0 0 0 0
  , .feSetThreshold hdr 0 0 0 false false false (2 ^ 10) 0 0 0
  , .feSetThreshold hdr 0 0 0 false false false 0 (2 ^ 10) 0 0
  , .feSetThreshold hdr 0 0 0 false false false 0 0 (2 ^ 4) 0
  , .feSetThreshold hdr 0 0 0 false false false 0 0 0 (2 ^ 4)
  , .feSetBias badHdr 0 0 0
  , .feSetBias hdr (2 ^ 8) 0 0
  , .feSetBias hdr 0 (2 ^ 8) 0
  , .feSetBias hdr 0 0 (2 ^ 16)
  , .feSetTrim badHdr 0 0 0
  , .feSetTrim hdr (2 ^ 16) 0 0
  , .feSetTrim hdr 0 (2 ^ 16) 0
  , .feSetTrim hdr 0 0 (2 ^ 8)
  , .feGate badHdr 0 0 0 0
  , .feGate hdr (2 ^ 8) 0 0 0
  , .feGate hdr 0 (2 ^ 8) 0 0
  , .feGate hdr 0 0 (2 ^ 8) 0
  , .feGate hdr 0 0 0 (2 ^ 32)
  , .feOpenCheck badHdr 0 0
  , .feOpenCheck hdr (2 ^ 8) 0
  , .feOpenCheck hdr 0 (2 ^ 8)
  , .wfcStatus badHdr 0
  , .wfcStatus hdr (2 ^ 16)
  , .wfcSetMode badHdr 0 0 0
  , .wfcSetMode hdr (2 ^ 16) 0 0
  , .wfcSetMode hdr 0 (2 ^ 16) 0
  , .wfcSetMode hdr 0 0 (2 ^ 1)
  , .wfcCalControl badHdr 0 0 0
  , .wfcCalControl hdr (2 ^ 16) 0 0
  , .wfcCalControl hdr 0 (2 ^ 16) 0
  , .wfcCalControl hdr 0 0 (2 ^ 1)
  , .wfcReadCal badHdr 0
  , .wfcReadCal hdr (2 ^ 16) ] : List Instr).all (fun i => !i.wf)) = true := by decide

/-- One term for each width that a command is checked for: the operand one above its field, part 3. -/
theorem test_illFormed3 : (([ .monStatus badHdr
  , .monRead badHdr 0 0
  , .monRead hdr (2 ^ 16) 0
  , .monRead hdr 0 (2 ^ 16)
  , .monSetMode badHdr 0
  , .monSetMode hdr (2 ^ 8)
  , .timeStatus badHdr
  , .timeSwitchSource badHdr 0
  , .timeSwitchSource hdr (2 ^ 8)
  , .timeSetSeconds badHdr 0
  , .timeSetSeconds hdr (2 ^ 40)
  , .timeAlign badHdr
  , .timeClearFail badHdr 0
  , .timeClearFail hdr (2 ^ 8)
  , .timeSetSpread badHdr 0 0 0 0
  , .timeSetSpread hdr (2 ^ 8) 0 0 0
  , .timeSetSpread hdr 0 (2 ^ 8) 0 0
  , .timeSetSpread hdr 0 0 (2 ^ 8) 0
  , .timeSetSpread hdr 0 0 0 (2 ^ 8)
  , .tdcStatus badHdr 0
  , .tdcStatus hdr (2 ^ 16)
  , .tdcReadCal badHdr 0
  , .tdcReadCal hdr (2 ^ 16)
  , .tdcSetOffset badHdr 0 0 0
  , .tdcSetOffset hdr (2 ^ 16) 0 0
  , .tdcSetOffset hdr 0 (2 ^ 16) 0
  , .tdcSetOffset hdr 0 0 (2 ^ 16)
  , .slalomStatus badHdr
  , .slalomArm badHdr 0
  , .slalomArm hdr (2 ^ 16)
  , .slalomDisarm badHdr 0
  , .slalomDisarm hdr (2 ^ 16)
  , .slalomFire badHdr 0
  , .slalomFire hdr (2 ^ 8)
  , .slalomCounters badHdr false
  , .acqStatus badHdr
  , .acqCounters badHdr false
  , .acqTagControl badHdr 0 0 0 0
  , .acqTagControl hdr (2 ^ 16) 0 0 0
  , .acqTagControl hdr 0 (2 ^ 16) 0 0 ] : List Instr).all (fun i => !i.wf)) = true := by decide

/-- One term for each width that a command is checked for: the operand one above its field, part 4. -/
theorem test_illFormed4 : (([ .acqTagControl hdr 0 0 (2 ^ 8) 0
  , .acqTagControl hdr 0 0 0 (2 ^ 1)
  , .acqSetAverage badHdr 0 0 0
  , .acqSetAverage hdr (2 ^ 16) 0 0
  , .acqSetAverage hdr 0 (2 ^ 16) 0
  , .acqSetAverage hdr 0 0 (2 ^ 4)
  , .acqSetWater badHdr 0 0 0 0
  , .acqSetWater hdr (2 ^ 16) 0 0 0
  , .acqSetWater hdr 0 (2 ^ 16) 0 0
  , .acqSetWater hdr 0 0 (2 ^ 16) 0
  , .acqSetWater hdr 0 0 0 (2 ^ 16)
  , .cmpStatus badHdr
  , .cmpCounters badHdr false
  , .cmpFlush badHdr 0
  , .cmpFlush hdr (2 ^ 8)
  , .cmpSetParams badHdr 0 0 0 0 0 0 false []
  , .cmpSetParams hdr (2 ^ 16) 0 0 0 0 0 false []
  , .cmpSetParams hdr 0 (2 ^ 16) 0 0 0 0 false []
  , .cmpSetParams hdr 0 0 (2 ^ 16) 0 0 0 false []
  , .cmpSetParams hdr 0 0 0 (2 ^ 8) 0 0 false []
  , .cmpSetParams hdr 0 0 0 0 (2 ^ 8) 0 false []
  , .cmpSetParams hdr 0 0 0 0 0 (2 ^ 8) false []
  , .cmpSetParams hdr 0 0 0 0 0 0 false [2 ^ 8]
  , .mrgStatus badHdr 0
  , .mrgStatus hdr (2 ^ 16)
  , .mrgCounters badHdr false
  , .mrgSetClose badHdr 0 0
  , .mrgSetClose hdr (2 ^ 32) 0
  , .mrgSetClose hdr 0 (2 ^ 8)
  , .mrgResumeStream badHdr 0 0 0
  , .mrgResumeStream hdr (2 ^ 8) 0 0
  , .mrgResumeStream hdr 0 (2 ^ 8) 0
  , .mrgResumeStream hdr 0 0 (2 ^ 16)
  , .mrgCloseAll badHdr
  , .laneStatus badHdr 0
  , .laneStatus hdr (2 ^ 8)
  , .laneCounters badHdr 0 false
  , .laneCounters hdr (2 ^ 8) false
  , .laneRetrain badHdr 0
  , .laneRetrain hdr (2 ^ 8) ] : List Instr).all (fun i => !i.wf)) = true := by decide

/-- One term for each width that a command is checked for: the operand one above its field, part 5. -/
theorem test_illFormed5 : (([ .laneClimb badHdr 0
  , .laneClimb hdr (2 ^ 8)
  , .laneSleep badHdr 0 0
  , .laneSleep hdr (2 ^ 8) 0
  , .laneSleep hdr 0 (2 ^ 48)
  , .laneWake badHdr 0 0
  , .laneWake hdr (2 ^ 8) 0
  , .laneWake hdr 0 (2 ^ 8)
  , .lanePrbs badHdr 0 0 0 false false false 0
  , .lanePrbs hdr (2 ^ 8) 0 0 false false false 0
  , .lanePrbs hdr 0 (2 ^ 3) 0 false false false 0
  , .lanePrbs hdr 0 0 (2 ^ 8) false false false 0
  , .lanePrbs hdr 0 0 0 false false false (2 ^ 32)
  , .laneSetTx badHdr 0 0 0 0
  , .laneSetTx hdr (2 ^ 8) 0 0 0
  , .laneSetTx hdr 0 (2 ^ 8) 0 0
  , .laneSetTx hdr 0 0 (2 ^ 8) 0
  , .laneSetTx hdr 0 0 0 (2 ^ 8)
  , .laneLinkStatus badHdr 0 false
  , .laneLinkStatus hdr (2 ^ 8) false
  , .storeStatus badHdr
  , .storeCounters badHdr false
  , .storeFormat badHdr 0
  , .storeFormat hdr (2 ^ 32)
  , .storeCheckpoint badHdr
  , .storeFind badHdr .zero
  , .storeFind hdr ⟨2 ^ 40, 0, 0⟩
  , .storeReplay badHdr 0 0
  , .storeReplay hdr (2 ^ 64) 0
  , .storeReplay hdr 0 (2 ^ 64)
  , .storeReplayStop badHdr
  , .integStatus badHdr
  , .integLogRead badHdr
  , .integLogClear badHdr false
  , .integRemapRead badHdr
  , .integGroom badHdr 0 0 0
  , .integGroom hdr (2 ^ 8) 0 0
  , .integGroom hdr 0 (2 ^ 8) 0
  , .integGroom hdr 0 0 (2 ^ 32)
  , .integInject badHdr 0 0 0 0 0 0 0 ] : List Instr).all (fun i => !i.wf)) = true := by decide

/-- One term for each width that a command is checked for: the operand one above its field, part 6. -/
theorem test_illFormed6 : (([ .integInject hdr (2 ^ 8) 0 0 0 0 0 0
  , .integInject hdr 0 (2 ^ 8) 0 0 0 0 0
  , .integInject hdr 0 0 (2 ^ 8) 0 0 0 0
  , .integInject hdr 0 0 0 (2 ^ 4) 0 0 0
  , .integInject hdr 0 0 0 0 (2 ^ 4) 0 0
  , .integInject hdr 0 0 0 0 0 (2 ^ 32) 0
  , .integInject hdr 0 0 0 0 0 0 (2 ^ 8)
  , .evtStatus badHdr
  , .evtMask badHdr 0 0 0
  , .evtMask hdr (2 ^ 16) 0 0
  , .evtMask hdr 0 (2 ^ 16) 0
  , .evtMask hdr 0 0 (2 ^ 8)
  , .evtAck badHdr 0
  , .evtAck hdr (2 ^ 16)
  , .evtCounters badHdr false
  , .evtSetDelivery badHdr false false 0
  , .evtSetDelivery hdr false false (2 ^ 16)
  , .pwrStatus badHdr
  , .pwrSetLevel badHdr 0
  , .pwrSetLevel hdr (2 ^ 8)
  , .pwrSetLimit badHdr 0
  , .pwrSetLimit hdr (2 ^ 16)
  , .calStatus badHdr
  , .calRun badHdr 0 0
  , .calRun hdr (2 ^ 8) 0
  , .calRun hdr 0 (2 ^ 8)
  , .calRead badHdr 0
  , .calRead hdr (2 ^ 16)
  , .bistRun badHdr 0 0 0
  , .bistRun hdr (2 ^ 8) 0 0
  , .bistRun hdr 0 (2 ^ 16) 0
  , .bistRun hdr 0 0 (2 ^ 16)
  , .bistStatus badHdr
  , .bistFuse badHdr
  , .hmonRead badHdr 0
  , .hmonRead hdr (2 ^ 8)
  , .hmonClear badHdr 0
  , .hmonClear hdr (2 ^ 32)
  , .fwStatus badHdr
  , .fwErase badHdr 0 0 ] : List Instr).all (fun i => !i.wf)) = true := by decide

/-- One term for each width that a command is checked for: the operand one above its field, part 7. -/
theorem test_illFormed7 : (([ .fwErase hdr (2 ^ 8) 0
  , .fwErase hdr 0 (2 ^ 8)
  , .fwWrite badHdr 0 0 0 []
  , .fwWrite hdr (2 ^ 8) 0 0 []
  , .fwWrite hdr 0 (2 ^ 8) 0 []
  , .fwWrite hdr 0 0 (2 ^ 32) []
  , .fwVerify badHdr 0 0
  , .fwVerify hdr (2 ^ 8) 0
  , .fwVerify hdr 0 (2 ^ 8)
  , .fwActivate badHdr 0 0
  , .fwActivate hdr (2 ^ 8) 0
  , .fwActivate hdr 0 (2 ^ 8)
  , .fwConfirm badHdr
  , .flashRead badHdr 0 0
  , .flashRead hdr (2 ^ 32) 0
  , .flashRead hdr 0 (2 ^ 16)
  , .flashErase badHdr 0
  , .flashErase hdr (2 ^ 16)
  , .flashWrite badHdr 0 []
  , .flashWrite hdr (2 ^ 32) []
  , .nmiRepeat (2 ^ 16)
  , .powerFailWarning (2 ^ 32) 0
  , .powerFailWarning 0 (2 ^ 32)
  , .operatingRangeLeft (2 ^ 32)
  , .railFault (2 ^ 3) 0
  , .railFault 0 (2 ^ 32)
  , .biasCurrentLimitOff (2 ^ 6)
  , .biasOutOfTolerance (2 ^ 6) 0
  , .biasOutOfTolerance 0 (2 ^ 32)
  , .biasRampDone (2 ^ 6)
  , .countingWindowEnd (2 ^ 40) 0 0
  , .countingWindowEnd 0 (2 ^ 40) 0
  , .countingWindowEnd 0 0 (2 ^ 40)
  , .sourceAbsent (2 ^ 2)
  , .sourcePresent (2 ^ 2)
  , .ppsEdge (2 ^ 7)
  , .timeRequest (2 ^ 2) 0 0
  , .timeRequest 0 (2 ^ 64) 0
  , .timeRequest 0 0 (2 ^ 32)
  , .timeResponse (2 ^ 2) 0 0 ] : List Instr).all (fun i => !i.wf)) = true := by decide

/-- One term for each width that a command is checked for: the operand one above its field, part 8. -/
theorem test_illFormed8 : (([ .timeResponse 0 (2 ^ 64) 0
  , .timeResponse 0 0 (2 ^ 32)
  , .timeExchangeTimeout (2 ^ 2)
  , .timingEdge (2 ^ 10) false 0 false 0 0 false
  , .timingEdge 0 false (2 ^ 9) false 0 0 false
  , .timingEdge 0 false 0 false (2 ^ 16) 0 false
  , .timingEdge 0 false 0 false 0 (2 ^ 16) false
  , .hitWordTimeout (2 ^ 10) 0 0 false
  , .hitWordTimeout 0 (2 ^ 16) 0 false
  , .hitWordTimeout 0 0 (2 ^ 16) false
  , .xtEdge (2 ^ 2) ⟨false, 0⟩
  , .pixelStretchEnd (2 ^ 10)
  , .gateTimeout (2 ^ 4)
  , .fireMessage (2 ^ 2) 0
  , .fireMessage 0 (2 ^ 64)
  , .armMessage (2 ^ 2) 0
  , .armMessage 0 (2 ^ 64)
  , .disarmMessage (2 ^ 2) 0
  , .disarmMessage 0 (2 ^ 64)
  , .busyMessage (2 ^ 2) 0
  , .busyMessage 0 (2 ^ 64)
  , .schussIdleMessage (2 ^ 2) 0
  , .schussIdleMessage 0 (2 ^ 64)
  , .schussDelineationLost (2 ^ 2)
  , .schussSlot (2 ^ 2) 0
  , .sectionReload (2 ^ 16) 0 0
  , .sectionReload 0 (2 ^ 8) 0
  , .sectionReload 0 0 (2 ^ 23)
  , .cmpSegment [2 ^ 8] ⟨[]⟩ [] false
  , .parcelReceived (2 ^ 3) 0 [] []
  , .parcelReceived 0 (2 ^ 12) [] []
  , .chairTransmit (2 ^ 3) 0 []
  , .chairTransmit 0 (2 ^ 12) []
  , .alignmentBlockSend (2 ^ 3)
  , .replayTimeout (2 ^ 3)
  , .windowStall (2 ^ 3)
  , .wheelSwitchTimeout (2 ^ 3)
  , .memberLeftBehind (2 ^ 3)
  , .alignmentBlockReceived (2 ^ 3) [] []
  , .relockTimeout (2 ^ 3) ] : List Instr).all (fun i => !i.wf)) = true := by decide

/-- One term for each width that a command is checked for: the operand one above its field, part 9. -/
theorem test_illFormed9 : (([ .kMarkerLock (2 ^ 3)
  , .kLockLost (2 ^ 3)
  , .laneControlSend (2 ^ 3)
  , .laneControlMessage (2 ^ 3) []
  , .trainDone ⟨2 ^ 3, []⟩
  , .checkDone (2 ^ 3) []
  , .alignTimeout (2 ^ 3)
  , .decideTimeout (2 ^ 3)
  , .retryDelayEnd (2 ^ 3)
  , .sleepAckTimeout (2 ^ 3)
  , .wakeWindowOpen (2 ^ 3)
  , .wakeWindowEnd (2 ^ 3)
  , .wakeKeyDue (2 ^ 3)
  , .wakeBurst (2 ^ 3)
  , .wakeFailed (2 ^ 3)
  , .prbsTestEnd (2 ^ 3) []
  , .drivePresencePoll (2 ^ 1) false
  , .srstRelease (2 ^ 1)
  , .pcieLinkUp (2 ^ 1) 0 0
  , .pcieLinkUp 0 (2 ^ 8) 0
  , .pcieLinkUp 0 0 (2 ^ 8)
  , .pcieLinkTimeout (2 ^ 1)
  , .controllerReady (2 ^ 1) ⟨0, 512, false, 64⟩
  , .controllerReady 0 ⟨2 ^ 64, 512, false, 64⟩
  , .nvmeCompletion (2 ^ 1) 0 0 [] []
  , .nvmeCompletion 0 (2 ^ 32) 0 [] []
  , .nvmeCompletion 0 0 (2 ^ 16) [] []
  , .nvmeTimeout (2 ^ 1)
  , .groomerLine (2 ^ 1) []
  , .bistSlice (2 ^ 2) false [] [] []
  , .dwellEnd (2 ^ 10) [] [] [] [] [] [] [] []
  , .monResult (2 ^ 20)
  , .openCheckDue (2 ^ 6)
  , .openCheckCompare (2 ^ 6) 0
  , .openCheckCompare 0 (2 ^ 16)
  , .openCheckEnd (2 ^ 6)
  , .gatePeriodEdge (2 ^ 6)
  , .gatedFlagEnd (2 ^ 6)
  , .gainChangeApply (2 ^ 10)
  , .gainDeferTimeout (2 ^ 10) ] : List Instr).all (fun i => !i.wf)) = true := by decide

/-- One term for each width that a command is checked for: the operand one above its field, part 10. -/
theorem test_illFormed10 : (([ .rangeTransitionEnd (2 ^ 10) false false
  , .calRepeatEnd (2 ^ 6) []
  , .voterRequest (2 ^ 2) 0 0 [] false
  , .voterRequest 0 (2 ^ 2) 0 [] false
  , .voterRequest 0 0 (2 ^ 32) [] false
  , .disagreeTimeout (2 ^ 2)
  , .herringbonePass (2 ^ 14) false
  , .gatePulseEnd (2 ^ 6)
  , .acknowledgementWaiting (2 ^ 3)
  , .calibrationPeriod (2 ^ 6)
  , .clampConducts (2 ^ 10) false
  , .driveRemoved (2 ^ 1) ] : List Instr).all (fun i => !i.wf)) = true := by decide

/-! ### Statements on the machine, acceptance and replies: their hypotheses are met -/

/-- A queue can be empty, in Off too; the time word runs and wraps. -/
theorem test_witness_EmptyQueueTick :
    (at_ .running asIs).pending = [] ∧ (at_ .off asIs).dev.sys.state = .off ∧
    (at_ .running asIs).dev.timeRuns = true ∧ (at_ .running asIs).dev.time.tick < 2559999999 ∧
    (at_ .ready fun d => { d with time := { d.time with tick := 2559999999 } }).dev.timeRuns = true := by decide +kernel

/-- A step from a state with canonical flash answers a next state. -/
theorem test_witness_FlashStaysCanonical :
    (at_ .running asIs).flashCanonical = true ∧ step (at_ .running asIs) = .next (at_ .running asIs).tick := ⟨by decide +kernel, rfl⟩

/-- A command that is none of the exceptions answers a next state. -/
theorem test_witness_FlashFrame : ∃ t, exec (.serviceStatus 3) (at_ .running asIs) = .next t := ⟨_, rfl⟩

/-- A timed header due at `t`. -/
def timedHdr (late : Bool) (t : TimeWord) : CmdHeader := { hdr with timed := true, latePermitted := late, executeAt := t }

/-- Each refusal of R417 can come about: heard or not, with or without room, timely or not, past or not. -/
theorem test_witness_RefusalsBeforeExecution :
    (at_ .off asIs).dev.sys.state = .off ∧
    ((at_ .boot asIs).dev.sys.state = .boot ∧ ({ hdr with path := .uplink 0 } : CmdHeader).path ≠ .service) ∧
    ¬ ((at_ .boot fun d => { d with cmd := { d.cmd with inFlight := List.replicate 64 (255, 1, 2) } }).dev.cmd.inFlight.filter
      (·.1 == requesterOf hdr)).length < 64 ∧
    (timedHdr false ⟨10, 2560000000, 0⟩).executeAt.tick > 2559999999 ∧
    ((timedHdr false ⟨10, 999999, 0⟩).executeAt.le (at_ .running asIs).dev.now = true) ∧
    ((timedHdr false ⟨10, 1000000, 1⟩).executeAt.le (at_ .running asIs).dev.now = false ∧
      (timedHdr false ⟨10, 1000000, 1⟩).executeAt.globalTick ≤ (at_ .running asIs).dev.globalNow + 86400 * 2560000000) ∧
    sysGoKind.timable = true ∧ sysGoKind.legal.contains (at_ .boot asIs).dev.sys.state = false ∧
    (hostEff (.sysGo hdr 3)).map (fun e => (e.1, e.2.1)) = some (hdr, sysGoKind) := by decide +kernel

/-- A timed command waiting for `t`. -/
def waiting (t : TimeWord) (late passed : Bool) : Timed := ⟨.sysGo (timedHdr late t) 3, timedHdr late t, 0x0002, passed, false⟩

/-- A timed command can wait, be past with late execution permitted, fall due behind one still to come, and be passed. -/
theorem test_witness_TimedCommands :
    ((at_ .running asIs).dev.hears .service = true ∧ (at_ .running asIs).dev.flightRoom (timedHdr true ⟨9, 0, 0⟩) = true ∧
      (timedHdr true ⟨9, 0, 0⟩).executeAt.le (at_ .running asIs).dev.now = true ∧
      (timedHdr true ⟨11, 0, 0⟩).executeAt.le (at_ .running asIs).dev.now = false) ∧
    [waiting ⟨9, 0, 0⟩ false false, waiting ⟨9, 0, 0⟩ true false, waiting ⟨11, 0, 0⟩ false false].Pairwise
      (fun x y => x.header.executeAt.le y.header.executeAt = true) ∧
    (waiting ⟨10, 1000001, 0⟩ false false).header.executeAt.le (at_ .running asIs).dev.now = false ∧
    (waiting ⟨10, 1000000, 0⟩ false false).header.executeAt.le (at_ .running asIs).dev.now = true ∧
    (waiting ⟨5, 0, 0⟩ true true).passed = true ∧ (waiting ⟨5, 0, 0⟩ true true).header.latePermitted = true ∧
    (hostEff (waiting ⟨5, 0, 0⟩ true true).command).map (·.2.1) = some sysGoKind := by decide +kernel

/-- Success and failure, with and without a reply, on either path. -/
theorem test_witness_FinalReply :
    Status.ok ≠ .lateExecuted ∧ hdr.noReply = false ∧ hdr.path = .service ∧ ({ hdr with path := .uplink 0 } : CmdHeader).path = .uplink 0 ∧
    ({ hdr with noReply := true } : CmdHeader).noReply = true ∧ Status.ok.success = true ∧ Status.wrongState.success = false := by
  decide +kernel

/-- A record of which every header field is at the top of its width. -/
def fullRec : Rec :=
  ⟨255, 255, 4095, 2 ^ 20 - 1, 2 ^ 48 - 1, ⟨2 ^ 40 - 1, 2 ^ 32 - 1, 255⟩, 2 ^ 32 - 1, [0x5A, 0xA5]⟩

/-- A record with every field at the top of its width is read back from its bytes; its poisoned flag makes its trailer fail. -/
theorem test_witness_RecordRoundTrip :
    Rec.ofBytes fullRec.bytes = fullRec ∧ fullRec.poisoned = true ∧ trailerOk fullRec.bytes = false ∧
    trailerOk ({ fullRec with flags := 0 } : Rec).bytes = true := by decide +kernel

/-- A packet that carries SYS.PING of three bytes. -/
def pingPacket : List Byte := packetBytes hdr 0x000A [1, 2, 3]

/-- A packet of SYS.PING has the opcode, its header and its trailer where the module reads them. -/
theorem test_ping_packet :
    trailerOk pingPacket = true ∧ pingPacket.length = 39 ∧ packetHeader servicePort pingPacket = hdr ∧
    parseCommand (fieldAt pingPacket 0 2) hdr ((pingPacket.drop 32).take 3) = .command (.sysPing hdr [1, 2, 3]) := by decide +kernel

theorem test_witness_ServiceWriteRunsPacket :
    parseCommand 0x000A hdr [1, 2, 3] = .command (.sysPing hdr [1, 2, 3]) ∧
    (hostEff (.sysPing hdr [1, 2, 3])).map (fun e => (e.1, e.2.1)) = some (hdr, sysPingKind) ∧
    (at_ .boot asIs).dev.sys.state ≠ .off ∧ (at_ .boot asIs).dev.cmd.packets = [] ∧ (at_ .boot asIs).dev.cmd.writeFree = 2 := by
  decide +kernel

/-- A packet with a wrong trailer, one of a wrong length, one for another partner, one with an opcode of no command, and one
whose opcode does not allow its length; a port with no buffer free. -/
theorem test_witness_ServiceWriteRefusals :
    trailerOk (zeros 36) = false ∧
    (trailerOk (withCrc (zeros 36)) = true ∧ (withCrc (zeros 36)).length ≠ 36 + fieldAt (withCrc (zeros 36)) 6 2) ∧
    addressOk (at_ .boot asIs).dev servicePort (withCrc (leBytes 2 0 ++ leBytes 2 0 ++ leBytes 2 5 ++ zeros 26)) = false ∧
    parseCommand 0xFFFF hdr [] = .unknown ∧
    parseCommand 0x0002 hdr [3] = .badLength (.sysGo hdr 3) ∧
    (at_ .standby asIs).dev.carries hdr sysGoKind.legal = true ∧
    (at_ .boot fun d => { d with cmd := { d.cmd with writeFree := 0 } }).dev.cmd.writeFree = 0 := by decide +kernel

/-- The queue can be empty or hold an item; another code than LODG, and LODG itself; and Off. -/
theorem test_witness_ServicePortReads :
    (at_ .running fun d => { d with evt := { d.evt with service := [] } }).dev.evt.service = [] ∧
    (at_ .running asIs).dev.evt.service.length = 1 ∧ ([0x4C, 0x4F, 0x44, 0x48] : List Byte) ≠ [0x4C, 0x4F, 0x44, 0x47] ∧
    (at_ .off asIs).dev.sys.state = .off := by decide +kernel

/-! ### Events and reads -/

theorem test_witness_EventKeyRule :
    eventKey 1 ⟨65535, 2559999999, 0⟩ = 0xFFFF98967FFF ∧ eventKey 25600 ⟨0, 2559999999, 127⟩ % 25600 = 0 ∧
    (eventKey 64 ⟨1, 63, 0⟩ = eventKey 64 ⟨1, 0, 127⟩) ∧ eventKey 64 ⟨1, 64, 0⟩ ≠ eventKey 64 ⟨1, 63, 0⟩ := by decide +kernel

/-- A map with one port of role Up-A. -/
def upMap : List Sect := [sect 0x0001 0 64 [(17, 1, 2)]]

/-- An event in Off; one that is masked; one with much room, with 64 entries and with 65 free; a non-maskable one with 8 and with 9
free; one with the uplink path running. -/
theorem test_witness_RaisedEvent :
    (at_ .off asIs).dev.sys.state = .off ∧
    ((at_ .running fun d => { d with evt := { d.evt with mask := maskRange 0 1024 1024 true } }).dev.evt.mask.getLsbD 1024 = true
      ∧ isNmi 1024 = false) ∧
    (hasUp (at_ .running asIs).dev.map.active || hasStore (at_ .running asIs).dev.map.active) = false ∧
    64 < 128 - (List.replicate 63 (0 : Nat)).length ∧ 128 - (List.replicate 64 (0 : Nat)).length ≤ 64 ∧
    isNmi 1536 = true ∧ 8 < 128 - (List.replicate 119 (0 : Nat)).length ∧ 128 - (List.replicate 120 (0 : Nat)).length ≤ 8 ∧
    (let d := (at_ .running (mapped upMap asIs)).dev
     (hasUp d.map.active || hasStore d.map.active) = true ∧ d.evt.toUplink = true ∧ chainBuffers 52 ≤ d.localFree ∧
       d.mrg.waiting = [] ∧ (d.upStream 0).items = [] ∧ (d.upStream 0).items.length < upItems d.map.active 0) := by decide +kernel

/-- An interval that runs, and one that has just passed. -/
theorem test_witness_OncePerSecond :
    (let d := (at_ .running fun d => { d with sys := { d.sys with ticks := 2560000005 }
                                              evt := { d.evt with intervals := [⟨1410, 1, 3, 6⟩, ⟨1414, 0, 0, 5⟩] } }).dev
     d.intervalPassed 1410 1 3 = false ∧ d.intervalPassed 1414 0 0 = true ∧ d.intervalPassed 1410 1 4 = true) := by decide +kernel

/-- The event commands are carried out in every state that they name; a range of one source and one past the end. -/
theorem test_witness_EventCommands :
    upStates.all (fun st => (at_ st asIs).dev.carries hdr upStates) = true ∧
    (at_ .boot asIs).dev.carries hdr [.boot, .standby, .ready, .running, .quiesce, .faultHold] = true ∧
    (maskRange 0 1535 1537 true).getLsbD 1535 = true ∧ (maskRange 0 1535 1537 true).getLsbD 1536 = false ∧
    (maskRange 0 2015 2047 true).getLsbD 2015 = true ∧ (maskRange 0 2015 2047 true).getLsbD 2016 = false ∧
    (maskBytes 0 0 8).length = 2 := by decide +kernel

/-- A latch of event 1536, last delivered at tick 7. -/
def latched (ticks : Nat) (queue : List SvcItem) : State :=
  at_ .running fun d => { d with sys := { d.sys with ticks := ticks }
                                 evt := { d.evt with latches := [⟨1536, .zero, 3, [], 7⟩], service := queue } }

/-- A source with no latch, one too early and one due, with room and without. -/
theorem test_witness_NmiRepetition :
    (∀ l ∈ (latched 9 []).dev.evt.latches, l.source ≠ 1537) ∧
    ((latched 9 []).dev.evt.latches.find? (·.source == 1536)).isSome = true ∧
    (9 - 7 : Nat) < (latched 9 []).dev.evt.nmiPeriod * 2560000000 ∧
    (latched 2560000007 []).dev.evt.nmiPeriod * 2560000000 ≤ (latched 2560000007 []).dev.sys.ticks - 7 ∧ isNmi 1536 = true ∧
    (hasUp (latched 2560000007 []).dev.map.active || hasStore (latched 2560000007 []).dev.map.active) = false ∧
    8 < 128 - (latched 2560000007 []).dev.evt.service.length ∧
    128 - (latched 2560000007 (List.replicate 120 ⟨.event, fullRec⟩)).dev.evt.service.length ≤ 8 := by decide +kernel

/-- The states in which the reads are legal are states of a module; so are the states outside Boot that the paged reads need. -/
theorem test_witness_StatusReads :
    anyState.all (fun st => (at_ st asIs).dev.carries hdr anyState) = true ∧
    bootStates.all (fun st => (at_ st asIs).dev.carries hdr bootStates) = true ∧
    (at_ .running asIs).dev.acq.nextSeq = 1 ∧
    (at_ .running fun d => { d with acq := { d.acq with nextSeq := 5 } }).dev.acq.nextSeq ≠ 1 := by decide +kernel

/-- A page with as many entries as fit, one of the last entry, and one beyond the total. -/
theorem test_witness_PagedReads :
    (page 0 1024 16 (fun _ => zeros 16)).length = 8 + 255 * 16 ∧ (page 1023 1024 16 (fun _ => zeros 16)).length = 24 ∧
    sliceBytes (page 1024 1024 8 (fun _ => zeros 8)) 0 8 = [0, 4, 0, 0, 0, 4, 0, 0] ∧
    (at_ .running asIs).dev.carries hdr upStates = true := by decide +kernel

/-- The counter reads: the last lane, port and Schuss lane exist. -/
theorem test_witness_CounterReads :
    (at_ .running asIs).dev.carries hdr upStates = true ∧ ((at_ .running asIs).dev.schussLane 3).isSome = true ∧
    (at_ .running asIs).dev.lanes[31]?.isSome = true := by decide +kernel

/-- The indexed reads: the last pixel and input exist, and flash in canonical form. -/
theorem test_witness_IndexedReads :
    (at_ .running asIs).dev.carries hdr upStates = true ∧ (at_ .running asIs).flashCanonical = true ∧
    (at_ .lodge asIs).dev.carries hdr [.lodge, .standby, .ready, .running, .quiesce, .faultHold] = true ∧
    (at_ .running asIs).dev.wfc[1023]?.isSome = true ∧ 67108863 + 1 ≤ 67108864 := by decide +kernel

/-! ### Device states, power, the triad -/

/-- A target that is no state; each kind of transition: in force, lacking, blocked, open. -/
theorem test_witness_SysGoTransitions :
    (at_ .standby asIs).dev.carries hdr upStates = true ∧ (at_ .standby asIs).dev.map.active = none ∧
    ((at_ .ready asIs).dev.time.locked = true ∧ (at_ .ready asIs).dev.pwr.warning = none ∧ (at_ .ready fun d => d.modTime fun x => { x with secondsSet := true }).dev.time.code ≠ 0) ∧
    (at_ .standby (mapped [] asIs)).dev.map.active ≠ none ∧
    ((at_ .faultHold asIs).dev.pwr.rails.toList.all (fun r => r.good && r.restartedAt.isNone) = true ∧
      (at_ .faultHold asIs).dev.latestValue 224 = none) ∧
    (at_ .ready asIs).dev.acq.framing = false := by decide +kernel

/-- The module with member 1 fenced. -/
def fenced1 (d : Dev) : Dev := d.modVoter 1 fun x => { x with mode := .fenced }

/-- Ports 0 and 1 are Up-A and Up-B, up and in the chairlift. -/
def pairMap : List Sect := [sect 0x0001 0 64 [(17, 1, 2), (21, 1, 3)]]

/-- Every operand of the system commands that has an answer of its own: the last legal one and the first beyond it. -/
theorem test_witness_SysCommands :
    anyState.all (fun st => (at_ st asIs).dev.carries hdr anyState) = true ∧
    (at_ .running fun d => { d with cmd := { d.cmd with timed := [waiting ⟨11, 0, 0⟩ false false] } }).dev.cmd.timed.any
      (·.matches 255 1) = true ∧
    ((at_ .running fenced1).dev.member 1).mode = .fenced ∧ (at_ .running fenced1).dev.triad.herringbone = none ∧
    ((at_ .running fenced1).dev.member 2).mode ≠ .fenced ∧
    (ownPair (at_ .running (mapped pairMap asIs)).dev.map.active 2 || inPair (at_ .running (mapped pairMap asIs)).dev.map.active 2)
      = false ∧
    inPair (at_ .running (mapped pairMap asIs)).dev.map.active 1 = true ∧
    otherMember (at_ .running (mapped pairMap asIs)).dev.map.active 1 = some 0 := by decide +kernel

/-- A member of the pair in each state of R479 that a return is answered differently in. -/
theorem test_witness_SysCommands_members :
    [MemberSt.active, .down, .suspect, .standby].all (fun m =>
      (at_ .running (mapped pairMap fun d => d.modMember 1 fun x => { x with state := m })).dev.memberState 1 == m) = true := by
  decide +kernel

/-- A boot record of the pair of the slots A on a flash that is otherwise blank. -/
def record (trial : Bool) (bootMap : Nat) : BootRecord := ⟨1, 0, 0, 0, 0, trial, 0, bootMap, 1, 1, .zero⟩

/-- The state with that record on its flash. -/
def booted (r : BootRecord) (s : State) : State := { s with flash := flashWrite [] 0 r.bytes }

/-- A record written at the start of a blank flash is in force. -/
theorem record_in_force {r : BootRecord} (h : ∀ c ∈ flashWrite [] 0 r.bytes, c.1 < 64)
    (v : recordValid bootMagic (recordAt (flashWrite [] 0 r.bytes) 0 0) = true)
    (e : bootRecordOf (recordAt (flashWrite [] 0 r.bytes) 0 0) = r) : bootRecord (flashWrite [] 0 r.bytes) = some r := by
  rw [bootRecord_first h v, e]

/-- A boot record that is written is in force, with each field at its place (R548, R560). -/
theorem test_boot_record :
    bootRecord (flashWrite [] 0 (record false 2).bytes) = some (record false 2) ∧
    bootRecord (flashWrite [] 0 (record false 255).bytes) = some (record false 255) ∧
    bootRecord (flashWrite [] 0 (record true 255).bytes) = some (record true 255) :=
  ⟨record_in_force (by decide +kernel) (by decide +kernel) (by decide +kernel),
   record_in_force (by decide +kernel) (by decide +kernel) (by decide +kernel),
   record_in_force (by decide +kernel) (by decide +kernel) (by decide +kernel)⟩

/-- Off of each cause, with a restart owed and due or not; and the rails that lead to Off. -/
theorem test_witness_SupplyRows :
    (at_ .off asIs).dev.sys.state = .off ∧
    (at_ .off fun d => { d with sys := { d.sys with cause := 0x0041 } }).dev.sys.cause = 0x0041 ∧
    (at_ .off fun d => { d with sys := { d.sys with railRestartDue := true, offs42 := [2560000000] } }).dev.sys.offs42
      = 2560000000 :: [] ∧
    bootRecord (at_ .boot asIs).tornFlash = none ∧
    (at_ .boot asIs).dev.fw.present = none ∧
    [0, 6].all (fun r => (at_ .running asIs).dev.pwr.railBad (at_ .running asIs).dev.sys.ticks r 0) = true := by decide +kernel

/-- Boot with the images still to start; Standby with a boot map set that fails its checks, or none (the records are those of
`test_boot_record`). Whether a pair of images passes its tests rests on the release keys, which no statement fixes: of the two
clauses on it, one is always met. -/
theorem test_witness_StartRows :
    (let s := booted (record false 255) (at_ .boot fun d => { d with sys := { d.sys with imagesStarted := false } })
     s.dev.sys.state = .boot ∧ s.dev.sys.imagesStarted = false ∧ s.dev.triad.stopped = false) ∧
    (let s := booted (record false 2) (at_ .standby asIs)
     s.dev.sys.imagesStarted = true ∧ s.dev.sys.bootMapDone = false ∧ s.dev.sys.state = .standby ∧
       s.checkSlot 2 matches .error _) ∧ 3 < (record false 255).bootMap ∧ (record false 2).bootMap ≤ 3 ∧
    textBytes "LODG" ≠ [0x4C] := by decide +kernel

/-- Power: each operand class, the level in force, a higher one, and every condition of the sequencer before and after. -/
theorem test_witness_PowerLevels :
    (let s := at_ .running asIs
     s.dev.carries hdr workStates = true ∧ s.dev.pwr.level ≤ 3 ∧ s.dev.pwr.seq = none ∧ s.dev.pwr.setters = [] ∧
       s.dev.pwr.causes.toList.all (fun c => !c.active) = true) ∧
    ((at_ .running fun d => d.modPwr fun x => { x with level := 1 }).dev.pwr.level < 3) ∧
    ((at_ .running fun d => d.modPwr fun x => { x with level := 1, nextToken := 1000000 }).dev.pwr.nextToken ≤ 1000000) := by
  decide +kernel

/-- The module 25,600,000 ticks after Boot. -/
def later (d : Dev) : Dev := { d with sys := { d.sys with ticks := 25600000 } }

/-- A module that goes up or down, its ramp ended long ago. -/
def stepping (up : Bool) (old goal step level requested drainSince : Nat) : State :=
  at_ .running fun d => later (d.modPwr fun x => { x with
    seq := some ⟨up, old, goal, step, 0, false, some drainSince⟩, level := level, requested := requested
    rampFrom := 600, rampTo := 600, rampAt := 0 })

theorem test_witness_PowerLevels_steps :
    (let s := stepping true 0 1 1 0 1 0
     s.dev.pwr.rampEnd + 5120 ≤ s.dev.sys.ticks ∧ s.dev.pwr.target = 1 ∧ s.dev.latestValue 224 = none ∧ (at_ .running fun d => d.modPwr fun x =>
       { x with rampAt := 1000000 }).dev.pwr.rampEnd + 5120 > 1000000) ∧
    (let s := stepping false 2 1 3 1 1 0
     s.dev.pwr.target = s.dev.pwr.level ∧ s.dev.pwr.level < 3) ∧
    (let s := stepping false 2 1 2 2 1 25574400
     s.dev.drained = true ∧ 25574400 + 25600 ≤ s.dev.sys.ticks ∧ 0 + drainLimit s.dev.map.active ≤ s.dev.sys.ticks) ∧
    (let s := stepping false 2 1 2 2 1 25574401
     ¬ 25574401 + 25600 ≤ s.dev.sys.ticks) := by decide +kernel

/-- The causes of the snowplough: a window's end, power at and above the limit, at Green and above it; a warning and none. -/
theorem test_witness_SnowploughCauses :
    (at_ .running fun d => { d with sys := { d.sys with ticks := 25599999 } }).dev.pwr.windowAt + 25600000 > 25599999 ∧
    (let s := at_ .running fun d => later (d.modPwr fun x => { x with level := 1 })
     s.dev.pwr.windowAt + 25600000 ≤ s.dev.sys.ticks ∧ 100 * s.dev.pwr.limit < 100 * s.dev.pwr.limit + 1 ∧ 0 < s.dev.pwr.level ∧
       (s.dev.pwr.cause 4).active = false) ∧
    (at_ .running fun d => d.modPwr fun x => { x with level := 0 }).dev.pwr.level = 0 ∧ ploughReturns (at_ .running asIs).dev.map.active = true ∧
    ploughReturns (at_ .running (mapped [sect 0x0005 0 120 []] asIs)).dev.map.active = false ∧
    (at_ .running asIs).dev.pwr.warning = none ∧ hotter 0x42960001 750 = true ∧ hotter 0x42960000 750 = false ∧
    atLeast 0x41F00000 360 = false := by decide +kernel

/-- Fault-hold can be entered and not; a rail can be out of its window, for the first time and soon after a restart. -/
theorem test_witness_FaultHoldRows :
    (at_ .faultHold asIs).dev.sys.state ∉ [DevState.boot, .standby, .ready, .running, .quiesce] ∧
    (let s := at_ .running asIs
     s.dev.pwr.railBad s.dev.sys.ticks 2 0 = true ∧ s.dev.pwr.railBad s.dev.sys.ticks 5 0x3FE66666 = false ∧
       (getD s.dev.pwr.rails 2 ⟨false, none⟩).restartedAt = none ∧ s.dev.time.locked = true) ∧
    (let s := at_ .running fun d => { d.modRail 2 (fun _ => ⟨true, some 0⟩) with sys := { d.sys with state := .running, ticks := 2560000000 } }
     s.dev.pwr.railBad s.dev.sys.ticks 2 0 = true ∧ s.dev.sys.ticks ≤ 0 + 2560000000) ∧
    (let s := at_ .running fun d => { d.modPwr (fun x => { x with lidHot := some 0 }) with sys := { d.sys with state := .running, imagesStarted := true, ticks := 221184000000000 } }
     0 + 25600000000 ≤ s.dev.sys.ticks ∧ s.dev.time.savedAt + 221184000000000 ≤ s.dev.sys.ticks) := by decide +kernel

/-- A trial of 600 s on the record of `test_boot_record`, with the flash at work on a write of the module's own. -/
theorem test_witness_TrialTimeLimit :
    (let s := booted (record true 255) (at_ .running fun d =>
       { d.modFw (fun x => { x with busy := .own }) with sys := { d.sys with imagesStarted := true, ticks := 1536000000000 } })
     600 ≤ (s.dev.sys.ticks - s.dev.fw.started) / 2560000000 ∧ s.dev.sys.imagesStarted = true ∧
       (s.dev.fw.own.isEmpty = true) ∧ s.dev.fw.busy ≠ .idle) := by decide +kernel

/-! ### The triad, the flash, firmware and map slots -/

/-- The triad with a change to its members and its own fields. -/
def withTriad (f : TriadState → TriadState) (g : Nat → TriadMember → TriadMember) (d : Dev) : Dev :=
  let d := d.modTriad f
  (List.range 3).foldl (fun d m => d.modVoter m (g m)) d

/-- A request of kind 0 on target 5, with one byte. -/
def req : VoteReq := ⟨0, 5, [1]⟩

/-- Stopped; a member out of voting; all idle; one request waiting; an owed request that is in time, wrong, or too late; a vote
that is due; a herringbone whose pass is copied, or not, small, large, or its eighth. -/
theorem test_witness_TriadRows :
    (let s := at_ .running asIs
     s.dev.sys.state ≠ .off ∧ s.dev.triad.stopped = false ∧
       (List.range 3).all (fun m => s.dev.member m == { s.dev.member m with mode := .voting, presented := none, owed := [], errorAt := none }) = true) ∧
    (at_ .running (withTriad (fun x => { x with stopped := true }) fun _ x => x)).dev.triad.stopped = true ∧
    ((at_ .running fenced1).dev.member 1).mode ≠ .voting ∧
    (let s := at_ .running (withTriad (fun x => x) fun m x => if m = 1 then { x with presented := some req } else x)
     (s.dev.member 0).presented = none ∧ (s.dev.member 1).presented = some req ∧ (s.dev.member 2).presented = none) ∧
    (let s := at_ .running (withTriad (fun x => x) fun m x => if m = 2 then { x with owed := [(req, 974400)] } else x)
     (s.dev.member 2).owed = [(req, 974400)] ∧ s.dev.sys.ticks ≤ 974400 + 25600 ∧ req ≠ { req with kind := 1 }) ∧
    (let s := at_ .running (withTriad (fun x => x) fun m x => if m = 2 then { x with owed := [(req, 974399)] } else x)
     974399 + 25600 < s.dev.sys.ticks) ∧
    (let s := at_ .running fun d => later d
     s.dev.triad.lastVote + 25600000 ≤ s.dev.sys.ticks) := by decide +kernel

/-- A module whose member 1 climbs, in pass `pass` of so many lines begun at tick 0. -/
def climbing (pass lines : Nat) : State :=
  at_ .running (withTriad (fun x => { x with herringbone := some ⟨1, pass, lines, none, [], 0, 0, none⟩ })
    fun m x => if m = 1 then { x with mode := .climbing } else x)

theorem test_witness_TriadRows_herringbone :
    (climbing 1 64).dev.passCopied = true ∧ (climbing 1 65).dev.passCopied = true ∧ (climbing 1 8256).dev.passCopied = false ∧
    (climbing 8 65).dev.triad.queue = [] ∧ (climbing 8 65).dev.voting.length = 2 ∧ 64 < 65 ∧ ¬ 64 < 64 ∧
    (at_ .running asIs).dev.triad.herringbone = none := by decide +kernel

/-- A job of one step for a host command. -/
def job (x : FlashStep) : FlashJob := ⟨⟨hdr, 0x0E08, none, .zero⟩, [x], .answer⟩

/-- The flash at work on a step of a host command. -/
def working (x : FlashStep) : State := at_ .running fun d => d.modFw fun f => { f with jobs := [job x], busy := .host }

/-- Sectors and offsets at the edges of the owner area; blank and programmed bytes; an erase and a program under way, that end
right or with a wrong byte. -/
theorem test_witness_FlashOperations :
    flashStates.all (fun st => (at_ st asIs).dev.carries hdr flashStates) = true ∧
    isBlank (at_ .running asIs).flashAhead 55050240 1016 = true ∧
    isBlank ({ at_ .running asIs with flash := [(55050240, 0)] } : State).flashAhead 55050240 1016 = false ∧
    55050240 + 12058624 ≤ 67108864 ∧ (at_ .running asIs).dev.fw.busy = .idle ∧ (at_ .running asIs).dev.fw.own = [] ∧
    (working (.erase 840)).dev.fw.present = some (.erase 840) ∧
    (working (.program 55050240 [1, 2])).dev.fw.present = some (.program 55050240 [1, 2]) ∧
    (working (.erase 840)).flashCanonical = true ∧ (at_ .running asIs).dev.fw.present = none ∧
    firstDifference (.program 7 [1, 2]) (spoil (.program 7 [1, 2]) [] (FlashStep.apply (.program 7 [1, 2]) [])) = none ∧
    firstDifference (.program 7 [1, 2]) (spoil (.program 7 [1, 2]) [⟨8, 3⟩] (FlashStep.apply (.program 7 [1, 2]) [])) = some 8 := by
  decide +kernel

/-- The module with both images of its slots B marked as verified. -/
def verifiedB (d : Dev) : Dev := d.modFw fun f => { f with verified := f.verified.map fun _ => true }

/-- A slot that is not locked and not held, one that is held, and what makes FW.VERIFY fail. -/
theorem test_witness_FirmwareCommands :
    (let s := at_ .running asIs
     s.fwLocked 0 1 = false ∧ s.fwHeld 0 1 = false ∧ isBlank s.flash (0x220000 + 0x800000) 1016 = true ∧
       checkImage s.flash 0 1 = some (0x0301, .badImage) ∧ s.dev.fwNamed 0 1 = false ∧ s.dev.fwNamed 1 255 = true) ∧
    (working (.erase 162)).fwHeld 0 1 = true ∧ (at_ .running verifiedB).dev.fwNamed 0 1 = true ∧
    testedPairing (at_ .running verifiedB).flash 1 1 = false := by decide +kernel

/-- A record of the pair of the slots A locks these slots, and one on trial is on trial. -/
theorem test_witness_FirmwareCommands_record :
    (record false 255).names 0 0 = true ∧ (record true 255).trial = true ∧
    ((BootChange.activate 1 1).apply (record false 255)).trial = true ∧
    (at_ .running fun d => d.modFw fun f => { f with own := [.boot (.activate 1 1) none] }).recordAhead.trial = true ∧
    (at_ .running asIs).recordAhead.trial = false := by decide +kernel

/-- The map slots: locked, held, free; a slot whose map fails its checks; a swap queued, an old map not yet gone. A map that
passes every check has some 160 kilobytes, too many for a test of this file. -/
theorem test_witness_MapSlotCommands :
    (let s := at_ .running (mapped [] asIs)
     s.mapLocked 1 = true ∧ s.mapLocked 0 = false ∧ s.dev.mapHeld 0 = false ∧ isBlank s.flash 0x1420000 1016 = true ∧
       s.dev.map.swap = none ∧ s.dev.map.old = none) ∧
    (working (.erase 322)).dev.mapHeld 0 = true ∧
    ((at_ .running asIs).checkSlot 0 matches .error _) ∧
    (match (at_ .running asIs).checkSlot 0 with | .error e => e.status | .ok _ => .ok) = .badImage ∧
    (at_ .running fun d => d.modMap fun m => { m with swap := some ⟨1, 0⟩ }).dev.map.swap ≠ none := by decide +kernel

/-- A module with one key and a shadow map, its active map gone or not. -/
def keyed (st : DevState) (swapping : Bool) (waiting : Nat) : State :=
  at_ st fun d => { d with
    fw := { d.fw with own := [.keys (.add (zeros 32)) none] }
    map := { d.map with shadow := some (testMap []), swap := if swapping then some ⟨1, 0⟩ else none }
    cmd := { d.cmd with deferred := List.replicate waiting (.mrgSetClose hdr 2560 0) } }

/-- The ring empty, with a key, full, and locked; a swap that can be queued in each state, one in the way, and a full queue. -/
theorem test_witness_MapKeysAndSwap :
    (keyed .standby false 0).ringAhead = ⟨false, [zeros 32]⟩ ∧ (at_ .standby asIs).ringAhead = ⟨false, []⟩ ∧
    (at_ .standby fun d => d.modFw fun f => { f with own := [.keys .lock none] }).ringAhead.locked = true ∧
    (at_ .standby fun d => d.modFw fun f => { f with own := (List.range 8).map fun k => OwnWrite.keys (.add (leBytes 32 k)) none }).ringAhead.keys.length = 8 ∧
    [DevState.standby, .ready, .running].all (fun st =>
      let s := keyed st false 0
      s.dev.carries hdr [.standby, .ready, .running] && s.dev.map.swap.isNone && s.dev.map.shadow.isSome && s.dev.samePhase) = true ∧
    256 ≤ (keyed .running false 256).dev.cmd.deferred.length ∧ (keyed .running true 255).dev.cmd.deferred.length < 256 ∧
    (keyed .running true 0).dev.map.swap ≠ none ∧ (at_ .running asIs).dev.markerPassed = true ∧
    (at_ .running fun d => d.modMrg fun m => { m with waiting := [⟨0, fullRec, true⟩] }).dev.markerPassed = false := by
  decide +kernel

/-- A section that the active map has and its slot does not, and one that it has not. -/
theorem test_witness_SectionReload :
    (let s := at_ .running (mapped upMap asIs)
     s.dev.map.active = some (testMap upMap) ∧ (testMap upMap).sect? 0x0001 0 ≠ none ∧ (testMap upMap).sect? 0x0002 0 = none ∧
       s.sectionGood (testMap upMap) 0x0001 0 = false) := by decide +kernel

/-! ### Boundaries, the front end, converters, monitor and interpolators -/

/-- The last legal operand and the first illegal one of each kind; with and without room to wait; a source that is ready, in use,
and not. -/
theorem test_witness_BoundaryCommands :
    (at_ .ready asIs).dev.carries hdr [.ready, .running] = true ∧ (at_ .running asIs).dev.carries hdr [.ready, .running] = true ∧
    (keyed .running false 256).dev.carries hdr [.ready, .running] = true ∧ 256 ≤ (keyed .running false 256).dev.cmd.deferred.length ∧
    (0 ≤ 1023 ∧ 1023 ≤ 1023) ∧ ¬ (1 ≤ (0 : Nat)) ∧ averageFits none ⟨0, 1023⟩ 8 = true ∧
    averageFits (some (testMap [sect 0x0010 0 8208 [(18, 1, 1), (19, 1, 3)], sect 0x0039 0 72 [(18, 2, 3), (20, 1, 1)]])) ⟨0, 0⟩ 1 = false ∧
    (let s := at_ .running fun d => d.modTime fun x => { x with int := { x.int with present := true, ready := true } }
     (s.dev.time.source 2).ready = true ∧ s.dev.time.inUse = 2 ∧ s.dev.time.alignment ≠ .ambiguous ∧
       (s.dev.time.source 0).ready = false) ∧
    (at_ .running fun d => d.modTime fun x => { x with refA := { x.refA with ready := true } }).dev.time.inUse ≠ 0 := by decide +kernel

/-- Pixels and tiles inside and outside a range, held off or not, and a table of CMP in force. -/
theorem test_witness_BoundaryEffects :
    (at_ .running fun d => d.modCmp fun c => { c with tables := [⟨1, 0, false, fill 1024 (commandParams 0 0 0 0 false [] 0)⟩] }).dev.cmp.tables ≠ [] ∧ ((at_ .running asIs).dev.tileFe 63).any (fun x => !x.heldOff) = true ∧
    ((at_ .running fun d => d.modTile 63 fun x => { x with heldOff := true }).dev.tileFe 63).any (·.heldOff) = true ∧
    ((at_ .running asIs).dev.tdcPixel 1023).isSome = true ∧ (at_ .running asIs).dev.wfc[1023]?.isSome = true := by decide +kernel

/-- The module with a change to pixel 0. -/
def pixel0 (f : PixelFe → PixelFe) (d : Dev) : Dev := d.modPixel 0 f

/-- A pixel in a transition, in an open segment, in low-power mode between its samples, with a waiting change, and clamped. -/
theorem test_witness_GainChanges :
    (let s := at_ .running asIs
     s.dev.carries hdr [.ready, .running] = true ∧ s.dev.inTransition 0 = false ∧ s.dev.inOpenSegment 0 = false ∧
       s.dev.sampleBoundary 0 = true ∧ (getD s.dev.fe.pixels 0 PixelFe.initial).waiting = none) ∧
    (at_ .running (pixel0 fun x => { x with rangeSpans := [⟨999999, some 1000005⟩] })).dev.inTransition 0 = true ∧
    (at_ .running (pixel0 fun x => { x with openSegs := [1000000] })).dev.inOpenSegment 0 = true ∧
    (at_ .running (pixel0 fun x => { x with openSegs := [999999] })).dev.inOpenSegment 0 = false ∧
    (at_ .running fun d => { d.modWfc 0 (fun w => { w with lowPower := true }) with time := { d.time with tick := 5 } }).dev.sampleBoundary 0
      = false ∧
    (let s := at_ .running (pixel0 fun x => { x with waiting := some ⟨3, 974400, false⟩ })
     974400 + s.dev.gainDefer 0 ≤ s.dev.sys.ticks) ∧
    (let s := at_ .running (pixel0 fun x => { x with waiting := some ⟨3, 974401, true⟩ })
     s.dev.sys.ticks < 974401 + s.dev.gainDefer 0) ∧
    (let s := at_ .running (pixel0 fun x => { x with clampSpans := [⟨999999, none⟩] })
     (getD s.dev.fe.pixels 0 PixelFe.initial).clampSpans.any (·.stop.isNone) = true) := by decide +kernel

/-- A map that enables pixel 0, with two schedule entries: second 10, tick 1,000,000, and a tick later. -/
def scheduleMap : List Sect :=
  [sect 0x0010 0 8208 [(19, 1, 1)], sect 0x0011 0 64 [(8, 4, 2), (24, 4, 0), (28, 5, 10), (33, 4, 1000000), (44, 4, 0)]]

/-- The end of a transition with the discriminator above a threshold that fires or is silent; an entry due and one that is not. -/
theorem test_witness_GainChanges_transition :
    (let s := at_ .running (mapped scheduleMap (pixel0 fun x => { x with rangeSpans := [⟨999994, some 1000000⟩] }))
     s.dev.transitionEnds 0 = true ∧ silentCode (s.dev.thresholdsNow 0).timing = false ∧
       pixelEnabled s.dev.map.active 0 = true ∧ s.dev.pixelMasked 0 = false ∧ (s.dev.tdcPixel 0).any (·.slot) = false) ∧
    silentCode 1000 = false ∧ silentCode 1001 = true ∧
    (let s := at_ .running (mapped scheduleMap asIs)
     s.dev.fe.scheduleNext ≤ 1 ∧ mapCount s.dev.map.active 0x0011 0 = 2) := by decide +kernel

/-- The module with a change to tile 0. -/
def tile0 (f : TileFe → TileFe) (d : Dev) : Dev := d.modTile 0 f

/-- A tile that ramps and has come near its new bias, or not; gated off; in each step of a check; at the end of its flag. -/
theorem test_witness_TileRows :
    (at_ .running asIs).dev.carries hdr [.ready, .running, .quiesce] = true ∧
    (getD (at_ .running asIs).dev.fe.tiles 0 TileFe.initial).freeForCheck 1000000 = true ∧
    (let s := at_ .running (tile0 fun x => { x with ramping := true, target := 2000, output := 0, rampAt := 0, rampRate := 1000 })
     ((s.dev.tileFe 0).any fun x => x.ramping && nearBias (s.dev.tileOutput 0 x) x.target) = true) ∧
    (let s := at_ .running (tile0 fun x => { x with ramping := true, target := 2000, output := 0, rampAt := 0, rampRate := 1 })
     ((s.dev.tileFe 0).any fun x => nearBias (s.dev.tileOutput 0 x) x.target || x.freeForCheck 1000000) = false) ∧
    beyondTolerance 0x41A00000 2000 = false ∧ beyondTolerance 0x41A0CCCD 2000 = true ∧
    inSpans [⟨5, some 9⟩] 1000000 = false ∧
    (let s := at_ .running (mapped [sect 0x0013 0 2064 [(40, 2, 1)]] fun d => { d with sys := { d.sys with ticks := 2560000000 } })
     mapNum s.dev.map.active 0x0013 0 40 2 0 = 1 ∧ 0 + 1 * 2560000000 ≤ s.dev.sys.ticks) ∧
    (let s := at_ .running (tile0 fun x => { x with check := .charging 232000, flagEnds := some 1000000, pulseEnds := some 1000000 })
     (getD s.dev.fe.tiles 0 TileFe.initial).check = .charging 232000 ∧ 232000 + 768000 ≤ s.dev.sys.ticks ∧
       1000000 ≤ s.dev.sys.ticks) ∧
    (226880 + 773120 ≤ 1000000) ∧ ¬ 226881 + 773120 ≤ 1000000 := by decide +kernel

/-- A converter pixel whose slices have no corrections; the offset of slice 0 can be beyond its range. -/
def converter (off : Int) (mode : Bool) : State :=
  at_ .running (mapped [sect 0x0068 0 40 []] fun d => { d.modWfc 0 (fun w => { w with
      slices := (w.slices.map fun x => { x with off := 0, gc := 0, dly := 0 }).set! 0
        { getD w.slices 0 (Slice.initial .spare 0 0 0) with off := off, gc := 0, dly := 0 }
      lowPower := mode, settings := ⟨true, 13, 1, 0, 1⟩, nextSettings := ⟨true, 13, 1, 0, 1⟩ }) with
    acq := { d.acq with conv := some ⟨0, none⟩ } })

/-- The slice of the shadowed position at the end of a dwell without samples. -/
def ended (s : State) : Option (Option Nat) := (s.dev.wfc[0]?).map fun w =>
  (correctedSlice (w.keep s.dev.sys.ticks) 0 (s.dev.measureDwell 0 w (w.slice 0) [])).2

/-- A converter runs and rotates, its dwell is over; the corrections stay in range, or one does not. -/
theorem test_witness_ConverterRows :
    (let s := converter 0 false
     s.dev.converting = true ∧ (s.dev.wfc[0]?).any (fun w => w.rotates && s.dev.dwellOver w && w.sliceOf (.position 0) == some 0
       && w.sliceOf .spare == some 8) = true ∧ wfcTest s.dev.map.active = false) ∧
    (let s := converter 0 false
     let d := { s.dev.modWfc 0 (fun w => { w with testFails := fill 9 1 }) with map := { s.dev.map with active := none } }
     wfcTest d.map.active = true ∧ d.converting = true ∧
       (d.wfc[0]?).any (fun w => w.rotates && d.dwellOver w && w.sliceOf (.position 0) == some 0 && w.sliceOf .spare == some 8) = true ∧
       (testResult (List.replicate 4 (List.replicate 256 512))).code = some 1 ∧
       (testResult ((List.range 4).map fun k => List.replicate 128 (495 + 1024 * k) ++ List.replicate 128 (528 + 1024 * k))).code = none) ∧
    ended (converter 0 false) = some none ∧ ended (converter 4097 false) = some (some 0) ∧
    (at_ .running asIs).dev.converting = false := by decide +kernel

/-- The monitor in each phase with its time over; a conversion due and not; the margin's period over; a station with a limit. -/
theorem test_witness_MonitorRows :
    (let s := at_ .running asIs
     s.dev.mon.phase = .settling ∧ s.dev.mon.selectAt + 2560 * s.dev.mon.current.settle ≤ s.dev.sys.ticks ∧
       s.dev.mon.entry + 1 < monCount s.dev.mon.table) ∧
    (let s := at_ .running fun d => d.modMon fun m => { m with phase := .converting, excited := true }
     s.dev.mon.excited = true ∧ s.dev.mon.windowEnd ≤ 2560000 ∧
       s.dev.mon.convTick + conversionTicks s.dev.mon.lowPower ≤ s.dev.sys.ticks ∧
       s.dev.mon.current.input < 256) ∧
    (let s := at_ .running fun d => d.modMon fun m => { m with phase := .afterwards, entry := 24 }
     s.dev.mon.convTick + 2560 * s.dev.mon.current.after ≤ s.dev.sys.ticks ∧ monCount s.dev.mon.table ≤ s.dev.mon.entry + 1 ∧
       s.dev.mon.tableDue = false) ∧
    (at_ .running fun d => later d).dev.map.marginAt + 2560000 ≤ 25600000 ∧
    stationLimit (some (testMap [sect 0x0002 0 32 [(8, 4, 1), (16, 1, 3), (20, 4, 4000)]])) 3 = some 4000 ∧
    stationLimit none 3 = none := by decide +kernel

/-- Pixel 0 with the pair of the worked example of R172, and a pulse or none. -/
def interpolator (pulse : Option Pulse) (lost : Bool) : State :=
  at_ .running (mapped [sect 0x0010 0 8208 [(19, 1, 1)]] fun d => d.modTdc 0 fun x =>
    { x with applied := ⟨2061, 4131, false, false⟩, previous := ⟨2061, 4131, false, false⟩, pulse := pulse, lostRise := lost })

/-- An edge that fires, one of a pixel not in use, one lost, one that closes a word with room and without; a slot due. -/
theorem test_witness_InterpolatorRows :
    (let s := interpolator (some ⟨128 * 25601000000 - 130944, false, false, 25600998400⟩) false
     pixelEnabled s.dev.map.active 0 = true ∧ pixelEnabled s.dev.map.active 1 = false ∧
       silentCode (s.dev.thresholdsNow 0).timing = false ∧ s.dev.pixelMasked 0 = false ∧
       ((s.dev.tdcPixel 0).any fun x => !x.slot && x.lastStop ≤ s.dev.sys.ticks && x.applied.c1 != x.applied.c2 && x.pulse.isSome) = true ∧
       0 < crossingDepth s.dev.map.active 1 0 4096 ∧ (getD s.dev.acq.hitFifo 0 []).length < crossingDepth s.dev.map.active 1 0 4096) ∧
    crossingDepth (some (testMap [sect 0x0003 0 24 [(8, 4, 1), (16, 1, 1), (20, 4, 0)]])) 1 0 4096 ≤ 0 ∧
    ((interpolator none true).dev.tdcPixel 0).any (·.lostRise) = true ∧
    (let s := at_ .running fun d => { d with time := { d.time with seconds := 0, tick := 262144 - 128 } }
     sinceEdge s.dev.framePhase s.dev.globalNow = 262144 - 128) ∧
    slotEnabled (interpolator none false).dev.map.active 0 = true := by decide +kernel

/-- The age of a pulse on either side of the limits of R175 and R176. -/
theorem test_witness_InterpolatorRows_age :
    (let s := interpolator none false
     (s.dev.globalNow : Int) = 25601000000) ∧ (130944 : Int) ≤ 128 * 25601000000 - (128 * 25601000000 - 130944) ∧
    (128 * 25601000000 - (128 * 25601000000 - 130943) : Int) < 130944 ∧
    (1051632 : Int) ≤ 128 * 25601000000 - (128 * 25601000000 - 1051632) := by decide +kernel

/-- Whatever the factory pair of a pixel, its own counts are accepted and counts a million apart are not. -/
theorem test_witness_pair_accepted (p : Nat) :
    pairAccepted none p (Config.factoryC1 p).toNat (Config.factoryC2 p).toNat = true ∧ pairAccepted none p 0 1000000 = false := by
  have h1 := (Config.factoryC1 p).isLt
  have h2 := (Config.factoryC2 p).isLt
  simp only [pairAccepted, factoryPair, mapNum, Option.bind_none]
  constructor
  · simp
  · simp; omega

/-! ### The time base, Slalom and the Schuss lanes -/

/-- The module with a change to its time base. -/
def timed (st : DevState) (f : TimeState → TimeState) : State := at_ st fun d => d.modTime f

/-- A source that is present, not failed and ready. -/
def goodSource : Source := ⟨true, false, 0, 9, true⟩

/-- TIME.ALIGN with a slew, with nothing to align to, with a parent, with PPS on REF A; the last legal spread and source; a
switch to a ready source that is another. -/
theorem test_witness_TimeCommands :
    (timed .standby id).dev.carries hdr [.standby, .ready] = true ∧ (timed .running id).dev.carries hdr [.standby, .ready, .running] = true ∧
    (timed .ready fun t => { t with slewFrom := some 2 }).dev.time.slewFrom ≠ none ∧
    ((timed .ready id).dev.time.slewFrom = none ∧ (timed .ready id).dev.time.inUse = 2) ∧
    (timed .ready fun t => { t with inUse := 1 }).dev.time.inUse = 1 ∧
    ((timed .ready fun t => { t with inUse := 0, pps := true }).dev.time.inUse = 0 ∧
      (timed .ready fun t => { t with inUse := 0, pps := true }).dev.time.pps = true) ∧
    (24 ≤ 24 ∧ 4 ≤ 100 ∧ 100 ≤ 100) ∧ ¬ (101 ≤ 100) ∧
    (let d := (timed .running fun t => { t with refA := goodSource }).dev
     (d.time.source 0).ready = true ∧ d.time.inUse ≠ 0 ∧ d.time.alignment = .free) ∧
    (timed .running fun t => { t with alignment := .ambiguous, refA := goodSource }).dev.time.alignment = .ambiguous := by
  decide +kernel

/-- A source present and absent, in use and not; a window that is discarded and one that counts; a slew over and not; a return due. -/
theorem test_witness_SourceRows :
    ((timed .running fun t => { t with refA := goodSource }).dev.time.source 0).present = true ∧
    ((timed .running id).dev.time.source 0).present = false ∧ (timed .running id).dev.time.inUse = 2 ∧
    (let t := (timed .running fun t => { t with refA := goodSource, int := goodSource, inUse := 0 }).dev.time
     (t.source 0).present = true ∧ t.inUse = 0 ∧ t.int.present = true) ∧
    ((timed .running id).dev.time.discard = true ∧ (timed .running id).dev.time.limitsDue = false) ∧
    (let s := timed .running fun t => { t with discard := false, refA := goodSource, int := goodSource, inUse := 0, correction := 10000 }
     s.dev.time.discard = false ∧ s.dev.time.slewFrom = none ∧ s.dev.sourceCounts 0 = true ∧ s.dev.sourceCounts 2 = true ∧
       s.dev.sourceCounts 1 = false ∧ s.dev.time.correction ≤ 10000) ∧
    (timed .running fun t => { t with slewEnds := 1000001 }).dev.sys.ticks < 1000001 ∧
    (timed .running fun t => { t with slewEnds := 1000000 }).dev.time.slewEnds ≤ 1000000 ∧
    (let s := at_ .running (mapped [sect 0x0028 0 64 [(17, 1, 1)]] fun d => { d.modTime (fun t => { t with readySince := some 0 }) with
       sys := { d.sys with ticks := 60 * 2560000000 } })
     timeFlag s.dev.map.active 0 0 = true ∧ 0 + timeField s.dev.map.active 8 2 60 * 2560000000 ≤ s.dev.sys.ticks) := by
  decide +kernel

/-- A map whose Schuss lane 0 is Up and lane 1 Down, of another group; its module is the authority or not. -/
def schussMap (authority : Nat) : List Sect := [sect 0x0032 0 56 [(16, 1, authority), (20, 1, 9), (21, 1, 0xE4)]]

/-- A module with lane 0 delineated, up, at the start of a message. -/
def schussOn (authority : Nat) (f : SchussLane → SchussLane) : State :=
  at_ .running (mapped (schussMap authority) fun d => d.modSchuss 0 fun x =>
    f { x with delineated := true, up := true, farDelineated := true, fresh := 122 })

/-- The 64 line bits of a message from a scrambler at rest. -/
def onLine (m : Schuss) : Nat := (schussLine 0 (schussWord m.content)).1

/-- A message arrives on lane 0. -/
def arrives (s : State) (m : Schuss) : Bool :=
  match s.dev.schuss[0]? with
  | none => false
  | some x => s.dev.schussRuns 0 && x.delineated &&
      (match (x.takeBits (onLine m)).2 with | none => false | some w => schussOk w && schussOf (w / 4096) == m)

/-- One message of each type, its fields at the top of their widths, is received as it was sent (R356 to R358). -/
theorem test_schuss_messages :
    [Schuss.fire 4095 15 (2 ^ 35 - 1), .arm true 255 65535 (2 ^ 25 - 1), .busy 4095 true 15, .time 3 15 (2 ^ 42 - 1),
      .idle 4095 true 65535].all (arrives (schussOn 0 id)) = true := by decide +kernel

/-- PPS comes or not, in use or not, with an alignment waiting; late; a second boundary with seconds waiting; a request due; an
exchange that ends. -/
theorem test_witness_TimeRows :
    (let s := timed .ready fun t => { t with pps := true, inUse := 0, pendingAlign := [⟨hdr, 0x0403, none, .zero⟩] }
     s.dev.time.pps = true ∧ s.dev.time.inUse = 0 ∧ s.dev.time.pendingAlign ≠ [] ∧ s.dev.sys.state = .ready) ∧
    (timed .ready id).dev.time.pps = false ∧
    (let s := timed .running fun t => { t with pps := true, ppsLast := none }
     s.dev.time.pps = true ∧ s.dev.time.ppsLast = none) ∧
    (timed .running id).dev.time.tick ≠ 0 ∧
    (let s := timed .ready fun t => { t with tick := 0, pendingSeconds := some 5, steerLeft := 3 }
     s.dev.time.tick = 0 ∧ s.dev.sys.state ≠ .running ∧ s.dev.time.steerLeft.natAbs ≤ steerRate s.dev.map.active) ∧
    ((schussOn 0 id).dev.requestLane = some 0 ∧ (schussOn 0 id).dev.requestDue = true ∧
      ((schussOn 0 id).dev.schuss[0]?).any (fun x => x.others.length < 16) = true) ∧
    (timed .running id).dev.requestLane = none ∧ (timed .running id).dev.schussRuns 0 = false ∧
    arrives (schussOn 0 id) (.time 0 7 0) = true ∧
    arrives (schussOn 0 fun x => { x with exchange := some ⟨7, 0, some 9, some 1, some 2, none⟩ }) (.time 3 7 10) = true ∧
    (Exchange.take ⟨7, 0, some 9, some 1, some 2, none⟩ 3 10 12).seconds = some 10 ∧
    (9 + 6553600 : Int) ≤ (1000000 * 128 : Nat) := by decide +kernel

/-- The authority and not; a course that can fire and one that cannot; edges that light a pixel and edges that are passed over;
an arm that is due. -/
theorem test_witness_SlalomRows :
    armFireBit (schussOn 1 id).dev.map.active 0 0 = true ∧ armFireBit (schussOn 0 id).dev.map.active 0 0 = false ∧
    ((schussOn 1 id).dev.carries hdr [.ready, .running] = true ∧ laneRole (schussOn 1 id).dev.map.active 0 ≠ 0) ∧
    (let s := at_ .running (mapped [sect 0x0030 0 672 [(18, 1, 1)]] fun d => d.modCourse 0 fun c => { c with armed := true })
     courseEnabled s.dev.map.active 0 = true ∧ ((s.dev.applyDueArms.slalom.courses[0]?).any (·.armed)) = true ∧
       courseEnabled s.dev.map.active 15 = false) ∧
    (let d := (at_ .running (mapped [sect 0x0010 0 8208 [(19, 1, 1)]] asIs)).dev
     d.triggerTaken 0 999990 true = false ∧ d.triggerTaken 0 999990 false = false ∧ d.triggerTaken 1 999990 true = true) ∧
    (let s := at_ .running fun d => d.modSlalom fun x => { x with pendingArms := [⟨true, 1, 0⟩, ⟨false, 1, 2 ^ 60⟩] }
     (s.dev.slalom.pendingArms.filter (·.at_ ≤ s.dev.globalNow)).length = 1) := by decide +kernel

/-- Messages that are new, and what makes them known; a BUSY to repeat and one expired; a slot that begins, with each queue empty. -/
theorem test_witness_SchussRows :
    (timed .running id).dev.schussRuns 0 = false ∧
    ((schussOn 0 id).dev.relays = true ∧ arrives (schussOn 0 id) (.fire 5 2 77) = true ∧
      (schussOn 0 id).dev.holdsKey (schussOn 0 id).dev.slalom.sent ⟨0, 77, 0⟩ = false) ∧
    (arrives (schussOn 0 id) (.arm false 3 1 77) = true ∧ (schussOn 0 id).dev.slalom.knownArms = []) ∧
    (arrives (schussOn 0 id) (.busy 9 true 3) = true ∧ (schussOn 0 id).dev.slalom.knownBusy = [] ∧
      9 ≠ fireId (schussOn 0 id).dev.map.active) ∧
    arrives (schussOn 0 id) (.idle 9 false 3) = true ∧
    (let s := at_ .running fun d => { d.modSlalom (fun x => { x with busySent := some 0, busySet := [⟨4, 0⟩] }) with
       acq := { d.acq with busySince := some 0 } }
     0 + 2560 * mapNum s.dev.map.active 0x0032 0 30 2 10 ≤ s.dev.sys.ticks ∧ s.dev.acq.busySince ≠ none ∧
       0 + 2560 * mapNum s.dev.map.active 0x0032 0 32 2 25 ≤ s.dev.sys.ticks) ∧
    slotFine 0 = some 0 ∧ slotFine 1 = none ∧ slotFine 6 = some 51 ∧
    ((schussOn 0 id).dev.schuss[0]?).any (fun x => x.fires.isEmpty && x.others.isEmpty && x.slotAt.isNone) = true := by
  decide +kernel

/-! ### Acquisition, compression, merge, link and lanes -/

/-- A freeze order of course 0 with candidate number `seq`, its window of 64 samples fired at tick 999,000. -/
def order (seq : Nat) : FreezeOrder :=
  { course := 0, fire := 999000, time := ⟨10, 999000, 0⟩, key := 0, seq := seq, followed := false, deadTotal := 0, lookBack := 32
    samples := 64, reserve := 4096, temps := [], oldMap := false, avg := [], table := 1, parity := ⟨true, true⟩, formed := 999100 }

/-- A block of pixel `p` whose raw codes are all `c`. -/
def block (p c : Nat) : Block :=
  { pixel := p, gain := 0, avg := 0, pair := ⟨2061, 4131, false, false⟩, openInput := false, hits := [], annotations := []
    raw := List.replicate 64 c, words := List.replicate 64 c, width := 12, leftOut := 0, firstLeft := 0, lostHits := false
    badSamples := [] }

/-- A raw segment of candidate `seq` with these blocks. -/
def segment (seq : Nat) (closed : Bool) (bs : List Block) : RawSeg :=
  { order := order seq, start := 998968, blocks := bs, early := false, written := none, closed := closed, bytes := 4096, place := [(0, 4096)], poisoned := false }

/-- A CMP job on a segment with one block, still to be coded. -/
def cmpJob (wait : Option CmpWait) : CmpJob :=
  { item := .segment (segment 1 true [block 3 100]), done := [], flushed := [], poisoned := false, head := zeros 64, headParity := List.replicate 8 .good, taken := 0, chain := [], wait := wait }

/-- Acquisition with a change. -/
def acquiring (f : AcqState → AcqState) : State := at_ .running fun d => { d with acq := f d.acq }

/-- Marks at the edges of their ranges; an order that makes each stub and one that makes a segment; a hit list due and not; an edge
of the frame with tags and without; a frame to close. -/
theorem test_witness_AcqRows :
    (acquiring id).dev.carries hdr [.ready, .running, .quiesce] = true ∧ (acquiring id).dev.acq.busySince = none ∧
    (acquiring fun a => { a with busySince := some 0 }).dev.acq.busySince ≠ none ∧
    ((acquiring fun a => { a with orders := [order 1] }).dev.acq.orders = [order 1] ∧ 0 < (acquiring id).dev.freeDesc ∧
      1048576 ≤ (acquiring id).dev.freeMem) ∧
    ((order 1).fire - (order 1).lookBack + 16384 : Int) > 1000000 ∧
    (acquiring fun a => { a with segments := [{ segment 1 false [] with bytes := 67000000 }] }).dev.freeMem < 1048576 ∧
    ((segment 1 false []).closesAt > 1000000) ∧ ({ segment 1 false [] with start := 900000 } : RawSeg).closesAt ≤ 1000000 ∧
    (let s := at_ .running (mapped [sect 0x0010 0 8208 [(19, 1, 1)]] fun d => { d with
       time := { d.time with tick := 0, seconds := 0 }, acq := { d.acq with tagEnable := true, tag := d.acq.tag.set! 0 true } })
     s.dev.atFrameEdge = true ∧ s.dev.acq.edgeAt ≠ some s.dev.sys.ticks ∧ s.dev.tagMask 0 ≠ 0 ∧ s.dev.tagMask 1 = 0) ∧
    (let s := acquiring fun a => { a with frames := a.frames.set! 0 [⟨25601000000 - 262144 - 1280, 0, [], 0, 1, [], false⟩] }
     (s.dev.frameDue 0).isSome = true ∧ s.dev.frameDue 1 = none ∧ s.dev.framerWaits = false ∧
       (List.range 64).all (fun m => (getD s.dev.acq.tagFifo m []).isEmpty) = true) := by decide +kernel

/-- CMP with nothing to do, a stub, a block to code, a writer that waits and gets its buffer. -/
theorem test_witness_CmpRows :
    (acquiring id).dev.carries hdr [.running, .quiesce] = true ∧ (acquiring id).dev.cmp.job = none ∧
    (let s := acquiring fun a => { a with stubs := [⟨order 1, 1⟩] }
     (s.dev.acq.stubs.find? (·.order.seq == s.dev.oldestSeq)).isSome = true ∧ 1 ≤ s.dev.localFree) ∧
    (cmpJob none).wait = none ∧ ((segment 1 true [block 3 100]).blocks.map (·.pixel)).Nodup ∧
    ((cmpJob none).left 0).length = 1 ∧
    (let s := at_ .running (mapped [sect 0x0004 0 48 [(8, 4, 1), (16, 1, 1), (17, 1, 1)]] fun d =>
       { d with cmp := { d.cmp with job := some { cmpJob (some ⟨0, 5, true⟩) with
           done := [⟨3, List.replicate 40 0, List.replicate 5 .good, false⟩] } } })
     s.dev.cmp.job.any (fun j => j.coded && decide (chainBuffers j.ready ≤ j.chain.length + s.dev.localFree)) = true ∧
       nextTurn (turnsOf s.dev.map.active 1) (getD s.dev.turns.next 1 0) s.dev.waitsForBuffer = some (0, 0)) := by decide +kernel

/-- An open event with a deadline. -/
def event (deadline : Nat) : OpenEvent := ⟨0, deadline, [], [], [], false, none⟩

/-- The merge engine with a change. -/
def merging (sects : List Sect) (f : MrgState → MrgState) : State := at_ .running (mapped sects fun d => d.modMrg f)

/-- A halted stream that is known; open events before and after their deadline; a return due and not; a copy that lags. -/
theorem test_witness_MergeRows :
    (let s := merging upMap fun m => { m with streams := [⟨0, 0, 0, .halted, [], 0, 0, false, []⟩] }
     s.dev.carries hdr [.ready, .running, .quiesce] = true ∧ knownStream s.dev.map.active 0 0 0 = true ∧
       knownStream s.dev.map.active 0 1 0 = false ∧ (s.dev.rxStream 0 0 0).mode = .halted) ∧
    (merging upMap id).dev.rxStream 0 0 0 = ⟨0, 0, 0, .start, [], 0, 0, false, []⟩ ∧
    (let s := merging [] fun m => { m with events := [event 25601000000, event 25601000001] }
     (s.dev.mrg.events.countP fun e => !e.closed && e.deadline ≤ s.dev.globalNow) = 1) ∧
    (let g : Grant := ⟨5, 0, 1, 8, 4, 10, 6, 2, 997440, 0⟩
     g.returnable ≠ 0 ∧ g.since + 256 * g.delay ≤ 1000000 ∧ ¬ ({ g with since := 997441 } : Grant).since + 256 * g.delay ≤ 1000000) ∧
    (let c : Copy := ⟨0, 5, 1, [], [], false, 0, false, false, []⟩
     let s := at_ .running (mapped pairMap fun d => { (d.modMrg fun m => { m with copies := [c] }).modMember 0 (fun x => { x with state := .active })
       with sys := { d.sys with ticks := 2560000000 } })
     s.dev.laggingCopy = some c ∧ otherMember s.dev.map.active 0 = some 1 ∧ s.dev.memberState 0 = .active) := by decide +kernel

/-- A port 0 of role Down, up and locked, whose wheel gives its chair 0 to address 5 on VC 1. -/
def linked (f : LinkPort → LinkPort) (g : LanePort → LanePort) : State :=
  at_ .running (mapped [sect 0x0001 0 64 [(17, 1, 1)], sect 0x0048 0 16400 [(16, 2, 0x9005)]] fun d =>
    (d.modPort 0 fun x => g { x with step := .up, tx := .up, rx := .locked, stage := 0, knLocked := true }).modLink 0 f)

/-- A held parcel of one record. -/
def parcel : Held := ⟨1, 7, 5, 1, true, false, [1, 2, 3], 5, some (0, true)⟩

/-- The next state. -/
def next (o : Host.Outcome State Fault Refusal) : State := match o with | .next t => t | _ => State.reset

/-- What the lanes of port 0 carry, as quarters of a chair. -/
def quarters (s : State) : List LaneQuarter :=
  (List.range 4).map fun q => ⟨lineBytes 16 (getD (s.dev.linkPort 0).tx.line q []), []⟩

/-- A port that replays one parcel, in the rotation that the block of counter 0 began. -/
def replaying : State := linked (fun l => { l with tx := { l.tx with held := [parcel], replay := some 0, next := 8, counter := 1 } }) id

/-- A parcel that a port sends on its four lanes comes out of a receiver in step with it as it went in, its CRC right (R305, R340, R341, R344). -/
theorem test_chair_there_and_back :
    (replaying.dev.chairIn 0 0 (quarters (next (exec (.chairTransmit 0 0 []) replaying)))).2.1 = parcel.bytes ∧
    parcelOk parcel.bytes = true ∧ (parcelOf parcel.bytes 0).1.payload = [1, 2, 3] := by decide +kernel

/-- A receiver not locked; a locked one, with a parcel in sequence; a transmitter that is silent, that replays, that has returns or a
record to send; and the conditions of the timers. -/
theorem test_witness_ChairRows :
    ((at_ .running asIs).dev.port 0).rx ≠ .locked ∧
    (replaying.dev.port 0).rx = .locked ∧ (replaying.dev.port 0).step = .up ∧ pairOf replaying.dev.map.active 0 = [0] ∧
    (replaying.dev.sends 0 = true ∧ mayResend (replaying.dev.txMap 0) 0 (halfChair (replaying.dev.txMap 0) 0 0 0) parcel = true) ∧
    (at_ .running asIs).dev.sends 0 = false ∧
    (let s := linked (fun l => { l with rx := { l.rx with expected := 7 } }) id
     ((parcelOf parcel.bytes 0).1.seq + 4096 - (s.dev.linkPort 0).rx.expected) % 4096 = 0 ∧
       (s.dev.linkPort 0).rx.crossing.length < crossingDepth s.dev.map.active 2 0 8192) ∧
    (let l := (linked (fun l => { l with
        tx := { l.tx with stalledSince := some 0, held := [parcel], stillSince := some 0, blockedSince := some 0 }
        rx := { l.rx with ackChanged := some 744000 } }) id).dev.linkPort 0
     l.tx.held ≠ [] ∧ 744000 + 256000 ≤ 1000000 ∧ ¬ 0 + 2560000 < 1000000 ∧ l.tx.leftBehind = false) ∧
    (let s := linked id fun x => { x with tx := .asleep }
     (s.dev.port 0).tx = .asleep ∧ (s.dev.port 0).txSleep.ackWait = false ∧ (s.dev.port 0).txSleep.wakeAt = none) := by
  decide +kernel

/-- A new parcel of a record that goes down, and a chair that carries nothing. -/
theorem test_witness_ChairRows_new :
    (let q : QRec := ⟨1, leBytes 2 0 ++ leBytes 2 0 ++ leBytes 2 5 ++ zeros 30, 0, [], .loc, [], [], false, false, false, false, false⟩
     let s := linked id id
     let s := s.onDev fun d => d.modMrg fun m => { m with down := m.down.set 0 ⟨[⟨[q]⟩], none, none⟩ }
     (s.dev.newParcel 0 [0] ⟨true, 5, 0⟩).isSome = true ∧ s.dev.newParcel 0 [0] ⟨false, 5, 0⟩ = none) := by decide +kernel

/-! ### Blocks, lanes, the store, integrity and calibration -/

/-- Port 0 of the given role, with Kn locked, at a point of the chairlift. -/
def lifted (role : Nat) (f : LanePort → LanePort) : State :=
  at_ .ready (mapped [sect 0x0001 0 64 [(17, 1, role)]] fun d => d.modPort 0 fun x => f { x with knLocked := true, delineated := true })

/-- A block of lane `q` with counter `c`, as the partner sends it. -/
def found (q c : Nat) (spaced : Bool) : LaneBlock := ⟨true, spaced, blockQuarter q c false false ⟨0, false, 0, false⟩⟩

/-- A lane that has found seven good blocks, locks on the eighth, misses one, and starts again on one out of place (R322). -/
theorem test_alignment :
    (⟨7, 41, 0⟩ : AlignLane).search (found 2 42 true) = ⟨8, 42, 0⟩ ∧ (⟨7, 41, 0⟩ : AlignLane).search (found 2 42 false) = ⟨1, 42, 0⟩ ∧
    (⟨7, 41, 0⟩ : AlignLane).search { found 2 42 true with bytes := zeros 16 } = ⟨0, 41, 0⟩ ∧
    (⟨8, 2 ^ 24 - 1, 0⟩ : AlignLane).miss (found 0 0 true) = none ∧ (⟨8, 41, 0⟩ : AlignLane).miss (found 0 43 true) ≠ none := by
  decide +kernel

/-- Every lane of port 0 with so many good blocks, the last of this counter. -/
def aligned (run counter : Nat) (f : LanePort → LanePort) : State :=
  (lifted 1 f).onDev fun d => d.modLanes 0 fun _ l => { l with align := ⟨run, counter, 3⟩ }

/-- Blocks sent in each condition, a wake burst that is due; blocks received locked and searching, in step and apart. -/
theorem test_witness_BlockRows :
    ((lifted 1 fun x => { x with tx := .align, upDue := true, step := .up }).dev.port 0).tx = .align ∧
    (let x := (lifted 1 fun x => { x with tx := .asleep, txSleep := { x.txSleep with wakeAt := some 25601000000 } }).dev.port 0
     x.tx = .asleep ∧ x.txSleep.ackWait = false ∧ x.txSleep.wakeAt = some 25601000000 ∧ x.upDue = false) ∧
    (let x := (lifted 1 fun x => { x with txSleep := { x.txSleep with waking := true, bursts := 15, wakeAt := some (25601000000 - 25600 * 15) } }).dev.port 0
     x.txSleep.waking = true ∧ x.txSleep.seen = none ∧ x.txSleep.bursts < 16 ∧ 25601000000 - 25600 * 15 + 25600 * x.txSleep.bursts ≤ 25601000000) ∧
    (let s := aligned 8 41 fun x => { x with step := .up, tx := .up, rx := .locked }
     (s.dev.port 0).searches = false ∧ (s.dev.port 0).rx = .locked ∧
       (List.range 4).all (fun q => ((s.dev.lane q).align.miss (found q 42 true)).isNone) = true ∧
       ((s.dev.lane 0).align.miss (found 0 43 true) ≠ none ∧ 3 ≤ (s.dev.lane 0).align.misses)) ∧
    (let s := aligned 7 41 fun x => { x with step := .align, tx := .align, rx := .passed }
     (s.dev.port 0).searches = true ∧ s.dev.maySearch 0 = true ∧
       (List.range 4).all (fun q => ((s.dev.lane q).align.search (found q 42 true)) == ⟨8, 42, 0⟩) = true ∧
       ((s.dev.lane 0).align.search (found 0 43 true)).run ≠ 8) ∧
    ((lifted 1 id).dev.port 0).searches = false ∧ ((lifted 1 id).dev.port 0).rx ≠ .locked := by decide +kernel

/-- A port without a chairlift; one that can retrain, climb, sleep, wake and be tested, and the keys and operands at their limits. -/
theorem test_witness_LaneCommands :
    wilurRole (portRole (at_ .ready asIs).dev.map.active 0) = false ∧
    workStates.all (fun st => (at_ st asIs).dev.carries hdr workStates) = true ∧
    (let s := lifted 1 fun x => { x with step := .up, tx := .up, rx := .locked }
     wilurRole (portRole s.dev.map.active 0) = true ∧ (s.dev.port 0).step ≠ .out ∧
       min (s.dev.cap 0) (s.dev.port 0).received.cap = (s.dev.port 0).stage ∧
       s.dev.keyInBounds 0 noWakeKey = true ∧ s.dev.keyInBounds 0 2560000000 = false) ∧
    (let s := lifted 2 fun x => { x with step := .up, stage := 1, received := { x.received with cap := 0 } }
     min (s.dev.cap 0) (s.dev.port 0).received.cap ≠ (s.dev.port 0).stage ∧ s.dev.otherReenters 0 = false) ∧
    (let s := lifted 1 fun x => { x with tx := .asleep, rx := .asleep, txSleep := { x.txSleep with wakeAt := some (2 ^ 50) } }
     (s.dev.port 0).tx = .asleep ∧ (s.dev.port 0).txSleep.ackWait = false ∧ (s.dev.port 0).rx = .asleep ∧
       s.dev.globalNow + wakeLead s.dev.map.active 0 < 2 ^ 50) ∧
    (let s := lifted 1 fun x => { x with step := .test, test := some ⟨0, 0, true, true, 1000000⟩ }
     (s.dev.port 0).test ≠ none ∧ (s.dev.port 0).step ≠ .out ∧ 0 ≤ s.dev.cap 0 ∧ (1000000 : Nat) ≤ s.dev.sys.ticks) ∧
    (16 ≤ 16 ∧ 40 ≤ 40 ∧ ¬ 41 ≤ 40) := by decide +kernel

/-- Up-A waits for a re-entry of Up-B. -/
theorem test_witness_LaneCommands_waits :
    (let s := at_ .ready (mapped pairMap fun d => (d.modPort 1 fun x => { x with step := .train, reentry := true }).modPort 0
       fun x => { x with step := .up, stage := 1 })
     portRole s.dev.map.active 0 = 2 ∧ s.dev.otherReenters 0 = true ∧ portOfRole s.dev.map.active 3 = some 1) ∧
    (let s := at_ .ready (mapped pairMap fun d =>
       { d.modPort 0 fun x => { x with reentryDue := some (1, 0) } with sys := { d.sys with ticks := 256000000 } })
     (s.dev.port 1).reentryAt + 256000000 ≤ s.dev.sys.ticks ∧ (s.dev.port 0).reentryDue = some (1, 0)) := by decide +kernel

/-- Each step of the chairlift with its time over; a Kn that locks, is lost, and brings a nibble. -/
theorem test_witness_ChairliftRows :
    (let s := at_ .ready (mapped [sect 0x0001 0 64 [(17, 1, 1)]] fun d =>
       { d.modPort 0 fun x => { x with step := .train, rx := .training, knLocked := true, sentAt := none } with
         sys := { d.sys with ticks := 2 ^ 40 } })
     (s.dev.port 0).since + trainTicks 0 ≤ s.dev.sys.ticks ∧ (s.dev.port 0).since + signalTicks 0 false (2 ^ 28) ≤ s.dev.sys.ticks ∧
       0 + alignTicks 0 ≤ s.dev.sys.ticks ∧ (s.dev.port 0).since + 2560000 ≤ s.dev.sys.ticks ∧
       (s.dev.port 0).since + retryTicks s.dev.map.active 0 ≤ s.dev.sys.ticks ∧
       (s.dev.port 0).relockAt + relockTicks s.dev.map.active 0 ≤ s.dev.sys.ticks ∧
       s.dev.time.locked = true ∧ (s.dev.port 0).sentAt = none) ∧
    ((at_ .ready (mapped upMap asIs)).dev.port 0).knLocked = false ∧ ((lifted 1 id).dev.port 0).knLocked = true ∧
    wilurRole (portRole (lifted 1 id).dev.map.active 0) = true := by decide +kernel

/-- The lane-control message that a partner's states spell is read back as it was sent (R311, R313). -/
def message : LcMsg := { LcMsg.initial with tx := 3, rx := 4, stage := 4, cap := 4, episode := 255, ackEpisode := 7, wakeKey := noWakeKey, address := 4094, role := 2 }

theorem test_lane_control : lcMsgOk message.bytes = true ∧ lcMsgOf message.bytes = message ∧ message.bytes.length = 16 := by decide +kernel

/-- Sleep not acknowledged; a window that opens, and one missed; a wake that fails. -/
theorem test_witness_SleepRows :
    (let x := (lifted 1 fun x => { x with txSleep := { x.txSleep with ackWait := true, since := 744000 } }).dev.port 0
     x.txSleep.ackWait = true ∧ x.txSleep.since + 256000 ≤ 1000000 ∧ ¬ 744001 + 256000 ≤ 1000000) ∧
    (let s := lifted 1 fun x => { x with rx := .asleep, received := { x.received with wakeKey := 10 * 2 ^ 32 + 1000000 } }
     (s.dev.port 0).rx = .asleep ∧ (s.dev.port 0).received.wakeKey ≠ noWakeKey ∧
       -((guardTicks s.dev.map.active 0 + 12800 : Nat) : Int) ≤ s.dev.sinceWake 0) ∧
    (let s := lifted 1 fun x => { x with rxSleep := { x.rxSleep with windowOpen := true }, received := { x.received with wakeKey := 10 * 2 ^ 32 } }
     (s.dev.port 0).rxSleep.windowOpen = true ∧ ((guardTicks s.dev.map.active 0 + 2560 : Nat) : Int) < s.dev.sinceWake 0) ∧
    (let x := (lifted 1 fun x => { x with step := .up, txSleep := { x.txSleep with waking := true, bursts := 16, wakeAt := some (25601000000 - 409600) } }).dev.port 0
     x.txSleep.waking = true ∧ x.txSleep.seen = none ∧ x.txSleep.bursts = 16 ∧ x.step ≠ .out) ∧
    (let s := lifted 1 fun x => { x with step := .test, test := some ⟨0, 0, true, true, 1000000⟩ }
     (s.dev.port 0).step = .test ∧ (1000000 : Nat) ≤ s.dev.sys.ticks) := by decide +kernel

/-- A module with a drive on port 6, and the log in a state. -/
def storing (phase : DrivePhase) (f : StoreState → StoreState) : State :=
  at_ .ready (mapped [sect 0x0001 0 64 [(41, 1, 4)]] fun d => (d.modStore f).modDrive 0 fun v => { v with
    phase := phase, bytes := 2 ^ 40, since := 0, polled := none })

/-- A log of extents 2 to 4, open. -/
def openLog (x : StoreState) : StoreState := { x with opened := true, mode := 0, extentCount := 16, head := 20, next := 20, logId := 1 }

/-- Without a store; with one that is busy, not up, too small, fit; not online and online; empty and with extents; a replay. -/
theorem test_witness_StoreCommands :
    hasStore (at_ .ready asIs).dev.map.active = false ∧ (storing .up openLog).dev.carries hdr [.ready, .running, .quiesce] = true ∧
    hasStore (storing .up openLog).dev.map.active = true ∧
    (storing .up fun x => { x with format := some ⟨hdr, 0x0A02, none, .zero⟩ }).dev.store.format ≠ none ∧
    (layoutDrives (storeLayout (storing .up id).dev.map.active) = [0] ∧ (storing .up id).dev.driveUp 0 = true ∧
      (storing .waiting id).dev.driveUp 0 = false) ∧
    (sizesHold 0 16 (fun v => ((storing .up id).dev.drive v).bytes) = true ∧
      sizesHold 0 (2 ^ 32 - 1) (fun v => ((storing .up id).dev.drive v).bytes) = false) ∧
    ((storing .up openLog).dev.storeOnline = true ∧ (storing .up openLog).dev.store.cp = .idle ∧
      (storing .up id).dev.storeOnline = false ∧ (storing .up fun x => { openLog x with cp := .write [0] }).dev.store.cp ≠ .idle) ∧
    (TimeWord.legal ⟨0, 2559999999, 127⟩ = true ∧ TimeWord.legal ⟨0, 2560000000, 0⟩ = false ∧ TimeWord.legal ⟨0, 0, 128⟩ = false) ∧
    ((storing .up openLog).dev.store.tail < (storing .up openLog).dev.store.head ∧ (storing .up openLog).dev.readDrive 3 = some 0) ∧
    ((storing .up openLog).dev.store.replay.active = false ∧ (storing .up openLog).dev.store.tail ≤ 7 ∧ 7 < (storing .up openLog).dev.store.head) ∧
    (storing .up fun x => { openLog x with replay := { LogReader.idle with active := true } }).dev.store.replay.active = true := by
  decide +kernel

/-- A Write of extent 4 that is outstanding since `at_`, its abort sent or not. -/
def write4 (at_ : Nat) (aborted : Bool) (tries : Nat) : NvmeCmd := ⟨9, .writeExtent 4, .write false, 1, 0, 65536, [], at_, aborted, tries⟩

/-- A drive in each phase with its time over; a command that is outstanding, late, aborted. -/
theorem test_witness_DriveRows :
    [DrivePhase.waiting, .reset, .training, .enabling, .up].all (fun ph =>
      let s := (storing ph id).onDev fun d => { d with sys := { d.sys with ticks := 2816000000 } }
      decide ((s.dev.drive 0).phase = ph ∧ (s.dev.drive 0).since + 2816000000 ≤ s.dev.sys.ticks ∧ (s.dev.drive 0).polled = none)) = true ∧
    (let s := (storing .up openLog).onDev fun d => { (d.modDrive 0 fun v => { v with cmds := [write4 0 true 2, ⟨10, .admin (.abort 9), .admin, 1, 0, 0, [], 2560000000, false, 0⟩] }) with
       sys := { d.sys with ticks := 2816000000 } }
     (∃ c ∈ (s.dev.drive 0).cmds, c.op.isAbort = true ∧ c.at_ + 256000000 ≤ s.dev.sys.ticks) ∧
       (s.dev.drive 0).cmds.find? (·.id == 9) = some (write4 0 true 2) ∧
       4 < s.dev.store.next ∧ (StoreOp.writeExtent 4).isWrite = true ∧
       s.dev.store.cpAt + storeField s.dev.map.active 12 2 1 * 2560000000 ≤ s.dev.sys.ticks ∧ s.dev.storeOnline = true) ∧
    (storing .up fun x => { x with openStep := .heads }).dev.store.openStep = .heads := by decide +kernel

/-- A map that permits INTEG.INJECT. -/
def injecting : List Sect := [sect 0x0060 0 64 [(24, 1, 5)]]

/-- Groomer operands at their limits; what may be injected and not; a line due; a line to remap with a spare and without; a
range of slices, a run in the way; a slice due, skipped and not. -/
theorem test_witness_IntegrityRows :
    (at_ .ready asIs).dev.carries hdr upStates = true ∧ (at_ .standby asIs).dev.carries hdr [.standby] = true ∧
    (mapBits (at_ .ready (mapped injecting asIs)).dev.map.active 0x0060 0 24 1 2 2 0 = 1 ∧
      mapBits (at_ .ready asIs).dev.map.active 0x0060 0 24 1 2 2 0 ≠ 1) ∧
    (injectLegal 0 0 1 0 12 0 0 = true ∧ injectLegal 0 0 1 5 5 0 0 = false ∧ injectLegal 1 3 0 0 0 0 63 = true ∧
      injectLegal 1 3 0 0 0 0 64 = false ∧ injectLegal 2 7 0 0 0 0 0 = true ∧ injectLegal 3 0 0 0 0 0 0 = false) ∧
    ((at_ .ready asIs).dev.grooms = true ∧ (at_ .ready asIs).dev.lineDue 1 = true ∧ ((at_ .ready asIs).dev.walk 0).paused = false) ∧
    wordClass (memRead (at_ .ready asIs).dev.integ.mem (memKey 0 0)) = .good ∧
    (freeSpare (at_ .ready asIs).dev.integ.remap.toList = some 0 ∧
      freeSpare (at_ .ready fun d => d.modInteg fun g => { g with remap := fill 16 ⟨1, 0, 7⟩ }).dev.integ.remap.toList = none) ∧
    ((at_ .ready asIs).dev.bist.run = none ∧ sliceCount 3 - 1 < sliceCount 3 ∧ ¬ 4 ≤ 3) ∧
    (at_ .ready fun d => d.modBist fun b => { b with run := some ⟨⟨hdr, 0x0D10, none, .zero⟩, 2, 0, 1, 0, 0, 0⟩ }).dev.bist.run ≠ none ∧
    ((at_ .standby asIs).dev.bist.repairs = [] ∧ (at_ .standby asIs).dev.bist.fusesUsed = 0) ∧
    ((at_ .ready asIs).dev.selfTests = true ∧ (at_ .ready asIs).dev.sliceDue 0 = true ∧ (at_ .ready asIs).dev.nextSlice 0 ≠ none ∧
      (at_ .ready asIs).dev.skipCause true = none ∧ (at_ .ready asIs).dev.skipCause false = some 0) := by decide +kernel

/-- A map that permits calibration, every tile included, with a period of 1 s. -/
def calMap : List Sect := [sect 0x0069 0 592 ((16, 1, 1) :: (19, 1, 1) :: (20, 4, 12500) :: (24, 4, 1) :: (List.range 64).map fun n => (65 + 8 * n, 1, 1))]

/-- A tile with a run under way since tick 0, in repeat a or b. -/
def calRunning (second : Bool) (ticks : Nat) : State :=
  at_ .ready (mapped calMap fun d => { (d.modCalTile 5 fun x => { x with run := some ⟨.zero, 0, 0, second, [], []⟩ }) with
    sys := { d.sys with ticks := ticks } })

/-- A range of tiles that may be calibrated and one that may not; a period that has passed; a run due; each repeat before and at its end. -/
theorem test_witness_CalibrationRows :
    (calEnabled (at_ .ready (mapped calMap asIs)).dev.map.active = true ∧
      calTileIncluded (at_ .ready (mapped calMap asIs)).dev.map.active 63 = true ∧ calEnabled (at_ .ready asIs).dev.map.active = false) ∧
    (let s := at_ .ready (mapped calMap fun d => { (d.modCalTile 5 fun x => { x with last := some (.zero, 0, 0) }) with
       sys := { d.sys with ticks := 2560000000 } })
     calField s.dev.map.active 24 4 0 = 1 ∧ 0 + 1 * 2560000000 ≤ s.dev.sys.ticks ∧ (s.dev.calTile 5).run = none) ∧
    (at_ .ready asIs).dev.calNext = none ∧
    (at_ .ready (mapped calMap fun d => d.modCalTile 5 fun x => { x with due := true })).dev.calNext = some 5 ∧
    (let len := repeatTicks (calRunning false 0).dev.map.active
     ((calRunning false len).dev.calTile 5).run ≠ none ∧ 0 + len ≤ (calRunning false len).dev.sys.ticks ∧
       0 + 2 * len ≤ (calRunning true (2 * len)).dev.sys.ticks ∧ (calRunning true (2 * len - 1)).dev.sys.ticks < 0 + 2 * len) := by
  decide +kernel

/-! ### Further hypotheses of the statements -/

/-- A triad stopped by its patrol, which answers SYS.STATE and not SYS.PING's neighbour SYS.TIMED_CANCEL; a timed command that is due. -/
theorem test_witness_RefusalsBeforeExecution_stopped :
    (at_ .running (withTriad (fun x => { x with stopped := true }) fun _ x => x)).dev.triad.stopped = true ∧
    patrolAnswers.contains 0x0001 = true ∧ patrolAnswers.contains 0x0009 = false ∧
    ((at_ .running fun d => { d with cmd := { d.cmd with timed := [waiting ⟨9, 0, 0⟩ true false] } }).dev.dueTimed ≠ none) ∧
    (at_ .running asIs).dev.dueTimed = none := by decide +kernel

/-- A command's own interim reply in the queue, and another's. -/
theorem test_witness_FinalReply_interim :
    (⟨.interim 1 2 ⟨9, 0, 0⟩, fullRec⟩ : SvcItem).kind = .interim 1 2 ⟨9, 0, 0⟩ ∧
    (⟨.interim 1 2 ⟨8, 0, 0⟩, fullRec⟩ : SvcItem).kind ≠ .interim 1 2 ⟨9, 0, 0⟩ := by decide +kernel

/-- Events pass at once, are held with none or one before them, or go up while no writer waits for a chain buffer. -/
theorem test_witness_RaisedEvent_held :
    (at_ .running asIs).dev.evt.hold = none ∧
    (at_ .running fun d => { d with evt := { d.evt with hold := some [] } }).dev.evt.hold = some [] ∧
    (let d := (at_ .running fun d => { d with evt := { d.evt with hold := some [⟨1800, 0, 3, .zero, []⟩] } }).dev
     d.evt.hold = some (⟨1800, 0, 3, .zero, []⟩ :: []) ∧ d.uplinkRuns = false) ∧
    (let d := (at_ .running (mapped upMap asIs)).dev
     (List.range 7).all (fun c => !d.waitsForBuffer c) = true ∧ d.cmp.job = none ∧ d.mrg.events = [] ∧ d.mrg.waiting = []) := by
  decide +kernel

/-- VCORE that is near its value and not. -/
theorem test_witness_SysGoTransitions_vcore :
    (at_ .standby asIs).dev.pwr.vcoreNear 1000000 = true ∧
    (at_ .standby fun d => d.modPwr fun x => { x with rampFrom := 600, rampTo := 900, rampAt := 1000000 }).dev.pwr.vcoreNear 1000000 =
      false := by decide +kernel

/-- Two voting members of which one has presented another request than the one to come; a climber beside one voting and one fenced
member, in its eighth pass. -/
theorem test_witness_TriadRows_two :
    (let s := at_ .running (withTriad (fun x => x) fun m x =>
       if m = 2 then { x with mode := .fenced } else if m = 1 then { x with presented := some { req with kind := 1 } } else x)
     (s.dev.member 0).mode = .voting ∧ (s.dev.member 1).mode = .voting ∧ (s.dev.member 2).mode ≠ .voting ∧ (s.dev.member 0).owed = [] ∧
       (s.dev.member 1).presented = some { req with kind := 1 } ∧ ({ req with kind := 1 } : VoteReq) ≠ req ∧ s.dev.triadRuns = true) ∧
    (let s := (climbing 8 65).onDev (·.modVoter 2 fun x => { x with mode := .fenced })
     s.dev.voting.length = 1 ∧ (s.dev.member 0).mode = .voting ∧ (s.dev.member 2).mode = .fenced ∧ s.dev.passCopied = true ∧
       (s.dev.member 1).mode = .climbing ∧ s.dev.triad.queue = []) := by decide +kernel

/-- Two voting members that differ from the climber in a line, and one voting member, which cannot find a difference. -/
theorem test_witness_TriadRows_differ :
    (let x : Herringbone := ⟨1, 2, 64, some [], [], 0, 0, none⟩
     (climbing 2 64).dev.voting.length = 2 ∧ (climbing 2 64).dev.linesDiffer x true = true ∧
       (climbing 2 64).dev.linesDiffer x false = false) := by decide +kernel

/-- A standby copy that has gone on already and lags. -/
theorem test_witness_MergeRows_forwarded :
    (let c : Copy := ⟨0, 5, 1, [], [], false, 0, true, false, []⟩
     let s := at_ .running (mapped pairMap fun d => { (d.modMrg fun m => { m with copies := [c] }).modMember 0 (fun x => { x with state := .active })
       with sys := { d.sys with ticks := 2560000000 } })
     s.dev.mrg.copies = [c] ∧ s.dev.laggingCopy = some c ∧ c.forwarded = true) := by decide +kernel

/-- A parcel of type 0 with another length than 4, one with 4; a transmitter that aligns; one whose base stands for 4 rotations. -/
theorem test_witness_ChairRows_more :
    (let h : Held := ⟨0, 0, 0, 0, false, false, [1, 2, 3], 5, none⟩
     parcelOk h.bytes = true ∧ (parcelOf h.bytes 0).1.typ = 0 ∧ (parcelOf h.bytes 0).2 ≠ 4) ∧
    (let s := linked id fun x => { x with step := .align, tx := .align }
     s.dev.sends 0 = false ∧ (s.dev.port 0).tx = .align) ∧
    (let s := (linked (fun l => { l with tx := { l.tx with held := [parcel], stillSince := some 0 } }) id).onDev fun d =>
       { d with sys := { d.sys with ticks := stillTicks 0 } }
     (s.dev.port 0).step = .up ∧ (s.dev.port 0).rx = .locked ∧ (s.dev.linkPort 0).tx.held ≠ [] ∧
       (s.dev.linkPort 0).tx.stillSince = some 0 ∧ 0 + stillTicks (s.dev.port 0).stage ≤ s.dev.sys.ticks) ∧
    replaying.dev.integ.mem = [] ∧ ¬ replaying.dev.integ.portInjects.contains 0 := by decide +kernel

/-- The last block of a direction that falls asleep; a locked receiver that is up and one that is not; a lane that tests its blocks
while the others search, its block good, missed, and missed for the fourth time. -/
theorem test_witness_BlockRows_more :
    (let x := (lifted 1 fun x => { x with step := .up, tx := .asleep, txSleep := { x.txSleep with ackWait := true, acked := true } }).dev.port 0
     x.tx = .asleep ∧ x.txSleep.ackWait = true ∧ x.txSleep.acked = true ∧ x.upDue = false) ∧
    ((aligned 8 41 fun x => { x with step := .up, tx := .up, rx := .locked }).dev.port 0).receivesUp = true ∧
    ((aligned 8 41 fun x => { x with step := .align, tx := .align, rx := .locked }).dev.port 0).receivesUp = false ∧
    ((⟨8, 41, 0⟩ : AlignLane).test (found 0 42 true)).misses = 0 ∧ ((⟨8, 41, 3⟩ : AlignLane).test (found 0 43 true)).misses = 4 ∧
    blockGood (found 0 42 true) = true := by decide +kernel

/-- A port that a waiting command holds. -/
theorem test_witness_LaneCommands_held :
    ((lifted 1 fun x => { x with waiting := some ⟨hdr, 0x0903, none, .zero⟩ }).dev.port 0).isHeld = true ∧
    ((lifted 1 id).dev.port 0).isHeld = false := by decide +kernel

/-- Up-B waits for a re-entry of Up-A, and both wait. -/
theorem test_witness_ChairliftRows_order :
    (let s := at_ .ready (mapped pairMap fun d =>
       { d.modPort 1 fun x => { x with reentryDue := some (1, 0) } with sys := { d.sys with ticks := 256000000 } })
     portOfRole s.dev.map.active 2 = some 0 ∧ portOfRole s.dev.map.active 3 = some 1 ∧ (s.dev.port 0).reentryAt + 256000000 ≤ s.dev.sys.ticks ∧
       (s.dev.port 0).reentryDue = none ∧ (s.dev.port 1).reentryDue = some (1, 0)) ∧
    (at_ .ready (mapped pairMap asIs)).dev.sys.ticks < ((at_ .ready (mapped pairMap asIs)).dev.port 0).reentryAt + 256000000 := by
  decide +kernel

/-- A check that has had all its bits, clean and in sync, on a lane whose checker has counted some. -/
theorem test_witness_ChairliftRows_check :
    (let s := lifted 1 fun x => { x with step := .check, rx := .training }
     let s := s.onDev fun d => d.modLanes 0 fun _ l => { l with checker := { l.checker with bits := 5 }, checked := 2 ^ 28 }
     (s.dev.port 0).step = .check ∧ (s.dev.port 0).rx = .training ∧
       ((s.dev.lane 0).check 0 0 []).checker.bits = 5 ∧ ((s.dev.lane 0).check 0 0 []).checker.errors = 0) := by decide +kernel

/-- A sleep not acknowledged in time; a wake whose lock does not come after wake_seen, and one after the sixteenth burst. -/
theorem test_witness_SleepRows_more :
    (let x := (lifted 1 fun x => { x with txSleep := { x.txSleep with ackWait := true, since := 744000 } }).dev.port 0
     x.txSleep.ackWait = true ∧ x.txSleep.acked = false ∧ x.txSleep.since + 256000 ≤ 1000000) ∧
    (let x := (lifted 1 fun x => { x with txSleep := { x.txSleep with waking := true, seen := some 0 } }).dev.port 0
     x.txSleep.waking = true ∧ x.upDue = false ∧ x.txSleep.seen = some 0 ∧ 0 + alignTicks x.stage ≤ 2 ^ 40) ∧
    (let x := (lifted 1 fun x => { x with step := .test, test := some ⟨0, 0, false, true, 1000001⟩ }).dev.port 0
     x.step = .test ∧ x.knLocked = true ∧ x.test = some ⟨0, 0, false, true, 1000001⟩ ∧ 1000000 < 1000001) := by decide +kernel

/-- A checkpoint or a search that waits; a free staging slot and none; a replay. -/
theorem test_witness_StoreCommands_waits :
    (storing .up fun x => { openLog x with cpWaiting := [⟨hdr, 0x0A03, none, .zero⟩] }).dev.store.cpWaiting ≠ [] ∧
    (storing .up fun x => { openLog x with finds := [⟨⟨hdr, 0x0A04, none, .zero⟩, .zero, 2, 9⟩] }).dev.store.finds ≠ [] ∧
    (storing .up openLog).dev.store.freeSlot = some 0 ∧
    ((List.range 4).map Extent.empty).length = 4 ∧
    (storing .up fun x => { openLog x with sealed_ := (List.range 4).map Extent.empty }).dev.store.freeSlot = none ∧
    (let x := { Extent.empty 0 with data := [1] }
     (storing .up fun s => { openLog s with cur := some x }).dev.store.cur = some x ∧ x.data ≠ []) := by decide +kernel

/-- The last admin command of a bring-up, on a namespace that fits; a drive in a phase of its bring-up; a slot that a drive reads clean
and one in which it meets damage. -/
theorem test_witness_DriveRows_more :
    (let s := (storing .admin id).onDev fun d => d.modDrive 0 fun x => { x with
       todo := [.setQueues 4], identity := ⟨2 ^ 40, 512, false, 64⟩, cmds := [⟨9, .admin (.setQueues 4), .admin, 1, 0, 0, [], 0, false, 0⟩] }
     (s.dev.drive 0).phase = .admin ∧ (s.dev.drive 0).todo = [.setQueues 4] ∧ (StoreOp.admin (.setQueues 4)).isAbort = false ∧
       identityFits s.dev.map.active (s.dev.drive 0).identity = true ∧ s.dev.store.cp = .idle ∧ s.dev.store.replay.active = false ∧
       layoutDrives (storeLayout s.dev.map.active) = [0]) ∧
    ((storing .settling id).dev.drive 0).phase ≠ .up ∧
    (let late := (storing .up openLog).onDev fun d => { (d.modDrive 0 fun v => { v with cmds := [write4 0 false 0] }) with
       sys := { d.sys with ticks := 2560000000 } }
     ((late.dev.drive 0).cmds.filter fun c => !c.op.isAbort && !c.aborted && c.at_ + 2560000000 ≤ late.dev.sys.ticks).length = 1) ∧
    ((storing .up openLog).dev.readForWrite 0 4 []).2 = false := by decide +kernel

/-- A spare to be given up and one that is not in use; a map that allows remapping and one that does not. -/
theorem test_witness_IntegrityRows_spares :
    (let d := (at_ .ready fun d => d.modInteg fun g => { g with remapDue := [(4, 3)], remap := g.remap.set! 3 ⟨1, 0, 7⟩ }).dev
     d.integ.remapDue = [(4, 3)] ∧ d.integ.remap[3]? = some ⟨1, 0, 7⟩ ∧ freeSpare d.integ.remap.toList = some 0 ∧
       remapEnabled d.map.active = true) ∧
    remapEnabled (at_ .ready (mapped [sect 0x0060 0 64 [(24, 1, 0)]] asIs)).dev.map.active = false ∧
    wordClass (0 ^^^ 2 ^ 12) ≠ .good := by decide +kernel

/-- The bytes of an extent are not none. -/
theorem extent_bytes_cons (x : Extent) (id : Nat) : ∃ b l, x.bytes id = b :: l := by
  cases h : x.bytes id with
  | nil => simp [Extent.bytes, withCrc, zeros] at h
  | cons b l => exact ⟨b, l, rfl⟩

/-- A slot whose first byte is damaged is found so by its reader, whatever was written there. -/
theorem readSlot_hurt {d : Dev} {slot reader : Nat} (bs : List Byte) (b : Byte)
    (h : wordClass (memRead d.integ.mem (memKey (d.remapped 2 (slotAddress slot)).1 (d.remapped 2 (slotAddress slot)).2)) =
      .uncorrectable) : (d.readSlot slot reader (b :: bs)).2.2 ≠ [] := by
  simp [Dev.readSlot, Dev.readArea, Dev.readData, Dev.readByte, h, List.zipIdx_cons]

/-- A module with extent 4 sealed in slot 0, of which one byte of data is 1. -/
def sealed4 : State := storing .up fun s => { openLog s with sealed_ := [{ Extent.empty 0 with seq := 4, data := [1] }] }

theorem sealed4_found : ∃ x, sealed4.dev.store.sealed_.find? (·.seq == 4) = some x ∧ x.slot = 0 := ⟨_, rfl, rfl⟩

theorem sealed4_damaged :
    let d := sealed4.dev.applyUpsets [⟨2, slotAddress 0, 3⟩]
    wordClass (memRead d.integ.mem (memKey (d.remapped 2 (slotAddress 0)).1 (d.remapped 2 (slotAddress 0)).2)) = .uncorrectable := by
  decide +kernel

theorem readForWrite_damage {d : Dev} {v seq : Nat} {us : List Upset} {x : Extent} {b : Byte} {l : List Byte}
    (hx : d.store.sealed_.find? (·.seq == seq) = some x) (hb : x.bytes d.store.logId = b :: l)
    (h : ((d.applyUpsets us).readSlot x.slot 5 (b :: l)).2.2 ≠ []) : (d.readForWrite v seq us).2 = true := by
  simp only [Dev.readForWrite, hx, hb]
  split
  · next e => exact absurd (List.isEmpty_iff.mp e) h
  · rfl

/-- A drive meets damage in the slot of an extent that it is to write. -/
theorem test_witness_DriveRows_damage : (sealed4.dev.readForWrite 0 4 [⟨2, slotAddress 0, 3⟩]).2 = true := by
  obtain ⟨x, hx, hs⟩ := sealed4_found
  obtain ⟨b, l, hb⟩ := extent_bytes_cons x sealed4.dev.store.logId
  exact readForWrite_damage hx hb (by rw [hs]; exact readSlot_hurt l b sealed4_damaged)

/-! ### Worked examples of the spec -/

/-- Bytes written as numbers. -/
def byteList (l : List Nat) : List Byte := l.map (BitVec.ofNat 8)

/-- The codes of R171's example: the slot pair 2,061 and 4,131, raw codes 180 and 167. -/
theorem test_edge_interval :
    edgeInterval ⟨2061, 4131, false, false⟩ 180 0 = 179 ∧ edgeInterval ⟨2061, 4131, false, false⟩ 167 0 = 166 := by decide +kernel

/-- The pair of R172's example. -/
theorem test_pair_bytes : CalPair.bytes ⟨2061, 4131, false, false⟩ = byteList [0x0D, 0x08, 0x23, 0x10] := by decide +kernel

/-- The order of the example of R231: fire tick 1,234,567,890 of second 1,000,000, look-back 24, 64 samples. -/
def orderS : FreezeOrder := { order 7305 with
  fire := 1234567890, time := ⟨1000000, 1234567890, 0⟩, key := 0x4240499602C0, lookBack := 24, samples := 64 }

/-- The hit of PX0417 at fine bin 77 of the fire tick, over the threshold for 269 fine bins (R171, R174). -/
def hitS : Hit := ⟨417, 128 * ((TimeWord.globalTick ⟨1000000, 1234567890, 0⟩ : Nat) : Int) + 77, 269 / 16, false, false, false, 0, ⟨true, false⟩⟩

/-- The hit word of R175's example. -/
theorem test_hit_word : hitWord orderS 0 hitS = 0x00000100003135A1 := by decide +kernel

/-- PX0417's block of the example of R231, with its charge word and its first samples. -/
def blockS : Block := { block 417 0 with gain := 3, hits := [hitS], annotations := [⟨6, 16, 16, 1106⟩] }

theorem test_block_bytes : blockBytes orderS 0 blockS false [] = byteList
    [0xA1, 0x05, 0x81, 0x01, 0x0D, 0x08, 0x23, 0x10, 0xA1, 0x35, 0x31, 0, 0, 1, 0, 0, 0x52, 4, 0, 0x10, 0, 0x10, 0, 6] := by
  decide +kernel

/-- The fire time, `seq`, course, block count, k0, samples and look-back of the example of R231. -/
theorem test_segment_header :
    sliceBytes (segmentRec (segmentHead none { segment 7305 true [blockS] with order := orderS }).head [(417, [])] false).bytes 10 34 = byteList
      [0xC0, 0x02, 0x96, 0x49, 0x40, 0x42, 0, 0xD2, 0x02, 0x96, 0x49, 0x40, 0x42, 0x0F, 0, 0, 0, 0, 0x89, 0x1C, 0, 0,
        0, 0, 1, 0, 0xBA, 0x02, 0x96, 0x49, 0x40, 0, 0x18, 0] := by decide +kernel

/-- The linearisation of R90's example on pixel 0: c[1][0] = 2^-7, c[2][0] = 2^-20, c[1][1] = -2^-14. -/
def chargeMap : PisteMap := testMap [sect 0x0010 0 24 [(16 + 5, 1, 16), (16 + 6, 1, 16), (16 + 7, 1, 8)],
  sect 0x0014 3 68 [(16 + 8, 4, 0x3C000000), (16 + 12, 4, 0x35800000), (16 + 24, 4, 0xB8800000)]]

/-- R90: the first 8 codes sum to 1,602, codes 16 to 31 to 5,050, and the tile is at 28.5 degrees. -/
theorem test_charge :
    chargeWord (some chargeMap) 0
      ([200, 201, 200, 200, 200, 200, 200, 201] ++ List.replicate 8 200 ++ (List.replicate 15 315 ++ [325]))
      (List.replicate 32 SampleFlags.none) (List.replicate 32 3) 0x41E40000 = 1106 := by decide +kernel

/-- The averaged word of R225's example. -/
theorem test_average : averageWord 3 ([200, 201, 203, 200, 199, 202, 204, 201].map fun x => (x, false)) = 1610 := by decide +kernel

/-- The compression parameters and words of the block coded bit by bit in chapter 9. -/
def paramsS : CmpParams := ⟨417, 40, -8, 32, true, Vector.replicate 8 1⟩
def wordsS : List Nat := [198, 199, 200, 198, 197, 199, 202, 200, 199, 198, 199, 199, 198, 199, 200, 199]
def wordsN : List Nat := [200, 201, 203, 200, 199, 202, 204, 201, 200, 200, 201, 200, 199, 200, 201, 200]
def areaS : List Byte := byteList [0x2D, 0, 0, 1, 0x0A, 0x3E, 0x48, 0x68, 0xC6, 0x80, 0x95, 0x88, 0x60, 0x10, 0, 0]

/-- The encoder gives the bytes of the spec's block of PX0418, and the decoder reads them back, all but the padding (R253, R254). -/
theorem test_coded_block :
    codedArea paramsS 1 (codeStream paramsS 1 12 wordsS wordsN).1 = areaS ∧
    decodeStream paramsS 1 12 16 wordsN (codeStream paramsS 1 12 wordsS wordsN).1 = some (wordsS, []) := by decide +kernel

/-- The code word and the poison form of 0xA5, and its correction after d5 flips (R392, R393). -/
theorem test_code_word :
    codeWord 0xA5 = 0x03A5 ∧ poisonWord 0xA5 = 0x1CA5 ∧ corrected (0x03A5 ^^^ 2 ^ 5) = 0x03A5 ∧ wordClass 0x1CA5 = .poison := by
  decide +kernel

/-- The CRC-32C of "123456789" (R390). -/
theorem test_crc : crc32c (byteList [0x31, 0x32, 0x33, 0x34, 0x35, 0x36, 0x37, 0x38, 0x39]) = 0xE3069283 := by decide +kernel

/-- The parcel header of R341's example. -/
theorem test_parcel_header :
    (⟨1, 0x7B3, 0x2A5, 1, true, false, List.replicate 54 0, 5, none⟩ : Held).body.take 6 = byteList [0x21, 0xB3, 0x57, 0x2A, 0xD9, 0] := by
  decide +kernel

/-- The scrambler seed of R344's example. -/
theorem test_scramble_seed : scrambleSeed 0x1234 2 = 0x4048D2 := by decide +kernel

/-- SHA-256 of "abc" (FIPS 180-4). -/
theorem test_sha256 : ofLe (sha256 (byteList [0x61, 0x62, 0x63])).reverse =
    0xBA7816BF8F01CFEA414140DE5DAE2223B00361A396177A9CB410FF61F20015AD := by decide +kernel

/-- The test 1 vector of RFC 8032: an empty message. -/
theorem test_ed25519 : edVerify
    (leBytes 32 0xD75A980182B10AB7D54BFED3C964073A0EE172F3DAA62325AF021A68F707511A).reverse []
    ((leBytes 32 0xE5564300C360AC729086E2CC806E828A84877F1EB8E5D974D873E06522490155).reverse ++
      (leBytes 32 0x5FB8821590A33BACC61E39701CF9B46BD25BF5F0595BBE24655141438E7A100B).reverse) = true := by decide +kernel

end Sys2Proof.Tests
end

section
/-! Proofs about the event key of R11: its two fields, its bounds, and when two time words share one. -/

namespace Sys2Proof.Machine

/-! ### The window of a tick -/

/-- A legal tick (R9) fits bits [31:0] of a key, and so does the start of its window. -/
theorem windowStart_lt {w k : Nat} (hk : k ≤ 2559999999) : k / w * w < 2 ^ 32 :=
  calc k / w * w ≤ k := Nat.div_mul_le_self k w
    _ < 2 ^ 32 := by omega

/-! ### The fields of the key -/

theorem eventKey_div {w : Nat} {t : TimeWord} (ht : t.tick ≤ 2559999999) :
    eventKey w t / 2 ^ 32 = t.seconds % 65536 := by
  rw [eventKey, Nat.mul_comm, Nat.mul_add_div (by decide), Nat.div_eq_of_lt (windowStart_lt ht), Nat.add_zero]

theorem eventKey_mod {w : Nat} {t : TimeWord} (ht : t.tick ≤ 2559999999) :
    eventKey w t % 2 ^ 32 = t.tick / w * w := by
  rw [eventKey, Nat.mul_add_mod_self_right, Nat.mod_eq_of_lt (windowStart_lt ht)]

/-- A key is 48 bits: its high field is 16 bits above 32. -/
theorem eventKey_lt {w : Nat} {t : TimeWord} (ht : t.tick ≤ 2559999999) : eventKey w t < 2 ^ 48 := by
  have hhigh : eventKey w t / 2 ^ 32 < 2 ^ 16 := by
    rw [eventKey_div ht]
    exact Nat.mod_lt _ (by decide)
  omega

/-- Within one second the window alone tells two keys apart. -/
theorem eventKey_eq_iff {w : Nat} {t u : TimeWord} (hw : 1 ≤ w) (hs : t.seconds = u.seconds) :
    eventKey w t = eventKey w u ↔ t.tick / w = u.tick / w := by
  rw [eventKey, eventKey, hs, Nat.add_left_cancel_iff, Nat.mul_left_inj (Nat.ne_of_gt hw)]

/-! ### The obligation -/

/-- Settles O16: the two fields of the key by division with remainder, the bounds of the window by `Nat.div_mul_le_self` and
`Nat.lt_div_mul_add`, and the closed facts (no map, the worked example of R11) by evaluation. -/
theorem eventKeyRule : Obligations.EventKeyRule := by
  refine ⟨fun w t hw _ ht => ?_, fun w t u hw _ _ _ hs => eventKey_eq_iff hw hs, rfl, by decide⟩
  have hlow : eventKey w t % 2 ^ 32 = t.tick / w * w := eventKey_mod ht
  refine ⟨eventKey_div ht, hlow, eventKey_lt ht, ?_, ?_⟩
  · rw [hlow]
    exact Nat.div_mul_le_self t.tick w
  · rw [hlow]
    exact Nat.lt_div_mul_add hw

end Sys2Proof.Machine
end

section
/-! Proofs about the commands on the map slots: MAP.ERASE_SLOT, MAP.WRITE, MAP.VERIFY, MAP.LOAD and MAP.SET_BOOT (R49 to R53,
R57). What a slot answers is read off the state before the command is in flight, so first: what being in flight leaves as it
was. -/

namespace Sys2Proof.Machine

/-! ### What a command in flight leaves -/

section Taken
variable (s : State) (h : CmdHeader) (op : Nat)

@[simp] theorem State.taken_flash : (s.taken h op).flash = s.flash := rfl
@[simp] theorem State.taken_map : (s.taken h op).dev.map = s.dev.map := rfl
@[simp] theorem State.taken_sys : (s.taken h op).dev.sys = s.dev.sys := rfl
@[simp] theorem State.taken_time : (s.taken h op).dev.time = s.dev.time := rfl
@[simp] theorem State.taken_now : (s.taken h op).dev.now = s.dev.now := rfl
@[simp] theorem State.taken_deferred : (s.taken h op).dev.cmd.deferred = s.dev.cmd.deferred := rfl
@[simp] theorem State.taken_samePhase : (s.taken h op).dev.samePhase = s.dev.samePhase := rfl
@[simp] theorem State.taken_mapLocked (slot : Nat) : (s.taken h op).mapLocked slot = s.mapLocked slot := rfl
@[simp] theorem State.taken_mapHeld (slot : Nat) : (s.taken h op).dev.mapHeld slot = s.dev.mapHeld slot := rfl
@[simp] theorem State.taken_checkSlot (slot : Nat) : (s.taken h op).checkSlot slot = s.checkSlot slot := rfl
@[simp] theorem State.taken_ringAhead : (s.taken h op).ringAhead = s.ringAhead := rfl

end Taken

/-! ### The 16 bytes of a verified map (R456) -/

@[simp] theorem length_leBytes (n v : Nat) : (leBytes n v).length = n := by
  induction n generalizing v with
  | zero => rfl
  | succ n ih => rw [leBytes, List.length_cons, ih]

@[simp] theorem length_zeros (n : Nat) : (zeros n).length = n := List.length_replicate

theorem verifiedData_fields (f : List Host.Cell) (m : PisteMap) :
    (verifiedData f m).length = 16 ∧ sliceBytes (verifiedData f m) 0 8 = leBytes 8 m.mapId ∧
      sliceBytes (verifiedData f m) 8 1 = leBytes 1 m.level ∧ sliceBytes (verifiedData f m) 10 2 = leBytes 2 m.margin := by
  refine ⟨by simp [verifiedData], ?_, ?_, ?_⟩ <;> simp [verifiedData, sliceBytes, List.drop_append, List.drop_eq_nil_of_le]

/-! ### A command that checks a slot first (R49, R50) -/

section Checked
variable {slot : Nat} {ok : Ctx → PisteMap → State → State × CmdResult} {c : Ctx} {s : State}

theorem checkedEff_outOfRange (hs : 3 < slot) : checkedEff slot ok c s = (s, .done .outOfRange []) := if_pos hs

theorem checkedEff_error (hs : slot ≤ 3) (hh : s.dev.mapHeld slot = false) {e : MapFail} (he : s.checkSlot slot = .error e) :
    checkedEff slot ok c s = (s, .done e.status e.bytes) := by
  simp [checkedEff, Nat.not_lt.2 hs, hh, he]

theorem checkedEff_ok (hs : slot ≤ 3) (hh : s.dev.mapHeld slot = false) {m : PisteMap} (hm : s.checkSlot slot = .ok m) :
    checkedEff slot ok c s = ok c m s := by
  simp [checkedEff, Nat.not_lt.2 hs, hh, hm]

end Checked

/-! ### MAP.LOAD (R51) -/

section Load
variable {slot : Nat} {c : Ctx} {s : State}

/-- While a swap is queued, or the banks still hold the old map, nothing is loaded (R56, R58). -/
theorem mapLoadEff_wrongState (hb : s.dev.map.swap ≠ none ∨ s.dev.map.old ≠ none) :
    mapLoadEff slot c s = (s, .done .wrongState []) := by
  rw [mapLoadEff, if_pos]
  simpa [Option.isSome_iff_ne_none] using hb

/-- The slots' numbers end at 3; the shadow map stays (log entry 11). -/
theorem mapLoadEff_outOfRange (hw : s.dev.map.swap = none) (ho : s.dev.map.old = none) (hs : 3 < slot) :
    mapLoadEff slot c s = (s, .done .outOfRange []) := by
  simp [mapLoadEff, hw, ho, checkedEff_outOfRange hs, hs]

/-- A map that fails a check leaves no shadow map. -/
theorem mapLoadEff_error (hw : s.dev.map.swap = none) (ho : s.dev.map.old = none) (hs : slot ≤ 3)
    (hh : s.dev.mapHeld slot = false) {e : MapFail} (he : s.checkSlot slot = .error e) (hok : e.status ≠ .ok)
    (hws : e.status ≠ .wrongState) :
    mapLoadEff slot c s = (s.onDev (·.modMap fun x => { x with shadow := none }), .done e.status e.bytes) := by
  simp only [mapLoadEff, hw, ho, checkedEff_error hs hh he, Option.isSome_none, Bool.or_self, Bool.false_eq_true, if_false,
    if_neg (Nat.not_lt.2 hs)]
  split
  · next hr => exact absurd (CmdResult.done.inj hr).1 hok
  · next hr => exact absurd (CmdResult.done.inj hr).1 hws
  · rfl

/-- A map that passes every check becomes the shadow map. -/
theorem mapLoadEff_ok (hw : s.dev.map.swap = none) (ho : s.dev.map.old = none) (hs : slot ≤ 3)
    (hh : s.dev.mapHeld slot = false) {m : PisteMap} (hm : s.checkSlot slot = .ok m) :
    mapLoadEff slot c s = (s.onDev fun d => (d.writeBanks bankHalf bankHalf).modMap fun x => { x with shadow := some m },
      .done .ok (verifiedData s.flash m)) := by
  simp [mapLoadEff, hw, ho, checkedEff_ok hs hh hm]

end Load

/-! ### Erasing and writing a slot (R57, R545) -/

theorem mapBase_eq (slot : Nat) : mapBase slot = 0x1420000 + slot * 0x800000 := rfl

/-- The 128 sectors of a slot. -/
theorem sectorsOf_slot (base : Nat) : sectorsOf base mapSize = (List.range 128).map (base / 65536 + ·) := rfl

section Program
variable {slot offset : Nat} {data : List Byte} {c : Ctx} {s : State}

/-- The guard of MAP.WRITE is the negation of its legal operands (R456). -/
theorem mapWriteEff_outOfRange (hl : ¬ (slot ≤ 3 ∧ 1 ≤ data.length ∧ data.length ≤ 1016 ∧ offset + data.length ≤ mapSize)) :
    mapWriteEff slot offset data c s = (s, .done .outOfRange []) := by
  rw [mapWriteEff, if_pos]
  simp only [Bool.or_eq_true, decide_eq_true_eq]
  omega

/-- Past its guard MAP.WRITE looks at the lock, at the operations that wait and at the bytes, in this order (R545). -/
theorem mapWriteEff_legal (hs : slot ≤ 3) (hl : 1 ≤ data.length ∧ data.length ≤ 1016 ∧ offset + data.length ≤ mapSize) :
    mapWriteEff slot offset data c s =
      if s.mapLocked slot then (s, .done .locked [])
      else if s.dev.mapHeld slot then (s, .done .wrongState [])
      else if !isBlank s.flash (mapBase slot + offset) data.length then (s, .done .notErased [])
      else (s.hostJob ⟨c, programSteps (mapBase slot + offset) data, .answer⟩, .wait) := by
  rw [mapWriteEff, if_neg]
  simp only [Bool.or_eq_true, decide_eq_true_eq]
  omega

end Program

/-- What MAP.ERASE_SLOT answers. -/
theorem mapEraseSlotEff_legal {slot : Nat} (hs : slot ≤ 3) (c : Ctx) (s : State) :
    mapEraseSlotEff slot c s =
      if s.mapLocked slot then (s, .done .locked [])
      else if s.dev.mapHeld slot then (s, .done .wrongState [])
      else (s.hostJob ⟨c, (sectorsOf (mapBase slot) mapSize).map .erase, .answer⟩, .wait) :=
  if_neg (Nat.not_lt.2 hs)

/-! ### The obligation -/

section Slot
variable (h : CmdHeader) {slot : Nat}

/-- MAP.ERASE_SLOT of a slot that exists: locked, held, or erased sector by sector. -/
theorem mapEraseSlot_answers (hs : slot ≤ 3) :
    Answers (.mapEraseSlot h slot) h 0x0101 flashStates (fun s => s.mapLocked slot = true) .locked (fun _ => []) unchanged ∧
    Answers (.mapEraseSlot h slot) h 0x0101 flashStates
      (fun s => s.mapLocked slot = false ∧ s.dev.mapHeld slot = true) .wrongState (fun _ => []) unchanged ∧
    AnswersLater (.mapEraseSlot h slot) h 0x0101 flashStates (fun s => s.mapLocked slot = false ∧ s.dev.mapHeld slot = false)
      (fun s => s.hostJob ⟨⟨h, 0x0101, none, s.dev.now⟩,
        (List.range 128).map fun k => .erase ((0x1420000 + slot * 0x800000) / 65536 + k), .answer⟩) := by
  refine ⟨.of (k := mapEraseSlotKind) rfl rfl fun s hp => ?_, .of (k := mapEraseSlotKind) rfl rfl fun s hp => ?_,
    .of (k := mapEraseSlotKind) rfl rfl fun s hp => ?_⟩
  · simp [mapEraseSlotEff_legal hs, hp, unchanged]
  · simp [mapEraseSlotEff_legal hs, hp, unchanged]
  · simp [mapEraseSlotEff_legal hs, hp, sectorsOf_slot, mapBase_eq, mapEraseSlotKind, Function.comp_def]

/-- MAP.WRITE with legal operands: locked, not blank, or programmed. -/
theorem mapWrite_answers (hs : slot ≤ 3) {offset : Nat} {data : List Byte}
    (hl : 1 ≤ data.length ∧ data.length ≤ 1016 ∧ offset + data.length ≤ mapSize) :
    Answers (.mapWrite h slot offset data) h 0x0102 flashStates (fun s => s.mapLocked slot = true) .locked (fun _ => [])
      unchanged ∧
    Answers (.mapWrite h slot offset data) h 0x0102 flashStates
      (fun s => s.mapLocked slot = false ∧ s.dev.mapHeld slot = false ∧
        isBlank s.flash (mapBase slot + offset) data.length = false) .notErased (fun _ => []) unchanged ∧
    AnswersLater (.mapWrite h slot offset data) h 0x0102 flashStates
      (fun s => s.mapLocked slot = false ∧ s.dev.mapHeld slot = false ∧
        isBlank s.flash (mapBase slot + offset) data.length = true)
      (fun s => s.hostJob ⟨⟨h, 0x0102, none, s.dev.now⟩, programSteps (mapBase slot + offset) data, .answer⟩) := by
  refine ⟨.of (k := mapWriteKind) rfl rfl fun s hp => ?_, .of (k := mapWriteKind) rfl rfl fun s hp => ?_,
    .of (k := mapWriteKind) rfl rfl fun s hp => ?_⟩
  · simp [mapWriteEff_legal hs hl, hp, unchanged]
  · simp [mapWriteEff_legal hs hl, hp, unchanged]
  · simp [mapWriteEff_legal hs hl, hp, mapWriteKind]

/-- A map that fails a check: the failure of R50, and for MAP.LOAD no shadow map. -/
theorem failedMap_answers (hs : slot ≤ 3) (e : MapFail) :
    Answers (.mapVerify h slot) h 0x0103 workStates
      (fun s => s.dev.mapHeld slot = false ∧ s.checkSlot slot = .error e) e.status (fun _ => e.bytes) unchanged ∧
    Answers (.mapSetBoot h slot) h 0x0107 workStates
      (fun s => s.dev.mapHeld slot = false ∧ s.checkSlot slot = .error e) e.status (fun _ => e.bytes) unchanged ∧
    (e.status ≠ .ok → e.status ≠ .wrongState →
      Answers (.mapLoad h slot) h 0x0104 workStates
        (fun s => s.dev.map.swap = none ∧ s.dev.map.old = none ∧ s.dev.mapHeld slot = false ∧ s.checkSlot slot = .error e)
        e.status (fun _ => e.bytes) (devOnly fun d => { d with map := { d.map with shadow := none } })) := by
  refine ⟨.of (k := mapVerifyKind) rfl rfl ?_, .of (k := mapSetBootKind) rfl rfl ?_,
    fun hok hws => .of (k := mapLoadKind) rfl rfl ?_⟩
  · rintro s ⟨hh, he⟩
    exact checkedEff_error (s := s.taken h _) hs hh he
  · rintro s ⟨hh, he⟩
    exact checkedEff_error (s := s.taken h _) hs hh he
  · rintro s ⟨hw, ho, hh, he⟩
    exact mapLoadEff_error (s := s.taken h _) hw ho hs hh he hok hws

/-- A map that passes every check: its identity, the boot-map field queued, or the new shadow map. -/
theorem passedMap_answers (hs : slot ≤ 3) (m : PisteMap) :
    AnswersData (.mapVerify h slot) h 0x0103 workStates
      (fun s => s.dev.mapHeld slot = false ∧ s.checkSlot slot = .ok m)
      (fun _ b => b.length = 16 ∧ sliceBytes b 0 8 = leBytes 8 m.mapId ∧ sliceBytes b 8 1 = leBytes 1 m.level ∧
        sliceBytes b 10 2 = leBytes 2 m.margin) unchanged ∧
    AnswersLater (.mapSetBoot h slot) h 0x0107 workStates
      (fun s => s.dev.mapHeld slot = false ∧ s.checkSlot slot = .ok m)
      (fun s => s.ownWrite (.boot (.setBoot slot) (some ⟨h, 0x0107, none, s.dev.now⟩))) ∧
    AnswersData (.mapLoad h slot) h 0x0104 workStates
      (fun s => s.dev.map.swap = none ∧ s.dev.map.old = none ∧ s.dev.mapHeld slot = false ∧ s.checkSlot slot = .ok m)
      (fun s b => b = verifiedData s.flash m)
      (devOnly fun d => { d.writeBanks 8388608 8388608 with map := { d.map with shadow := some m } }) := by
  refine ⟨.of (k := mapVerifyKind) rfl rfl ?_, .of (k := mapSetBootKind) rfl rfl ?_, .of (k := mapLoadKind) rfl rfl ?_⟩
  · rintro s ⟨hh, hm⟩
    exact ⟨_, verifiedData_fields _ m, checkedEff_ok (s := s.taken h _) hs hh hm⟩
  · rintro s ⟨hh, hm⟩
    exact checkedEff_ok (s := s.taken h _) hs hh hm
  · rintro s ⟨hw, ho, hh, hm⟩
    exact ⟨_, rfl, mapLoadEff_ok (s := s.taken h _) hw ho hs hh hm⟩

end Slot

/-- Settles O35: each command's effect is written once per case (its guard, the failed check, the passed check), and the
answer follows from it. -/
theorem mapSlotCommands : Obligations.MapSlotCommands := by
  intro h
  refine ⟨fun slot hs => ?_, fun slot hs => ?_⟩
  · refine ⟨.of (k := mapEraseSlotKind) rfl rfl fun _ _ => if_pos hs, .of (k := mapVerifyKind) rfl rfl fun _ _ => ?_,
      .of (k := mapSetBootKind) rfl rfl fun _ _ => ?_, .of (k := mapLoadKind) rfl rfl ?_⟩
    · exact checkedEff_outOfRange hs
    · exact checkedEff_outOfRange hs
    · rintro s ⟨hw, ho⟩
      exact mapLoadEff_outOfRange hw ho hs
  · obtain ⟨hlocked, hheld, herase⟩ := mapEraseSlot_answers h hs
    refine ⟨hlocked, hheld, herase, fun offset data => ⟨fun hl => ?_, mapWrite_answers h hs⟩, failedMap_answers h hs,
      passedMap_answers h hs, .of (k := mapLoadKind) rfl rfl fun s hb => mapLoadEff_wrongState hb⟩
    exact .of (k := mapWriteKind) rfl rfl fun _ _ => mapWriteEff_outOfRange fun hn => hl hn.2

end Sys2Proof.Machine
end

section
/-! Proofs about the commands that wait for a tick or a boundary (R54, R432): what such a command answers is one fact of
`atBoundary` and `Dev.deferAction`; each command adds only its legal operands. -/

namespace Sys2Proof.Machine

/-! ### Effects on the volatile state -/

/-- An effect that answers and changes nothing. -/
theorem onDev_unchanged {f : List Host.Cell → Ctx → Dev → Dev × CmdResult} {c : Ctx} {s : State} {r : CmdResult}
    (hf : f s.flash c s.dev = (s.dev, r)) : onDev f c s = (unchanged s, r) := by
  rw [onDev, hf]
  rfl

/-- An effect that changes the volatile state by a function of it. -/
theorem onDev_devOnly {f : List Host.Cell → Ctx → Dev → Dev × CmdResult} {c : Ctx} {s : State} {r : CmdResult} {g : Dev → Dev}
    (hf : f s.flash c s.dev = (g s.dev, r)) : onDev f c s = (devOnly g s, r) := by
  rw [onDev, hf]
  rfl

/-! ### The deferred queue and the next tick -/

/-- The deferred queue with one action more, and its peak. -/
def Dev.withDeferred (d : Dev) (i : Instr) : Dev :=
  { d with cmd := { d.cmd with
    deferred := d.cmd.deferred ++ [i], peakDeferred := max d.cmd.peakDeferred (d.cmd.deferred.length + 1) } }

/-- The module is in Ready or Standby, where every tick is a boundary (R54). -/
def State.everyTickApplies (s : State) : Prop := s.dev.sys.state = .ready ∨ s.dev.sys.state = .standby

theorem deferAction_full {d : Dev} (i : Instr) (hd : 256 ≤ d.cmd.deferred.length) :
    d.deferAction i = (d, .done .busy []) := if_pos hd

theorem deferAction_room {d : Dev} (i : Instr) (hd : d.cmd.deferred.length < 256) :
    d.deferAction i = (d.withDeferred i, .done .refusedBoundary []) := by
  simp [Dev.deferAction, Nat.not_le.2 hd, Dev.withDeferred]

theorem atBoundary_now {d : Dev} (i : Instr) (hn : d.sys.state = .ready ∨ d.sys.state = .standby) :
    atBoundary i d = (d.atNextTick i, .done .ok []) := by
  rw [atBoundary, if_pos (by simpa using hn)]

theorem atBoundary_later {d : Dev} (i : Instr) (hn : ¬ (d.sys.state = .ready ∨ d.sys.state = .standby)) :
    atBoundary i d = d.deferAction i := by
  rw [atBoundary, if_neg (by simpa using hn)]

/-! ### A command whose action waits for a boundary -/

/-- The three answers of an action that applies at a boundary: OK where that is the next tick, else BUSY with a full deferred
queue and REFUSED_BOUNDARY with room in it. -/
def WaitsForBoundary (i : Instr) (h : CmdHeader) (op : Nat) (legal : List DevState) (pre : State → Prop) : Prop :=
  Answers i h op legal (fun s => pre s ∧ s.everyTickApplies) .ok (fun _ => []) (devOnly (·.atNextTick i)) ∧
  Answers i h op legal (fun s => pre s ∧ ¬ s.everyTickApplies ∧ 256 ≤ s.dev.cmd.deferred.length) .busy (fun _ => []) unchanged ∧
  Answers i h op legal (fun s => pre s ∧ ¬ s.everyTickApplies ∧ s.dev.cmd.deferred.length < 256) .refusedBoundary (fun _ => [])
    (devOnly (·.withDeferred i))

section Guarded
variable {i : Instr} {h : CmdHeader} {k : CmdKind} {legal : List DevState} {pre : State → Prop} {ok : Dev → Bool}
  {act : Dev → Dev × CmdResult}

/-- A command refused outside its legal operands changes nothing. -/
theorem refuses_of_illegal
    (e : hostEff i = some (h, k, onDev fun _ _ d => if ok d then act d else (d, .done .outOfRange [])))
    (hl : (legal.all fun st => k.legal.contains st) = true)
    (hno : ∀ s, pre s → ok (s.taken h k.opcode).dev = false) :
    Answers i h k.opcode legal pre .outOfRange (fun _ => []) unchanged :=
  .of e hl fun s hp => onDev_unchanged (if_neg (Bool.eq_false_iff.1 (hno s hp)))

/-- A command whose action waits for a boundary within its legal operands. -/
theorem waits_of_legal
    (e : hostEff i = some (h, k, onDev fun _ _ d => if ok d then atBoundary i d else (d, .done .outOfRange [])))
    (hl : (legal.all fun st => k.legal.contains st) = true)
    (hok : ∀ s, pre s → ok (s.taken h k.opcode).dev = true) :
    WaitsForBoundary i h k.opcode legal pre := by
  refine ⟨.of e hl ?_, .of e hl ?_, .of e hl ?_⟩
  · rintro s ⟨hp, hn⟩
    exact onDev_devOnly ((if_pos (hok s hp)).trans (atBoundary_now i hn))
  · rintro s ⟨hp, hn, hd⟩
    exact onDev_unchanged ((if_pos (hok s hp)).trans ((atBoundary_later (d := (s.taken h _).dev) i hn).trans (deferAction_full i hd)))
  · rintro s ⟨hp, hn, hd⟩
    exact onDev_devOnly ((if_pos (hok s hp)).trans ((atBoundary_later (d := (s.taken h _).dev) i hn).trans (deferAction_room i hd)))

/-- A command whose legal operands do not depend on the state. -/
theorem waits_iff_legal {ok : Bool} {good : Prop}
    (e : hostEff i = some (h, k, onDev fun _ _ d => if ok then atBoundary i d else (d, .done .outOfRange [])))
    (hl : (legal.all fun st => k.legal.contains st) = true) (hg : ok = true ↔ good) :
    (good → WaitsForBoundary i h k.opcode legal always) ∧
      (¬ good → Answers i h k.opcode legal always .outOfRange (fun _ => []) unchanged) :=
  ⟨fun g => waits_of_legal (ok := fun _ => ok) e hl fun _ _ => hg.2 g,
    fun g => refuses_of_illegal (ok := fun _ => ok) e hl fun _ _ => Bool.eq_false_iff.2 fun hk => g (hg.1 hk)⟩

/-- A command whose action waits for the next tick in every state. -/
theorem nextTick_iff_legal {ok : Bool} {good : Prop}
    (e : hostEff i = some (h, k, onDev fun _ _ d => if ok then (d.atNextTick i, .done .ok []) else (d, .done .outOfRange [])))
    (hl : (legal.all fun st => k.legal.contains st) = true) (hg : ok = true ↔ good) :
    (¬ good → Answers i h k.opcode legal always .outOfRange (fun _ => []) unchanged) ∧
      (good → Answers i h k.opcode legal always .ok (fun _ => []) (devOnly (·.atNextTick i))) :=
  ⟨fun g => refuses_of_illegal (ok := fun _ => ok) e hl fun _ _ => Bool.eq_false_iff.2 fun hk => g (hg.1 hk),
    fun g => .of e hl fun _ _ => onDev_devOnly (if_pos (hg.2 g))⟩

end Guarded

theorem pixelRange_iff {f l : Nat} : pixelRange f l = true ↔ f ≤ l ∧ l ≤ 1023 := by simp [pixelRange]

theorem tileRange_iff {f l : Nat} : tileRange f l = true ↔ f ≤ l ∧ l ≤ 63 := by simp [tileRange]

/-! ### The legal operands of each command -/

section Commands
variable (h : CmdHeader) (f l : Nat)

theorem feSetThreshold_waits (step : Nat) (st sg sh : Bool) (t g ht hg : Nat) :
    let i := Instr.feSetThreshold h f l step st sg sh t g ht hg
    let ok := (f ≤ l ∧ l ≤ 1023) ∧ step ≤ 7
    (ok → WaitsForBoundary i h 0x0202 [.ready, .running] always) ∧
      (¬ ok → Answers i h 0x0202 [.ready, .running] always .outOfRange (fun _ => []) unchanged) :=
  waits_iff_legal (k := feSetThresholdKind) rfl rfl
    ((Bool.and_eq_true ..).to_iff.trans (and_congr pixelRange_iff decide_eq_true_iff))

theorem feSetBias_waits (v : Nat) :
    let i := Instr.feSetBias h f l v
    let ok := f ≤ l ∧ l ≤ 63 ∧ (v = 0 ∨ (2000 ≤ v ∧ v ≤ 7200))
    (ok → WaitsForBoundary i h 0x0203 [.ready, .running, .quiesce] always) ∧
      (¬ ok → Answers i h 0x0203 [.ready, .running, .quiesce] always .outOfRange (fun _ => []) unchanged) :=
  waits_iff_legal (k := feSetBiasKind) rfl rfl (by simp [tileRange_iff, and_assoc])

theorem feSetTrim_waits (v : Nat) :
    (f ≤ l ∧ l ≤ 1023 → WaitsForBoundary (.feSetTrim h f l v) h 0x0204 [.ready, .running, .quiesce] always) ∧
      (¬ (f ≤ l ∧ l ≤ 1023) →
        Answers (.feSetTrim h f l v) h 0x0204 [.ready, .running, .quiesce] always .outOfRange (fun _ => []) unchanged) :=
  waits_iff_legal (k := feSetTrimKind) rfl rfl pixelRange_iff

theorem wfcSetMode_waits (v : Nat) :
    (f ≤ l ∧ l ≤ 1023 → WaitsForBoundary (.wfcSetMode h f l v) h 0x0301 [.ready, .running] always) ∧
      (¬ (f ≤ l ∧ l ≤ 1023) →
        Answers (.wfcSetMode h f l v) h 0x0301 [.ready, .running] always .outOfRange (fun _ => []) unchanged) :=
  waits_iff_legal (k := wfcSetModeKind) rfl rfl pixelRange_iff

theorem tdcSetOffset_waits (v : Nat) :
    (f ≤ l ∧ l ≤ 1023 → WaitsForBoundary (.tdcSetOffset h f l v) h 0x0422 [.ready, .running] always) ∧
      (¬ (f ≤ l ∧ l ≤ 1023) →
        Answers (.tdcSetOffset h f l v) h 0x0422 [.ready, .running] always .outOfRange (fun _ => []) unchanged) :=
  waits_iff_legal (k := tdcSetOffsetKind) rfl rfl pixelRange_iff

theorem acqTagControl_waits (what value : Nat) :
    let i := Instr.acqTagControl h f l what value
    let ok := what = 0 ∨ (what = 1 ∧ f ≤ l ∧ l ≤ 1023)
    (ok → WaitsForBoundary i h 0x0602 [.ready, .running] always) ∧
      (¬ ok → Answers i h 0x0602 [.ready, .running] always .outOfRange (fun _ => []) unchanged) :=
  waits_iff_legal (k := acqTagControlKind) rfl rfl (by simp [pixelRange_iff])

/-- The averaging also has to divide every number of samples that the active map asks for (R245). -/
theorem acqSetAverage_waits (avg : Nat) :
    let i := Instr.acqSetAverage h f l avg
    let ok := fun (s : State) => (f ≤ l ∧ l ≤ 1023) ∧ avg ≤ 8 ∧ averageFits s.dev.map.active ⟨f, l⟩ avg = true
    WaitsForBoundary i h 0x0603 [.ready, .running] ok ∧
      Answers i h 0x0603 [.ready, .running] (fun s => ¬ ok s) .outOfRange (fun _ => []) unchanged := by
  let guard := fun (d : Dev) => pixelRange f l && decide (avg ≤ 8) && averageFits d.map.active ⟨f, l⟩ avg
  have hg (s : State) : guard (s.taken h 0x0603).dev = true ↔
      (f ≤ l ∧ l ≤ 1023) ∧ avg ≤ 8 ∧ averageFits s.dev.map.active ⟨f, l⟩ avg = true := by
    simp [guard, pixelRange_iff, and_assoc]
  exact ⟨waits_of_legal (k := acqSetAverageKind) (ok := guard) rfl rfl fun s => (hg s).2,
    refuses_of_illegal (k := acqSetAverageKind) (ok := guard) rfl rfl fun s hn => Bool.eq_false_iff.2 fun hk => hn ((hg s).1 hk)⟩

theorem cmpSetParams_waits (distance a b c : Nat) (enable : Bool) (k : List Nat) :
    let i := Instr.cmpSetParams h f l distance a b c enable k
    let ok := (f ≤ l ∧ l ≤ 1023) ∧ distance ≤ f ∧ (∀ x ∈ k, x ≤ 11) ∧ (distance = 0 → c = 0)
    (ok → WaitsForBoundary i h 0x0703 [.ready, .running] always) ∧
      (¬ ok → Answers i h 0x0703 [.ready, .running] always .outOfRange (fun _ => []) unchanged) :=
  waits_iff_legal (k := cmpSetParamsKind) rfl rfl (by simp [pixelRange_iff, and_assoc, Decidable.imp_iff_not_or])

theorem mrgSetClose_waits (t m : Nat) :
    let i := Instr.mrgSetClose h t m
    let ok := 2560 ≤ t ∧ t ≤ 25600000 ∧ m ≤ 1
    (ok → WaitsForBoundary i h 0x0802 [.ready, .running] always) ∧
      (¬ ok → Answers i h 0x0802 [.ready, .running] always .outOfRange (fun _ => []) unchanged) :=
  waits_iff_legal (k := mrgSetCloseKind) rfl rfl (by simp [and_assoc])

/-! ### Commands that wait otherwise -/

/-- FE.GATE waits for the next tick in every state (R98). -/
theorem feGate_answers (action len : Nat) :
    let i := Instr.feGate h f l action len
    let ok := f ≤ l ∧ l ≤ 63 ∧ action ≤ 2 ∧ (action = 2 → 1 ≤ len ∧ len ≤ 2560000000) ∧ (action ≠ 2 → len = 0)
    (¬ ok → Answers i h 0x0205 [.ready, .running] always .outOfRange (fun _ => []) unchanged) ∧
      (ok → Answers i h 0x0205 [.ready, .running] always .ok (fun _ => []) (devOnly (·.atNextTick i))) := by
  refine nextTick_iff_legal (k := feGateKind) rfl rfl ?_
  by_cases ha : action = 2 <;> simp [tileRange_iff, and_assoc, ha]

/-- TIME.SWITCH_SOURCE: only a source that is ready and not in use is switched to, at the next tick (R136). -/
theorem timeSwitchSource_answers (source : Nat) :
    let i := Instr.timeSwitchSource h source
    let ready := fun (s : State) => source ≤ 2 ∧ (s.dev.time.source source).ready = true
    let settled := fun (s : State) => s.dev.time.alignment ≠ .ambiguous
    (2 < source → Answers i h 0x0401 workStates always .outOfRange (fun _ => []) unchanged) ∧
    Answers i h 0x0401 workStates (fun s => source ≤ 2 ∧ ¬ ready s) .notReady (fun _ => []) unchanged ∧
    Answers i h 0x0401 workStates (fun s => ready s ∧ settled s ∧ s.dev.time.inUse = source) .ok (fun _ => []) unchanged ∧
    Answers i h 0x0401 workStates (fun s => ready s ∧ settled s ∧ s.dev.time.inUse ≠ source) .ok (fun _ => [])
      (devOnly (·.atNextTick i)) := by
  refine ⟨fun hs => .of (k := timeSwitchSourceKind) rfl rfl fun s _ => onDev_unchanged (if_pos hs),
    .of (k := timeSwitchSourceKind) rfl rfl ?_, .of (k := timeSwitchSourceKind) rfl rfl ?_,
    .of (k := timeSwitchSourceKind) rfl rfl ?_⟩
  · rintro s ⟨hs, hr⟩
    have hr : (s.dev.time.source source).ready = false := by simpa [hs] using hr
    exact onDev_unchanged (by simp [Nat.not_lt.2 hs, hr])
  · rintro s ⟨⟨hs, hr⟩, ha, hu⟩
    exact onDev_unchanged (by simp [Nat.not_lt.2 hs, hr, ha, hu])
  · rintro s ⟨⟨hs, hr⟩, ha, hu⟩
    exact onDev_devOnly (by simp [Nat.not_lt.2 hs, hr, ha, hu])

/-- MON.SET_MODE waits for the end of a loop pass in every state (R120). -/
theorem monSetMode_answers (mode : Nat) :
    let i := Instr.monSetMode h mode
    (mode ≤ 1 →
      Answers i h 0x0312 workStates (fun s => 256 ≤ s.dev.cmd.deferred.length) .busy (fun _ => []) unchanged ∧
      Answers i h 0x0312 workStates (fun s => s.dev.cmd.deferred.length < 256) .refusedBoundary (fun _ => [])
        (devOnly (·.withDeferred i))) ∧
    (1 < mode → Answers i h 0x0312 workStates always .outOfRange (fun _ => []) unchanged) := by
  refine ⟨fun hm => ⟨.of (k := monSetModeKind) rfl rfl fun s hd => ?_, .of (k := monSetModeKind) rfl rfl fun s hd => ?_⟩,
    fun hm => .of (k := monSetModeKind) rfl rfl fun s _ => onDev_unchanged (if_neg (Nat.not_le.2 hm))⟩
  · exact onDev_unchanged ((if_pos hm).trans (deferAction_full _ hd))
  · exact onDev_devOnly ((if_pos hm).trans (deferAction_room _ hd))

end Commands

/-- Settles O37: the three answers of `atBoundary` once, and for each command that its guard is its legal operands. -/
theorem boundaryCommands : Obligations.BoundaryCommands := by
  intro h f l
  exact ⟨feSetThreshold_waits h f l, feSetBias_waits h f l,
    fun v => ⟨(feSetTrim_waits h f l v).1, (feSetTrim_waits h f l v).2, (wfcSetMode_waits h f l v).1, (wfcSetMode_waits h f l v).2,
      tdcSetOffset_waits h f l v⟩,
    acqTagControl_waits h f l, acqSetAverage_waits h f l, cmpSetParams_waits h f l, mrgSetClose_waits h, feGate_answers h f l,
    timeSwitchSource_answers h, monSetMode_answers h⟩

end Sys2Proof.Machine
end

section
/-! Proofs about what a pulse that is lost, a calibration run that is aborted and a record that is sent leave: the device state
and the front end but for the marks of the run. -/

namespace Sys2Proof.Machine

/-! ### The device state and the front end stay -/

/-- The device state and the front end are those of the state before. -/
def Dev.KeepsFe (d e : Dev) : Prop := e.sys = d.sys ∧ e.fe = d.fe

theorem Dev.KeepsFe.refl (d : Dev) : d.KeepsFe d := ⟨rfl, rfl⟩

theorem Dev.KeepsFe.trans {a b c : Dev} (h : a.KeepsFe b) (k : b.KeepsFe c) : a.KeepsFe c := ⟨k.1.trans h.1, k.2.trans h.2⟩

theorem Dev.QueuesOnly.keepsFe {d e : Dev} (h : d.QueuesOnly e) : d.KeepsFe e := ⟨h.sys, h.fe⟩

theorem Dev.drainTest_keepsFe (d : Dev) : d.KeepsFe d.drainTest := by
  unfold Dev.drainTest
  split
  · exact .refl d
  · split
    · exact .refl d
    · exact ⟨rfl, rfl⟩

theorem Dev.modAcqCounters_keepsFe (d : Dev) (f : AcqCounters → AcqCounters) : d.KeepsFe (d.modAcqCounters f) := by
  unfold Dev.modAcqCounters
  split
  · exact ⟨rfl, rfl⟩
  · exact .refl d

theorem Dev.takeCrossingInject_keepsFe (d : Dev) (crossing tile : Nat) : d.KeepsFe (d.takeCrossingInject crossing tile).1 := by
  unfold Dev.takeCrossingInject
  split
  · exact ⟨rfl, rfl⟩
  · exact .refl d

theorem Dev.writeWord_keepsFe (d : Dev) (crossing tile : Nat) (upset : Bool) :
    d.KeepsFe (d.writeWord crossing tile upset).1 := d.takeCrossingInject_keepsFe crossing tile

theorem Dev.dropTag_keepsFe (d : Dev) (p : Nat) (f : TagFrame) : d.KeepsFe (d.dropTag p f) := by
  unfold Dev.dropTag
  extract_lets n d₁ d₂ d₃
  have h : d.KeepsFe d₂ := ⟨rfl, rfl⟩
  exact (h.trans (d₂.modAcqCounters_keepsFe _)).trans (d₃.raiseLimited_only ..).keepsFe

theorem Dev.closeTag_keepsFe (d : Dev) (p : Nat) (rise : Int) (tot : Nat) (noFalling parity : Bool) :
    d.KeepsFe (d.closeTag p rise tot noFalling parity) := by
  unfold Dev.closeTag
  extract_lets tile
  split
  · split
    · exact ⟨rfl, rfl⟩
    · exact .refl d
  · split
    · exact d.dropTag_keepsFe ..
    · extract_lets isOver off word
      have h := d.writeWord_keepsFe 3 tile (!parity)
      generalize d.writeWord 3 tile (!parity) = x at h
      exact Dev.KeepsFe.trans (h.trans ⟨rfl, rfl⟩) (Dev.drainTest_keepsFe _)

theorem Dev.enterHit_keepsFe (d : Dev) (h : Hit) (parity : Bool) : d.KeepsFe (d.enterHit h parity) := by
  unfold Dev.enterHit
  extract_lets tile isOver d₁ d₂
  split
  · have h := d.writeWord_keepsFe 1 tile (!parity)
    generalize d.writeWord 1 tile (!parity) = x at h
    exact Dev.KeepsFe.trans (h.trans ⟨rfl, rfl⟩) (Dev.drainTest_keepsFe _)
  · have h : d.KeepsFe d₁ := ⟨rfl, rfl⟩
    exact (h.trans (d₁.modAcqCounters_keepsFe _)).trans (d₂.raiseLimited_only ..).keepsFe

theorem Dev.completePulse_keepsFe (d : Dev) (p : Nat) (q : Pulse) (fall : Option Int) (parity : Bool) :
    d.KeepsFe (d.completePulse p q fall parity) := by
  unfold Dev.completePulse
  extract_lets d₁ long width hit d₂
  have h : d.KeepsFe d₁ := ⟨rfl, rfl⟩
  have h : d.KeepsFe d₂ := h.trans (d₁.enterHit_keepsFe hit parity)
  split
  · exact h
  · exact h.trans (d₂.closeTag_keepsFe ..)

theorem Dev.loseFalling_keepsFe (d : Dev) (p : Nat) : d.KeepsFe (d.loseFalling p) := by
  unfold Dev.loseFalling
  split
  · exact .refl d
  · split
    · exact .refl d
    · exact d.completePulse_keepsFe ..

theorem Dev.loseTilePulses_keepsFe (d : Dev) (n : Nat) : d.KeepsFe (d.loseTilePulses n) := by
  unfold Dev.loseTilePulses
  generalize List.range 16 = l
  induction l generalizing d with
  | nil => exact .refl d
  | cons i l ih => exact (d.loseFalling_keepsFe _).trans (ih _)

/-! ### The marks of a calibration run -/

/-- A tile without the marks that a calibration run leaves on it. -/
def TileFe.unmarked (t : TileFe) : TileFe := { t with calibrating := false, calSpans := [] }

/-- The device state, the pixels and, but for the marks of a calibration run, the tiles are those of the state before. -/
def Dev.KeepsTiles (d e : Dev) : Prop :=
  e.sys = d.sys ∧ ∀ n, (e.tileFe n).map TileFe.unmarked = (d.tileFe n).map TileFe.unmarked

theorem Dev.KeepsTiles.refl (d : Dev) : d.KeepsTiles d := ⟨rfl, fun _ => rfl⟩

theorem Dev.KeepsTiles.trans {a b c : Dev} (h : a.KeepsTiles b) (k : b.KeepsTiles c) : a.KeepsTiles c :=
  ⟨k.1.trans h.1, fun n => (k.2 n).trans (h.2 n)⟩

theorem Dev.KeepsFe.keepsTiles {d e : Dev} (h : d.KeepsFe e) : d.KeepsTiles e :=
  ⟨h.1, fun n => by rw [Dev.tileFe, Dev.tileFe, h.2]⟩

/-- What a run does not mark is read off a tile as before. -/
theorem Dev.KeepsTiles.map_eq {α : Type} {d e : Dev} (h : d.KeepsTiles e) (n : Nat) {g : TileFe → α}
    (hg : ∀ t, g t.unmarked = g t) : (e.tileFe n).map g = (d.tileFe n).map g := by
  have hg : g ∘ TileFe.unmarked = g := funext hg
  rw [← hg, ← Option.map_map, ← Option.map_map, h.2 n]

/-! ### Elements of a vector -/

theorem getElem?_modAt {α : Type} {n : Nat} (v : Vector α n) (i j : Nat) (f : α → α) :
    (modAt v i f)[j]? = if i = j then (v[j]?).map f else v[j]? := by
  unfold modAt
  split
  · rw [Vector.getElem?_set]
    by_cases hij : i = j
    · subst hij
      simp [*]
    · simp [hij]
  · split
    · subst_vars
      simp [*]
    · rfl

theorem Dev.tileFe_modTile (d : Dev) (n k : Nat) (f : TileFe → TileFe) :
    (d.modTile n f).tileFe k = if n = k then (d.tileFe k).map f else d.tileFe k := getElem?_modAt ..

theorem Dev.modTile_keepsTiles (d : Dev) (n : Nat) {f : TileFe → TileFe} (hf : ∀ t, (f t).unmarked = t.unmarked) :
    d.KeepsTiles (d.modTile n f) := by
  refine ⟨rfl, fun k => ?_⟩
  rw [Dev.tileFe_modTile]
  split
  · rw [Option.map_map, show TileFe.unmarked ∘ f = TileFe.unmarked from funext hf]
  · rfl

theorem Dev.abortRun_keepsTiles (d : Dev) (n cause : Nat) : d.KeepsTiles (d.abortRun n cause) := by
  unfold Dev.abortRun
  split
  · exact .refl d
  · split
    · exact .refl d
    · unfold Dev.endRun
      extract_lets rs d₁ d₂
      have h : d.KeepsTiles d₁ := ⟨rfl, fun _ => rfl⟩
      have h : d.KeepsTiles d₂ := h.trans (d₁.modTile_keepsTiles n fun _ => rfl)
      exact (h.trans (d₂.sendUp_only ..).keepsFe.keepsTiles).trans (Dev.raise_only ..).keepsFe.keepsTiles

/-- An aborted run and the tile's lost pulses together. -/
theorem Dev.abortRun_loseTilePulses_keepsTiles (d : Dev) (n cause : Nat) : d.KeepsTiles ((d.abortRun n cause).loseTilePulses n) :=
  (d.abortRun_keepsTiles n cause).trans (Dev.loseTilePulses_keepsFe ..).keepsTiles

end Sys2Proof.Machine
end

section
/-! Proofs about the key ring, the swap of maps, the old map behind the swap marker and damaged sections (R47, R48, R54 to R59). -/

namespace Sys2Proof.Machine

/-! ### What an entry to Fault-hold leaves of the device state -/

theorem Dev.foldl_sys {α : Type} {f : Dev → α → Dev} (hf : ∀ (d : Dev) (a : α), (f d a).sys = d.sys) (l : List α) (d : Dev) :
    (l.foldl f d).sys = d.sys := by
  induction l generalizing d with
  | nil => rfl
  | cons a l ih => exact (ih _).trans (hf d a)

theorem Dev.abortRun_sys (d : Dev) (n cause : Nat) : (d.abortRun n cause).sys = d.sys := (d.abortRun_keepsTiles n cause).1

theorem Dev.startCheck_sys (d : Dev) (n : Nat) : (d.startCheck n).sys = d.sys := (d.loseTilePulses_keepsFe n).1

theorem Dev.resumeCheck_sys (d : Dev) (n : Nat) : (d.resumeCheck n).sys = d.sys := by
  unfold Dev.resumeCheck
  split
  · rfl
  · split
    · exact d.startCheck_sys n
    · rfl

theorem Dev.endRuns_sys (d : Dev) (cause : Nat) : (d.endRuns cause).sys = d.sys :=
  (Dev.foldl_sys Dev.resumeCheck_sys _ _).trans (Dev.foldl_sys (fun d n => d.abortRun_sys n cause) _ d)

theorem Dev.rampTile_sys (d : Dev) (n v : Nat) : (d.rampTile n v).sys = d.sys := by
  unfold Dev.rampTile
  split
  · rfl
  · extract_lets out
    split
    · rfl
    · exact (d.abortRun_loseTilePulses_keepsTiles n 1).1

theorem Dev.tileToZero_sys (d : Dev) (discharge : Bool) (n : Nat) : (d.tileToZero discharge n).sys = d.sys := by
  unfold Dev.tileToZero
  split
  · rfl
  · exact d.rampTile_sys n 0

theorem Dev.biasToZero_sys (d : Dev) (discharge : Bool) : (d.biasToZero discharge).sys = d.sys :=
  Dev.foldl_sys (fun d n => d.tileToZero_sys discharge n) _ d

theorem Dev.discardTimed_sys (d : Dev) (e : Timed) : (d.discardTimed e).sys = d.sys := by
  unfold Dev.discardTimed
  split
  · rfl
  · exact d.finish_sys ..

theorem Dev.discardWaiting_sys (d : Dev) : d.discardWaiting.sys = d.sys := by
  unfold Dev.discardWaiting
  dsimp only
  split
  · rfl
  · exact (Dev.raise_sys ..).trans (Dev.foldl_sys Dev.discardTimed_sys _ _)

theorem Dev.moveTo_state (d : Dev) (st : DevState) (cause : Nat) :
    (d.moveTo st cause).sys.state = st ∧ (d.moveTo st cause).sys.cause = cause := by
  simp [Dev.moveTo]

/-- From a state that has an edge to it, Fault-hold is entered with its cause (R567). -/
theorem Dev.faultHold_state {d : Dev} {cause : Nat} (hs : d.sys.state ∈ [.standby, .ready, .running, .quiesce]) :
    (d.faultHold cause).sys.state = .faultHold ∧ (d.faultHold cause).sys.cause = cause := by
  have hedge : [DevState.boot, .standby, .ready, .running, .quiesce].contains d.sys.state = true := by
    simpa using Or.inr (by simpa using hs)
  have hsys : (d.faultHold cause).sys = (d.moveTo .faultHold cause).sys := by
    rw [Dev.faultHold, if_pos hedge, Dev.discardWaiting_sys, Dev.endRuns_sys, Dev.biasToZero_sys]
    rfl
  rw [hsys]
  exact d.moveTo_state .faultHold cause

/-! ### The key ring (R47, R48) -/

section Keys
variable (h : CmdHeader)

theorem mapKeyAdd_answers (key : List Byte) :
    Answers (.mapKeyAdd h key) h 0x0108 [.standby] (fun s => s.ringAhead.locked = true) .locked (fun _ => []) unchanged ∧
    Answers (.mapKeyAdd h key) h 0x0108 [.standby] (fun s => s.ringAhead.locked = false ∧ key ∈ s.ringAhead.keys) .ok
      (fun _ => leBytes 8 (keyIdOf key)) unchanged ∧
    Answers (.mapKeyAdd h key) h 0x0108 [.standby]
      (fun s => s.ringAhead.locked = false ∧ key ∉ s.ringAhead.keys ∧ 8 ≤ s.ringAhead.keys.length) .outOfRange
      (fun _ => []) unchanged ∧
    AnswersLater (.mapKeyAdd h key) h 0x0108 [.standby]
      (fun s => s.ringAhead.locked = false ∧ key ∉ s.ringAhead.keys ∧ s.ringAhead.keys.length < 8)
      (fun s => s.ownWrite (.keys (.add key) (some ⟨h, 0x0108, none, s.dev.now⟩))) := by
  refine ⟨.of (k := mapKeyAddKind) rfl rfl fun s hlock => if_pos hlock, .of (k := mapKeyAddKind) rfl rfl ?_,
    .of (k := mapKeyAddKind) rfl rfl ?_, .of (k := mapKeyAddKind) rfl rfl ?_⟩
  · rintro s ⟨hlock, hkey⟩
    simp [mapKeyAddEff, hlock, hkey, unchanged]
  · rintro s ⟨hlock, hkey, hfull⟩
    simp [mapKeyAddEff, hlock, hkey, hfull, unchanged]
  · rintro s ⟨hlock, hkey, hroom⟩
    simp [mapKeyAddEff, hlock, hkey, Nat.not_le.2 hroom, mapKeyAddKind]

theorem mapKeyRemove_answers (id : Nat) :
    Answers (.mapKeyRemove h id) h 0x0109 [.standby] (fun s => s.ringAhead.locked = true) .locked (fun _ => []) unchanged ∧
    Answers (.mapKeyRemove h id) h 0x0109 [.standby]
      (fun s => s.ringAhead.locked = false ∧ ∀ k ∈ s.ringAhead.keys, keyIdOf k ≠ id) .outOfRange (fun _ => []) unchanged ∧
    AnswersLater (.mapKeyRemove h id) h 0x0109 [.standby]
      (fun s => s.ringAhead.locked = false ∧ ∃ k ∈ s.ringAhead.keys, keyIdOf k = id)
      (fun s => s.ownWrite (.keys (.remove id) (some ⟨h, 0x0109, none, s.dev.now⟩))) := by
  refine ⟨.of (k := mapKeyRemoveKind) rfl rfl fun s hlock => if_pos hlock, .of (k := mapKeyRemoveKind) rfl rfl ?_,
    .of (k := mapKeyRemoveKind) rfl rfl ?_⟩
  · rintro s ⟨hlock, hnone⟩
    have hany : s.ringAhead.keys.any (fun k => keyIdOf k == id) = false := by simpa using hnone
    simp [mapKeyRemoveEff, hlock, hany, unchanged]
  · rintro s ⟨hlock, hsome⟩
    have hany : s.ringAhead.keys.any (fun k => keyIdOf k == id) = true := by simpa using hsome
    simp [mapKeyRemoveEff, hlock, hany, mapKeyRemoveKind]

theorem mapKeyLock_answers :
    Answers (.mapKeyLock h) h 0x010A [.standby] (fun s => s.ringAhead.locked = true) .locked (fun _ => []) unchanged ∧
    AnswersLater (.mapKeyLock h) h 0x010A [.standby] (fun s => s.ringAhead.locked = false)
      (fun s => s.ownWrite (.keys .lock (some ⟨h, 0x010A, none, s.dev.now⟩))) :=
  ⟨.of (k := mapKeyLockKind) rfl rfl fun _ hlock => if_pos hlock,
    .of (k := mapKeyLockKind) rfl rfl fun _ hlock => if_neg (Bool.eq_false_iff.1 hlock)⟩

/-- The four slots are the 512 sectors from 322 on. -/
theorem sectorsOf_slots : sectorsOf (mapBase 0) (4 * mapSize) = (List.range 512).map (322 + ·) := rfl

theorem mapKeyUnlock_answers :
    AnswersLater (.mapKeyUnlock h) h 0x010B [.lodge] always
      (fun s => s.hostJob ⟨⟨h, 0x010B, none, s.dev.now⟩, (List.range 512).map fun k => .erase (322 + k), .unlock⟩) := by
  refine .of (k := mapKeyUnlockKind) rfl rfl fun s _ => ?_
  rw [mapKeyUnlockEff, sectorsOf_slots, List.map_map]
  rfl

/-! ### Swaps (R54 to R58) -/

/-- A swap can be queued: none waits, and the shadow map has the frame phase of the active one. -/
def Dev.swapFree (d : Dev) : Prop := d.map.swap = none ∧ d.map.shadow ≠ none ∧ d.samePhase = true

/-- A swap waits, with no edge skipped yet. -/
def Dev.withSwap (d : Dev) (patience : Nat) : Dev := { d with map := { d.map with swap := some ⟨patience, 0⟩ } }

theorem Dev.swapFree_iff (d : Dev) :
    ¬ d.swapFree ↔ (d.map.swap.isSome || d.map.shadow.isNone || !d.samePhase) = true := by
  cases hw : d.map.swap <;> cases hm : d.map.shadow <;> simp [Dev.swapFree, hw, hm]

section Swap
variable {patience : Nat} {i : Instr} {c : Ctx}

/-- What MAP.SWAP makes of the action's place in the queues, where a swap can be queued. -/
theorem mapSwapEff_free {s : State} (hf : s.dev.swapFree) {d' : Dev} {r : CmdResult} (hb : atBoundary i s.dev = (d', r)) :
    mapSwapEff i patience c s = ({ s with dev := if r == .done .busy [] then d' else d'.withSwap patience }, r) := by
  have hno : (s.dev.map.swap.isSome || s.dev.map.shadow.isNone || !s.dev.samePhase) = false :=
    Bool.eq_false_iff.2 fun hk => s.dev.swapFree_iff.2 hk hf
  simp only [mapSwapEff, onDev, hno, Bool.false_eq_true, if_false, hb]
  split <;> rfl

end Swap

theorem mapSwap_answers (patience : Nat) :
    let legal : List DevState := [.standby, .ready, .running]
    Answers (.mapSwap h patience) h 0x0105 legal (fun s => ¬ s.dev.swapFree) .wrongState (fun _ => []) unchanged ∧
    Answers (.mapSwap h patience) h 0x0105 legal
      (fun s => s.dev.swapFree ∧ (s.dev.sys.state = .standby ∨ s.dev.sys.state = .ready)) .ok (fun _ => [])
      (devOnly fun d => (d.atNextTick (.mapSwap h patience)).withSwap patience) ∧
    Answers (.mapSwap h patience) h 0x0105 legal
      (fun s => s.dev.swapFree ∧ s.dev.sys.state = .running ∧ 256 ≤ s.dev.cmd.deferred.length) .busy (fun _ => []) unchanged ∧
    Answers (.mapSwap h patience) h 0x0105 legal
      (fun s => s.dev.swapFree ∧ s.dev.sys.state = .running ∧ s.dev.cmd.deferred.length < 256) .refusedBoundary (fun _ => [])
      (devOnly fun d => (d.withDeferred (.mapSwap h patience)).withSwap patience) := by
  refine ⟨.of (k := mapSwapKind) rfl rfl fun s hf => onDev_unchanged (if_pos (s.dev.swapFree_iff.1 hf)),
    .of (k := mapSwapKind) rfl rfl ?_, .of (k := mapSwapKind) rfl rfl ?_, .of (k := mapSwapKind) rfl rfl ?_⟩
  · rintro s ⟨hf, hst⟩
    exact mapSwapEff_free (s := s.taken h _) hf (atBoundary_now _ hst.symm)
  · rintro s ⟨hf, hst, hd⟩
    exact mapSwapEff_free (s := s.taken h _) hf ((atBoundary_later _ (by simp [hst])).trans (deferAction_full _ hd))
  · rintro s ⟨hf, hst, hd⟩
    exact mapSwapEff_free (s := s.taken h _) hf ((atBoundary_later _ (by simp [hst])).trans (deferAction_room _ hd))

/-- The queued swap is withdrawn, with event 1809 (R56). -/
def Dev.withdrawSwap (d : Dev) : Dev := d.clearSwap.raise 1809 0 [evNat (d.map.shadow.elim 0 (·.mapId))]

theorem mapCancelSwap_answers :
    Answers (.mapCancelSwap h) h 0x0106 [.ready, .running] (fun s => s.dev.map.swap = none) .wrongState (fun _ => []) unchanged ∧
    AnswersWith (.mapCancelSwap h) h 0x0106 [.ready, .running] (fun s => s.dev.map.swap ≠ none) .ok
      (fun s t => t.dev.map = { s.dev.map with swap := none } ∧
        t.dev.cmd.deferred = s.dev.cmd.deferred.filter (fun i => !isSwap i) ∧
        t.dev.cmd.nextTick = s.dev.cmd.nextTick.filter (fun i => !isSwap i) ∧ t.dev.sys = s.dev.sys) := by
  refine ⟨.of (k := mapCancelSwapKind) rfl rfl fun s hw => onDev_unchanged (if_pos (by simp [hw])),
    .of (k := mapCancelSwapKind) rfl rfl fun s hw => ⟨devOnly Dev.withdrawSwap _, ?_, onDev_devOnly (if_neg ?_)⟩⟩
  · simp [devOnly, Dev.withdrawSwap, Dev.clearSwap]
  · simpa using hw

end Keys

/-! ### The marker and the sections (R56, R59) -/

theorem swapMarkerDone_exec (s : State) :
    (s.dev.markerPassed = true → exec .swapMarkerDone s = .next (s.onDev fun d => { d with map := { d.map with old := none } })) ∧
    (s.dev.markerPassed = false → exec .swapMarkerDone s = .next s) := by
  have e : exec .swapMarkerDone s = execSwapMarkerDone s := rfl
  refine ⟨fun hp => ?_, fun hp => ?_⟩ <;> simp [e, execSwapMarkerDone, State.onDev, Dev.modMap, hp]

/-- What SECTION_RELOAD does with a section of the active map: nothing where the map has none, a reload where the slot holds it
good, and Fault-hold otherwise. -/
theorem sectionReload_exec (s : State) (typ inst address : Nat) {m : PisteMap} (hm : s.dev.map.active = some m) :
    exec (.sectionReload typ inst address) s = .next (
      if (m.sect? typ inst).isNone then s
      else if s.sectionGood m typ inst then
        s.onDev (·.modMap fun x => { x with reloads := x.reloads ++ [(typ, inst, address)] })
      else s.onDev (·.faultHold 0x0034)) := by
  change execSectionReload typ inst address s = _
  rw [execSectionReload, hm]

/-- Settles O36: the keys, the swap and the marker by the effect of their command in each case; a bad section by what every part
of the entry to Fault-hold leaves of the device state. -/
theorem mapKeysAndSwap : Obligations.MapKeysAndSwap := by
  refine ⟨fun h => ?_, swapMarkerDone_exec, fun s typ inst address => ⟨fun hm => ?_, fun m hm => ?_⟩⟩
  · exact ⟨mapKeyAdd_answers h, mapKeyRemove_answers h, (mapKeyLock_answers h).1, (mapKeyLock_answers h).2, mapKeyUnlock_answers h,
      mapSwap_answers h, mapCancelSwap_answers h⟩
  · change execSectionReload typ inst address s = _
    rw [execSectionReload, hm]
  · rw [sectionReload_exec s typ inst address hm]
    refine ⟨fun hn => ?_, fun hn hg => ?_, fun hn hg hst => ?_⟩
    · rw [hn]
      rfl
    · rw [if_neg (by simpa using hn), if_pos hg]
      rfl
    · rw [if_neg (by simpa using hn), if_neg (Bool.eq_false_iff.1 hg)]
      exact ⟨_, rfl, Dev.faultHold_state hst⟩

end Sys2Proof.Machine
end

section
/-! Proofs about what a waiting action does when it applies (R54, R432): the pixels or tiles that it names, and that each other one
keeps its value. -/

namespace Sys2Proof.Machine

/-! ### Vectors changed over a range -/

theorem getElem?_modRange {α : Type} {n : Nat} (v : Vector α n) (r : Range) (f : Nat → α → α) (j : Nat) :
    (modRange v r f)[j]? = (v[j]?).map fun a => if r.has j then f j a else a := by
  simp [modRange]

theorem getD_eq {α : Type} {n : Nat} (v : Vector α n) (i : Nat) (x : α) : getD v i x = (v[i]?).getD x := by
  unfold getD
  split <;> simp [*]

theorem getD_modAt_same {α : Type} {n : Nat} (v : Vector α n) {i : Nat} (hi : i < n) (f : α → α) (x : α) :
    getD (modAt v i f) i x = f (getD v i x) := by
  rw [getD_eq, getElem?_modAt, if_pos rfl, getD_eq, Vector.getElem?_eq_getElem hi]
  rfl

theorem getD_modAt_ne {α : Type} {n : Nat} (v : Vector α n) {i k : Nat} (hk : k ≠ i) (f : α → α) (x : α) :
    getD (modAt v i f) k x = getD v k x := by
  rw [getD_eq, getElem?_modAt, if_neg (Ne.symm hk), getD_eq]

theorem getD_modRange {α : Type} {n : Nat} (v : Vector α n) (r : Range) (f : Nat → α → α) {j : Nat} (hj : j < n) (x : α) :
    getD (modRange v r f) j x = if r.has j then f j (getD v j x) else getD v j x := by
  rw [getD_eq, getElem?_modRange, getD_eq, Vector.getElem?_eq_getElem hj]
  rfl

@[simp] theorem Range.has_iff {f l p : Nat} : (⟨f, l⟩ : Range).has p = true ↔ f ≤ p ∧ p ≤ l := by simp [Range.has]

/-- A fold over the numbers of a range, each step of which changes what is seen at its own number alone. -/
theorem foldl_range_seen {σ α : Type} {step : σ → Nat → σ} {seen : σ → Nat → α} {change : α → α}
    (hstep : ∀ s i j, seen (step s i) j = if i = j then change (seen s j) else seen s j) (r : Range) {bound n : Nat}
    (hn : n < bound) (s : σ) :
    seen ((List.range bound).foldl (fun s i => if r.has i then step s i else s) s) n =
      if r.has n then change (seen s n) else seen s n := by
  have hbelow : ∀ b : Nat, seen ((List.range b).foldl (fun s i => if r.has i then step s i else s) s) n =
      if n < b ∧ r.has n then change (seen s n) else seen s n := by
    intro b
    induction b with
    | zero => rfl
    | succ b ih =>
      rw [List.range_succ, List.foldl_append, List.foldl_cons, List.foldl_nil]
      by_cases hb : b = n
      · subst hb
        by_cases hr : r.has b = true <;> simp [hr, hstep, ih]
      · have hlt : n < b + 1 ↔ n < b := by omega
        by_cases hr : r.has b = true <;> simp [hr, hstep, ih, hb, hlt]
  simpa [hn] using hbelow bound

/-! ### Thresholds (R76, R98) -/

theorem PixelFe.setThreshold_fields (x : PixelFe) {step : Nat} (hs : step ≤ 7) (st sg sh : Bool) (t g ht hg : Nat) :
    let y := x.setThreshold (thresholdChange step st sg sh t g ht hg)
    (∀ k, k ≠ step → getD y.thresholds k ⟨0, 0⟩ = getD x.thresholds k ⟨0, 0⟩) ∧
      getD y.thresholds step ⟨0, 0⟩ = ⟨if st then t % 1024 else (getD x.thresholds step ⟨0, 0⟩).timing,
        if sg then g % 1024 else (getD x.thresholds step ⟨0, 0⟩).trigger⟩ ∧
      y.hystTiming = (if sh then ht else x.hystTiming) ∧ y.hystTrigger = (if sh then hg else x.hystTrigger) ∧
      y.gain = x.gain ∧ y.trim = x.trim := by
  refine ⟨fun k hk => getD_modAt_ne _ hk _ _, ?_, ?_, ?_, rfl, rfl⟩
  · refine (getD_modAt_same x.thresholds (Nat.lt_succ_of_le hs) _ _).trans ?_
    cases st <;> cases sg <;> rfl
  · cases sh <;> rfl
  · cases sh <;> rfl

/-- A pixel of the range has its thresholds set; each other one is as before. -/
theorem Dev.setThresholds_pixel (d : Dev) (r : Range) (c : ThresholdChange) {p : Nat} (hp : p < 1024) :
    getD (d.setThresholds r c).fe.pixels p PixelFe.initial =
      if r.has p then (getD d.fe.pixels p PixelFe.initial).setThreshold c else getD d.fe.pixels p PixelFe.initial :=
  getD_modRange _ r _ hp _

/-! ### Trims (R78) -/

theorem Dev.pixelFe_modPixel (d : Dev) (p q : Nat) (f : PixelFe → PixelFe) :
    (d.modPixel p f).pixelFe q = if p = q then (d.pixelFe q).map f else d.pixelFe q := getElem?_modAt ..

theorem Dev.KeepsFe.pixelFe {d e : Dev} (h : d.KeepsFe e) (p : Nat) : e.pixelFe p = d.pixelFe p := by
  rw [Dev.pixelFe, Dev.pixelFe, h.2]

/-- The trim of a pixel. -/
def Dev.trimAt (d : Dev) (p : Nat) : Option Nat := (d.pixelFe p).map (·.trim)

theorem Dev.setTrim_trimAt (d : Dev) (p v q : Nat) :
    (d.setTrim p v).trimAt q = if p = q then (d.trimAt q).map fun _ => v else d.trimAt q := by
  by_cases hq : p = q
  · subst hq
    unfold Dev.setTrim
    split
    · next hp => simp [Dev.trimAt, hp]
    · next x hx =>
      split
      · next hv => simp [Dev.trimAt, hx, hv]
      · simp [Dev.trimAt, Dev.pixelFe_modPixel, (d.loseFalling_keepsFe p).pixelFe, Function.comp_def]
  · rw [if_neg hq]
    unfold Dev.setTrim
    split
    · rfl
    · split
      · rfl
      · simp [Dev.trimAt, Dev.pixelFe_modPixel, (d.loseFalling_keepsFe p).pixelFe, hq]

theorem Dev.setTrims_trimAt (d : Dev) (r : Range) (v : Nat) {p : Nat} (hp : p < 1024) :
    (d.setTrims r v).trimAt p = if r.has p then (d.trimAt p).map fun _ => v else d.trimAt p :=
  foldl_range_seen (fun d i j => Dev.setTrim_trimAt d i v j) r hp d

/-! ### Bias (R77, R78, R497) -/

/-- The target of a tile, and whether its output is held at 0 V. -/
def Dev.biasAt (d : Dev) (n : Nat) : Option (Nat × Bool) := (d.tileFe n).map fun t => (t.target, t.heldOff)

/-- A target that a tile held at 0 V does not take. -/
def askBias (v : Nat) (x : Nat × Bool) : Nat × Bool := if x.2 then x else (v, false)

theorem Dev.KeepsTiles.biasAt {d e : Dev} (h : d.KeepsTiles e) (n : Nat) : e.biasAt n = d.biasAt n := h.map_eq n fun _ => rfl

/-- A change of a tile that acts on its target and its hold alone as `g` does. -/
theorem Dev.biasAt_modTile (d : Dev) (n k : Nat) {f : TileFe → TileFe} {g : Nat × Bool → Nat × Bool}
    (hf : ∀ t, ((f t).target, (f t).heldOff) = g (t.target, t.heldOff)) :
    (d.modTile n f).biasAt k = if n = k then (d.biasAt k).map g else d.biasAt k := by
  rw [Dev.biasAt, Dev.tileFe_modTile]
  split
  · simp [Dev.biasAt, hf, Function.comp_def]
  · rfl

theorem Dev.rampTile_biasAt (d : Dev) (n v k : Nat) :
    (d.rampTile n v).biasAt k = if n = k then (d.biasAt k).map fun x => (v, x.2) else d.biasAt k := by
  unfold Dev.rampTile
  split
  · next hn =>
    split
    · next hk => simp [Dev.biasAt, ← hk, hn]
    · rfl
  · dsimp only
    split
    · exact d.biasAt_modTile n k fun _ => rfl
    · rw [Dev.biasAt_modTile (g := fun x => (v, x.2)) _ n k fun _ => rfl, (d.abortRun_loseTilePulses_keepsTiles n 1).biasAt]

theorem Dev.setBias_biasAt (d : Dev) (n v k : Nat) :
    (d.setBias n v).biasAt k = if n = k then (d.biasAt k).map (askBias v) else d.biasAt k := by
  unfold Dev.setBias
  split
  · next hheld =>
    rw [d.biasAt_modTile n k (g := id) ?_]
    · split
      · next hk =>
        obtain ⟨t, ht, hh⟩ := (Option.any_eq_true _ _).1 hheld
        simp [Dev.biasAt, ← hk, ht, askBias, hh]
      · rfl
    · exact fun _ => rfl
  · next hheld =>
    rw [d.rampTile_biasAt]
    split
    · next hk =>
      cases ht : d.tileFe n with
      | none => simp [Dev.biasAt, ← hk, ht]
      | some t =>
        have hh : t.heldOff = false := by simpa [ht] using hheld
        simp [Dev.biasAt, ← hk, ht, askBias, hh]
    · rfl

theorem Dev.setBiases_biasAt (d : Dev) (r : Range) (v : Nat) {n : Nat} (hn : n < 64) :
    (d.setBiases r v).biasAt n = if r.has n then (d.biasAt n).map (askBias v) else d.biasAt n :=
  foldl_range_seen (fun d i j => Dev.setBias_biasAt d i v j) r hn d

/-! ### Gates (R80, R98) -/

/-- What gates a tile: the command, the pulse and the source. -/
def TileFe.gates (t : TileFe) : Bool × Option Nat × Bool := (t.commandOff, t.pulseEnds, t.sourceOff)

/-- What `FE.GATE` makes of it: on, off, or a pulse that ends no sooner than the one under way (log entry 51). -/
def askGate (now action len : Nat) (x : Bool × Option Nat × Bool) : Bool × Option Nat × Bool :=
  if action = 0 then (false, x.2)
  else if action = 1 then (true, x.2)
  else (x.1, some (max (now + len) (x.2.1.getD 0)), x.2.2)

theorem TileFe.gate_gates (t : TileFe) (now action len : Nat) : (t.gate now action len).gates = askGate now action len t.gates := by
  unfold TileFe.gate askGate
  split
  · rfl
  · split <;> rfl

/-- The tick, and what gates a tile. -/
def Dev.gatesAt (d : Dev) (n : Nat) : Nat × Option (Bool × Option Nat × Bool) := (d.sys.ticks, (d.tileFe n).map TileFe.gates)

theorem Dev.KeepsTiles.gatesAt {d e : Dev} (h : d.KeepsTiles e) (n : Nat) : e.gatesAt n = d.gatesAt n := by
  rw [Dev.gatesAt, Dev.gatesAt, h.1, h.map_eq n (g := TileFe.gates) fun _ => rfl]

theorem Dev.gatesAt_modTile (d : Dev) (n k : Nat) {f : TileFe → TileFe} {g : Bool × Option Nat × Bool → Bool × Option Nat × Bool}
    (hf : ∀ t, (f t).gates = g t.gates) :
    (d.modTile n f).gatesAt k = if n = k then ((d.gatesAt k).1, (d.gatesAt k).2.map g) else d.gatesAt k := by
  rw [Dev.gatesAt, Dev.tileFe_modTile]
  split
  · simp [Dev.gatesAt, hf, Function.comp_def, Dev.modTile]
  · rfl

/-- However the gated flag moves, a change of what gates a tile acts on that alone. -/
theorem Dev.changeGate_gatesAt (d : Dev) (n restore k : Nat) {f : TileFe → TileFe}
    {g : Bool × Option Nat × Bool → Bool × Option Nat × Bool} (hf : ∀ t, (f t).gates = g t.gates) :
    (d.changeGate n restore f).gatesAt k = if n = k then ((d.gatesAt k).1, (d.gatesAt k).2.map g) else d.gatesAt k := by
  unfold Dev.changeGate
  split
  · next hn =>
    split
    · next hk => simp [Dev.gatesAt, ← hk, hn]
    · rfl
  · have hf : ∀ t : TileFe, (f (t.settleDrop d.sys.ticks)).gates = g t.gates := fun t => hf _
    dsimp only
    split
    · rw [Dev.gatesAt_modTile _ n k (g := g) ?_, (d.abortRun_loseTilePulses_keepsTiles n 1).gatesAt]
      exact hf
    · split
      · exact d.gatesAt_modTile n k hf
      · exact d.gatesAt_modTile n k hf

theorem Dev.gateTiles_gatesAt (d : Dev) (r : Range) (action len : Nat) {n : Nat} (hn : n < 64) :
    (d.gateTiles r action len).gatesAt n =
      if r.has n then ((d.gatesAt n).1, (d.gatesAt n).2.map (askGate (d.gatesAt n).1 action len)) else d.gatesAt n :=
  foldl_range_seen (seen := Dev.gatesAt) (change := fun x => (x.1, x.2.map (askGate x.1 action len)))
    (fun d i j => d.changeGate_gatesAt i _ j fun t => t.gate_gates d.sys.ticks action len) r hn d

/-! ### Converter modes (R109) -/

/-- The mode asked for a pixel. -/
def Dev.lowAskedAt (d : Dev) (p : Nat) : Option Bool := (d.wfc[p]?).map (·.lowAsked)

theorem Dev.lowAskedAt_modWfc (d : Dev) (p q : Nat) {f : WfcPixel → WfcPixel} {g : Bool → Bool}
    (hf : ∀ w, (f w).lowAsked = g w.lowAsked) :
    (d.modWfc p f).lowAskedAt q = if p = q then (d.lowAskedAt q).map g else d.lowAskedAt q := by
  rw [Dev.lowAskedAt, Dev.modWfc_wfc, getElem?_modAt]
  split
  · simp [Dev.lowAskedAt, hf, Function.comp_def]
  · rfl

/-- A fresh assignment of the slices does not change what mode is asked for. -/
theorem Dev.applyMode_lowAskedAt (d : Dev) (p q : Nat) : (d.applyMode p).lowAskedAt q = d.lowAskedAt q := by
  have hid (f : WfcPixel → WfcPixel) (hf : ∀ w, (f w).lowAsked = w.lowAsked) : (d.modWfc p f).lowAskedAt q = d.lowAskedAt q := by
    simp [d.lowAskedAt_modWfc p q (g := id) hf]
  unfold Dev.applyMode
  split
  · rfl
  · split
    · rfl
    · split
      · exact hid _ fun _ => rfl
      · exact hid _ fun _ => rfl

theorem Dev.setConverterMode_lowAskedAt (d : Dev) (r : Range) (mode : Nat) {p : Nat} (hp : p < 1024) :
    (d.setConverterMode r mode).lowAskedAt p = if r.has p then (d.lowAskedAt p).map fun _ => mode == 1 else d.lowAskedAt p :=
  foldl_range_seen (seen := Dev.lowAskedAt) (fun d i j => (Dev.applyMode_lowAskedAt _ i j).trans
    (d.lowAskedAt_modWfc i j (g := fun _ => mode == 1) fun _ => rfl)) r hp d

/-! ### Compression parameters (R265) -/

/-- A new table comes into force behind the one that was, with the parameters of the range in it. -/
theorem Dev.setParams_tables (d : Dev) (r : Range) (f : Nat → CmpParams) {t : CmpTable} {ts : List CmpTable}
    (ht : d.cmp.tables = t :: ts) :
    ∃ rest, (d.setParams r f).cmp.tables = ⟨t.number + 1, t.mapLow, true, modRange t.pixels r fun p _ => f p⟩ :: rest := by
  rw [Dev.setParams, ht]
  exact ⟨_, by simp [Dev.newTable, Dev.modCmp, ht]; rfl⟩

/-! ### The obligation -/

section Effects
variable (h : CmdHeader) (d : Dev) (f l : Nat)

theorem feSetThreshold_applies {step p : Nat} (st sg sh : Bool) (t g ht hg : Nat) (hs : step ≤ 7) (hp : p < 1024) :
    let e := applyDeferred (.feSetThreshold h f l step st sg sh t g ht hg) d
    let old := getD d.fe.pixels p PixelFe.initial
    let new := getD e.fe.pixels p PixelFe.initial
    (¬ (f ≤ p ∧ p ≤ l) → new = old) ∧
    (f ≤ p ∧ p ≤ l → (∀ k, k ≠ step → getD new.thresholds k ⟨0, 0⟩ = getD old.thresholds k ⟨0, 0⟩) ∧
      getD new.thresholds step ⟨0, 0⟩ = ⟨if st then t % 1024 else (getD old.thresholds step ⟨0, 0⟩).timing,
        if sg then g % 1024 else (getD old.thresholds step ⟨0, 0⟩).trigger⟩ ∧
      new.hystTiming = (if sh then ht else old.hystTiming) ∧ new.hystTrigger = (if sh then hg else old.hystTrigger) ∧
      new.gain = old.gain ∧ new.trim = old.trim) ∧
    e.cmd = d.cmd ∧ e.sys = d.sys ∧ e.fe.tiles = d.fe.tiles := by
  intro e old new
  have hnew : new = if (⟨f, l⟩ : Range).has p then old.setThreshold (thresholdChange step st sg sh t g ht hg) else old :=
    d.setThresholds_pixel ⟨f, l⟩ _ hp
  refine ⟨fun hout => ?_, fun hin => ?_, rfl, rfl, rfl⟩
  · rw [hnew, if_neg (mt Range.has_iff.1 hout)]
  · rw [hnew, if_pos (Range.has_iff.2 hin)]
    exact old.setThreshold_fields hs st sg sh t g ht hg

theorem tdcSetOffset_applies (v p : Nat) :
    let e := applyDeferred (.tdcSetOffset h f l v) d
    ((e.tdcPixel p).map (·.tOffset) = (d.tdcPixel p).map (fun t => if f ≤ p ∧ p ≤ l then ofTwos 16 v else t.tOffset)) ∧
    e.fe = d.fe ∧ e.cmd = d.cmd := by
  refine ⟨?_, rfl, rfl⟩
  change ((modRange d.tdc ⟨f, l⟩ fun _ t => { t with tOffset := ofTwos 16 v })[p]?).map (·.tOffset) = _
  rw [getElem?_modRange, Option.map_map]
  refine congrArg (Option.map · d.tdc[p]?) (funext fun t => ?_)
  by_cases hin : f ≤ p ∧ p ≤ l <;> simp [hin]

theorem acqSetAverage_applies (avg : Nat) {p : Nat} (hp : p < 1024) :
    let e := applyDeferred (.acqSetAverage h f l avg) d
    getD e.acq.avg p 0 = (if f ≤ p ∧ p ≤ l then avg else getD d.acq.avg p 0) ∧ e.acq.tag = d.acq.tag := by
  refine ⟨?_, rfl⟩
  exact (getD_modRange d.acq.avg ⟨f, l⟩ (fun _ _ => avg) hp 0).trans (by simp only [Range.has_iff])

theorem acqTagControl_applies (value : Nat) {p : Nat} (hp : p < 1024) :
    (applyDeferred (.acqTagControl h f l 0 value) d) = { d with acq := { d.acq with tagEnable := value == 1 } } ∧
    getD (applyDeferred (.acqTagControl h f l 1 value) d).acq.tag p false =
      (if f ≤ p ∧ p ≤ l then value == 1 else getD d.acq.tag p false) := by
  refine ⟨rfl, ?_⟩
  exact (getD_modRange d.acq.tag ⟨f, l⟩ (fun _ _ => value == 1) hp false).trans (by simp only [Range.has_iff])

theorem feSetTrim_applies (v : Nat) {p : Nat} (hp : p < 1024) :
    ((applyDeferred (.feSetTrim h f l v) d).pixelFe p).map (·.trim) =
      (d.pixelFe p).map (fun x => if f ≤ p ∧ p ≤ l then v else x.trim) := by
  refine (d.setTrims_trimAt ⟨f, l⟩ v hp).trans ?_
  by_cases hin : f ≤ p ∧ p ≤ l <;> simp [hin, Dev.trimAt, Function.comp_def]

theorem feSetBias_applies (v : Nat) {n : Nat} (hn : n < 64) :
    ((applyDeferred (.feSetBias h f l v) d).tileFe n).map (·.target) =
      (d.tileFe n).map (fun x => if f ≤ n ∧ n ≤ l ∧ x.heldOff = false then v else x.target) := by
  have hb := congrArg (Option.map Prod.fst) (d.setBiases_biasAt ⟨f, l⟩ v hn)
  simp only [Dev.biasAt, Option.map_map, apply_ite (Option.map Prod.fst)] at hb
  refine Eq.trans hb ?_
  cases d.tileFe n with
  | none => simp
  | some t => by_cases hin : f ≤ n ∧ n ≤ l <;> cases hh : t.heldOff <;> simp [hin, hh, askBias, ← and_assoc]

theorem feGate_applies (action len : Nat) {n : Nat} (hn : n < 64) :
    let old := getD d.fe.tiles n TileFe.initial
    let new := getD (applyDeferred (.feGate h f l action len) d).fe.tiles n TileFe.initial
    let named := f ≤ n ∧ n ≤ l
    new.commandOff = (if named ∧ action = 0 then false else if named ∧ action = 1 then true else old.commandOff) ∧
    new.pulseEnds = (if named ∧ 2 ≤ action then some (max (d.sys.ticks + len) (old.pulseEnds.getD 0)) else old.pulseEnds) ∧
    new.sourceOff = old.sourceOff := by
  intro old new named
  have htile (x : Dev) : x.tileFe n = some (getD x.fe.tiles n TileFe.initial) := by
    rw [getD_eq, Dev.tileFe, Vector.getElem?_eq_getElem hn]
    rfl
  have hg : new.gates = if named then askGate d.sys.ticks action len old.gates else old.gates := by
    have hseen := congrArg Prod.snd (d.gateTiles_gatesAt ⟨f, l⟩ action len hn)
    simp only [Dev.gatesAt, htile, Option.map_some, Range.has_iff, apply_ite Prod.snd, ← apply_ite some, Option.some.injEq]
      at hseen
    exact hseen
  change new.gates.1 = _ ∧ new.gates.2.1 = _ ∧ new.gates.2.2 = _
  rw [hg]
  by_cases hin : named
  · match action with
    | 0 => simp [hin, askGate, TileFe.gates]
    | 1 => simp [hin, askGate, TileFe.gates]
    | a + 2 => simp [hin, askGate, TileFe.gates]
  · simp [hin, TileFe.gates]

theorem wfcSetMode_applies (mode : Nat) {p : Nat} (hp : p < 1024) :
    ((applyDeferred (.wfcSetMode h f l mode) d).wfc[p]?).map (·.lowAsked) =
      (d.wfc[p]?).map (fun x => if f ≤ p ∧ p ≤ l then mode == 1 else x.lowAsked) := by
  refine (d.setConverterMode_lowAskedAt ⟨f, l⟩ mode hp).trans ?_
  by_cases hin : f ≤ p ∧ p ≤ l <;> simp [hin, Dev.lowAskedAt, Function.comp_def]

theorem cmpSetParams_applies (distance a b c : Nat) (enable : Bool) (k : List Nat) {t : CmpTable} {ts : List CmpTable}
    (ht : d.cmp.tables = t :: ts) (x : CmpParams) :
    let e := applyDeferred (.cmpSetParams h f l distance a b c enable k) d
    ∃ new rest, e.cmp.tables = new :: rest ∧ new.number = t.number + 1 ∧ new.overridden = true ∧ new.mapLow = t.mapLow ∧
      ∀ p < 1024, getD new.pixels p x = (if f ≤ p ∧ p ≤ l then commandParams distance a b c enable k p else getD t.pixels p x) := by
  obtain ⟨rest, hrest⟩ := d.setParams_tables ⟨f, l⟩ (commandParams distance a b c enable k) ht
  refine ⟨_, rest, hrest, rfl, rfl, rfl, fun p hp => ?_⟩
  simpa only [Range.has_iff] using getD_modRange t.pixels ⟨f, l⟩ (fun p _ => commandParams distance a b c enable k p) hp x

end Effects

/-- Settles O38: a range is a vector changed in place, or a fold each step of which changes its own pixel or tile alone. -/
theorem boundaryEffects : Obligations.BoundaryEffects := by
  intro h d f l _ _
  exact ⟨fun step st sg sh t g ht hg p hs hp => feSetThreshold_applies h d f l st sg sh t g ht hg hs hp,
    fun v p _ => tdcSetOffset_applies h d f l v p, fun avg p hp => acqSetAverage_applies h d f l avg hp,
    fun value p hp => acqTagControl_applies h d f l value hp, fun _ _ => rfl, fun v p hp => feSetTrim_applies h d f l v hp,
    fun v n _ hn => feSetBias_applies h d f l v hn, fun action len n _ hn => feGate_applies h d f l action len hn,
    fun mode p hp => wfcSetMode_applies h d f l mode hp,
    fun distance a b c enable k t ts ht => cmpSetParams_applies h d f l distance a b c enable k ht _⟩

end Sys2Proof.Machine
end

section
/-! Proofs about what a pulse that is lost can change: interpolators, acquisition, the integrity counts, the time of a drain and the
queues that events and records join; and what an aborted calibration run can change. -/

namespace Sys2Proof.Machine

/-! ### A lost pulse -/

/-- A state with what hit and tag words change left out of account: the interpolators, acquisition, the integrity counts, the power
sequence and the queues. -/
def Dev.besideHits (d : Dev) : Dev :=
  { d.rest with
    tdc := fill 1024 (TdcPixel.initial 0), acq := AcqState.initial, integ := IntegState.initial, pwr := PwrState.initial }

/-- Nothing differs but what hit and tag words change. -/
def Dev.HitsOnly (d e : Dev) : Prop := e.besideHits = d.besideHits

theorem Dev.HitsOnly.trans {a b c : Dev} (h : a.HitsOnly b) (k : b.HitsOnly c) : a.HitsOnly c := Eq.trans k h

theorem Dev.QueuesOnly.hitsOnly {d e : Dev} (h : d.QueuesOnly e) : d.HitsOnly e :=
  (congrArg Dev.besideHits (show e.rest = d.rest from h) :)

theorem Dev.HitsOnly.map {d e : Dev} (h : d.HitsOnly e) : e.map = d.map :=
  (congrArg Dev.map (show e.besideHits = d.besideHits from h) :)

theorem Dev.HitsOnly.slalom {d e : Dev} (h : d.HitsOnly e) : e.slalom = d.slalom :=
  (congrArg Dev.slalom (show e.besideHits = d.besideHits from h) :)

theorem Dev.modTdc_hitsOnly (d : Dev) (p : Nat) (f : TdcPixel → TdcPixel) : d.HitsOnly (d.modTdc p f) := rfl

theorem Dev.drainTest_hitsOnly (d : Dev) : d.HitsOnly d.drainTest := by
  unfold Dev.drainTest
  split
  · rfl
  · split <;> rfl

theorem Dev.modAcqCounters_hitsOnly (d : Dev) (f : AcqCounters → AcqCounters) : d.HitsOnly (d.modAcqCounters f) := by
  unfold Dev.modAcqCounters
  split <;> rfl

theorem Dev.writeWord_hitsOnly (d : Dev) (crossing tile : Nat) (upset : Bool) :
    d.HitsOnly (d.writeWord crossing tile upset).1 := by
  change d.HitsOnly (d.takeCrossingInject crossing tile).1
  unfold Dev.takeCrossingInject
  split <;> rfl

theorem Dev.dropTag_hitsOnly (d : Dev) (p : Nat) (f : TagFrame) : d.HitsOnly (d.dropTag p f) := by
  unfold Dev.dropTag
  extract_lets n d₁ d₂ d₃
  have h : d.HitsOnly d₂ := rfl
  exact (h.trans (d₂.modAcqCounters_hitsOnly _)).trans (d₃.raiseLimited_only ..).hitsOnly

theorem Dev.closeTag_hitsOnly (d : Dev) (p : Nat) (rise : Int) (tot : Nat) (noFalling parity : Bool) :
    d.HitsOnly (d.closeTag p rise tot noFalling parity) := by
  unfold Dev.closeTag
  extract_lets tile
  split
  · split <;> rfl
  · split
    · exact d.dropTag_hitsOnly ..
    · exact ((d.writeWord_hitsOnly 3 tile (!parity)).trans rfl).trans (Dev.drainTest_hitsOnly _)

theorem Dev.enterHit_hitsOnly (d : Dev) (h : Hit) (parity : Bool) : d.HitsOnly (d.enterHit h parity) := by
  unfold Dev.enterHit
  extract_lets tile isOver d₁ d₂
  split
  · exact ((d.writeWord_hitsOnly 1 tile (!parity)).trans rfl).trans (Dev.drainTest_hitsOnly _)
  · have h : d.HitsOnly d₂ := (d.modTdc_hitsOnly ..).trans (d₁.modAcqCounters_hitsOnly _)
    exact h.trans (d₂.raiseLimited_only ..).hitsOnly

theorem Dev.completePulse_hitsOnly (d : Dev) (p : Nat) (q : Pulse) (fall : Option Int) (parity : Bool) :
    d.HitsOnly (d.completePulse p q fall parity) := by
  unfold Dev.completePulse
  extract_lets d₁ long width hit d₂
  have h : d.HitsOnly d₂ := (d.modTdc_hitsOnly ..).trans (d₁.enterHit_hitsOnly hit parity)
  split
  · exact h
  · exact h.trans (d₂.closeTag_hitsOnly ..)

theorem Dev.loseFalling_hitsOnly (d : Dev) (p : Nat) : d.HitsOnly (d.loseFalling p) := by
  unfold Dev.loseFalling
  split
  · rfl
  · split
    · rfl
    · exact d.completePulse_hitsOnly ..

theorem Dev.loseTilePulses_hitsOnly (d : Dev) (n : Nat) : d.HitsOnly (d.loseTilePulses n) := by
  unfold Dev.loseTilePulses
  generalize List.range 16 = l
  induction l generalizing d with
  | nil => rfl
  | cons i l ih => exact (d.loseFalling_hitsOnly _).trans (ih _)

/-! ### An aborted calibration run -/

/-- An abort does nothing, or changes its own tile alone, and then what its record and its event change. -/
theorem Dev.abortRun_cases (d : Dev) (n cause : Nat) :
    d.abortRun n cause = d ∨ ∃ f g, ((d.modCalTile n f).modTile n g).QueuesOnly (d.abortRun n cause) := by
  unfold Dev.abortRun
  split
  · exact .inl rfl
  · split
    · exact .inl rfl
    · exact .inr ⟨_, _, (Dev.sendUp_only ..).trans (Dev.raise_only ..)⟩

theorem Dev.abortRun_map (d : Dev) (n cause : Nat) : (d.abortRun n cause).map = d.map := by
  obtain h | ⟨f, g, h⟩ := d.abortRun_cases n cause
  · rw [h]
  · exact h.map

theorem Dev.abortRun_slalom (d : Dev) (n cause : Nat) : (d.abortRun n cause).slalom = d.slalom := by
  obtain h | ⟨f, g, h⟩ := d.abortRun_cases n cause
  · rw [h]
  · exact h.slalom

theorem Dev.abortRun_tileFe_ne (d : Dev) {n k : Nat} (hk : k ≠ n) (cause : Nat) : (d.abortRun n cause).tileFe k = d.tileFe k := by
  obtain h | ⟨f, g, h⟩ := d.abortRun_cases n cause
  · rw [h]
  · rw [Dev.tileFe, h.fe]
    exact (Dev.tileFe_modTile ..).trans (if_neg (Ne.symm hk))

end Sys2Proof.Machine
end

section
/-! Proofs about gain changes, clamp conduction and the end of a range transition (R64, R85 to R88): what a change asked for does
to one pixel, that a range of pixels takes it pixel by pixel, and which entries of the schedule a look at it takes. -/

namespace Sys2Proof.Machine

/-! ### One pixel of the front end -/

theorem getElem?_eq_getD {α : Type} {n : Nat} (v : Vector α n) {i : Nat} (hi : i < n) (x : α) : v[i]? = some (getD v i x) := by
  rw [getD_eq, Vector.getElem?_eq_getElem hi]
  rfl

theorem Dev.pixelFe_eq (d : Dev) {p : Nat} (hp : p < 1024) : d.pixelFe p = some (getD d.fe.pixels p PixelFe.initial) :=
  getElem?_eq_getD _ hp _

/-- A row that leaves the device as it was leaves the state. -/
theorem next_onDev_self {s : State} {f : Dev → Dev} (hf : f s.dev = s.dev) :
    (.next (s.onDev f) : Host.Outcome State Fault Refusal) = .next s := by
  rw [State.onDev, hf]

section Pixel
variable {d : Dev} {p : Nat} {x : PixelFe} (hx : d.pixelFe p = some x)
include hx

theorem Dev.inTransition_eq : d.inTransition p = inSpans x.rangeSpans d.sys.ticks := by rw [Dev.inTransition, hx]

theorem Dev.inOpenSegment_eq : d.inOpenSegment p = x.openSegs.any (d.sys.ticks ≤ ·) := by rw [Dev.inOpenSegment, hx]

end Pixel

/-! ### A gain change asked for (R87, R88) -/

/-- A change to another gain waits for the end of a range transition or, unless it is immediate, of the open segments. -/
def PixelFe.holdsGain (x : PixelFe) (now g : Nat) (immediate : Bool) : Bool :=
  decide (x.gain ≠ g) && (inSpans x.rangeSpans now || !immediate && x.openSegs.any (now ≤ ·))

/-- The pixel with a gain step in force from a sample boundary on. -/
def PixelFe.takeGain (x : PixelFe) (now g : Nat) : PixelFe :=
  { x with
    gain := g, waiting := none, history := recentGains now ((now, g) :: x.history), rangeSpans := addSpan now 6 x.rangeSpans }

/-- The pixel once a gain change has been asked for. -/
def PixelFe.askGain (x : PixelFe) (now g : Nat) (immediate boundary : Bool) : PixelFe :=
  if x.gain = g then { x with waiting := none }
  else if x.holdsGain now g immediate = false ∧ boundary = true then x.takeGain now g
  else { x with waiting := some ⟨g, now, immediate⟩ }

/-- What of the state a gain change of a pixel looks at. -/
structure GainView where
  now : Nat
  boundary : Bool
  pixel : Option PixelFe

/-- The view of a pixel. -/
def Dev.gainView (d : Dev) (p : Nat) : GainView := ⟨d.sys.ticks, d.sampleBoundary p, d.pixelFe p⟩

/-- The view once a gain change has been asked for. -/
def GainView.ask (v : GainView) (g : Nat) (immediate : Bool) : GainView :=
  { v with pixel := v.pixel.map (·.askGain v.now g immediate v.boundary) }

/-- The change asked for waits for more than the next boundary. -/
def GainView.holds (v : GainView) (g : Nat) (immediate : Bool) : Bool := v.pixel.any (·.holdsGain v.now g immediate)

theorem Dev.applyGain_pixels (d : Dev) (p g : Nat) :
    (d.applyGain p g).fe.pixels = modAt d.fe.pixels p (·.takeGain d.sys.ticks g) := rfl

theorem Dev.applyGain_sampleBoundary (d : Dev) (p g q : Nat) : (d.applyGain p g).sampleBoundary q = d.sampleBoundary q := by
  have hlow : ((d.applyGain p g).wfc[q]?).any (·.lowPower) = (d.wfc[q]?).any (·.lowPower) := by
    change ((modAt d.wfc p fun w => { w with gainChanged := true })[q]?).any (·.lowPower) = _
    rw [getElem?_modAt]
    split
    · exact Option.any_map
    · rfl
  rw [Dev.sampleBoundary, hlow]
  rfl

theorem Dev.gainView_modPixel (d : Dev) (p q : Nat) (f : PixelFe → PixelFe) :
    (d.modPixel p f).gainView q = if p = q then { d.gainView q with pixel := (d.gainView q).pixel.map f } else d.gainView q := by
  rw [Dev.gainView, Dev.pixelFe_modPixel]
  split <;> rfl

theorem Dev.gainView_applyGain (d : Dev) (p g q : Nat) :
    (d.applyGain p g).gainView q =
      if p = q then { d.gainView q with pixel := (d.gainView q).pixel.map (·.takeGain d.sys.ticks g) } else d.gainView q := by
  rw [← d.gainView_modPixel, Dev.gainView, d.applyGain_sampleBoundary]
  rfl

theorem Dev.requestGain_eq {d : Dev} {p : Nat} {x : PixelFe} (hx : d.pixelFe p = some x) (g : Nat) (immediate : Bool) :
    let waits := d.modPixel p fun f => { f with waiting := some ⟨g, d.sys.ticks, immediate⟩ }
    d.requestGain p g immediate =
      if x.gain = g then (d.modPixel p fun f => { f with waiting := none }, false)
      else if x.holdsGain d.sys.ticks g immediate then (waits, true)
      else if d.sampleBoundary p then (d.applyGain p g, false)
      else (waits, false) := by
  by_cases hg : x.gain = g
  · simp [Dev.requestGain, hx, hg]
  · simp [Dev.requestGain, hx, hg, Dev.inTransition_eq hx, Dev.inOpenSegment_eq hx, PixelFe.holdsGain]

theorem Dev.requestGain_holds (d : Dev) (p g : Nat) (immediate : Bool) :
    (d.requestGain p g immediate).2 = (d.gainView p).holds g immediate := by
  cases hx : d.pixelFe p with
  | none => simp [Dev.requestGain, Dev.gainView, GainView.holds, hx]
  | some x =>
    have hv : (d.gainView p).holds g immediate = x.holdsGain d.sys.ticks g immediate := by
      simp [Dev.gainView, GainView.holds, hx]
    rw [Dev.requestGain_eq hx, hv]
    split
    · next hg => simp [PixelFe.holdsGain, hg]
    · split
      · next hh => exact hh.symm
      · next hh => split <;> simpa using hh

theorem Dev.requestGain_gainView (d : Dev) (p g : Nat) (immediate : Bool) (q : Nat) :
    (d.requestGain p g immediate).1.gainView q = if p = q then (d.gainView q).ask g immediate else d.gainView q := by
  cases hx : d.pixelFe p with
  | none =>
    split
    · next hq => simp [Dev.requestGain, hx, ← hq, Dev.gainView, GainView.ask]
    · simp [Dev.requestGain, hx]
  | some x =>
    have of_change (e : Dev) (f : PixelFe → PixelFe)
        (he : e.gainView q = if p = q then { d.gainView q with pixel := (d.gainView q).pixel.map f } else d.gainView q)
        (hf : f x = x.askGain d.sys.ticks g immediate (d.sampleBoundary p)) :
        e.gainView q = if p = q then (d.gainView q).ask g immediate else d.gainView q := by
      rw [he]
      split
      · next hq =>
        subst hq
        simp [Dev.gainView, GainView.ask, hx, hf]
      · rfl
    rw [Dev.requestGain_eq hx]
    split
    · next hg => exact of_change _ _ (d.gainView_modPixel ..) (by simp [PixelFe.askGain, hg])
    · next hg =>
      split
      · next hh => exact of_change _ _ (d.gainView_modPixel ..) (by simp [PixelFe.askGain, hg, hh])
      · next hh =>
        split
        · next hb => exact of_change _ _ (d.gainView_applyGain ..) (by simp [PixelFe.askGain, hg, hh, hb])
        · next hb => exact of_change _ _ (d.gainView_modPixel ..) (by simp [PixelFe.askGain, hg, hb])

/-! ### A gain change for a range of pixels (R449) -/

/-- A fold over the numbers of a range that also notes whether a step asks to wait, where each step changes what is seen at its
own number alone. -/
theorem foldl_range_noted {σ α : Type} {step : σ → Nat → σ × Bool} {seen : σ → Nat → α} {change : α → α} {asks : α → Bool}
    (hstep : ∀ s i j, seen (step s i).1 j = if i = j then change (seen s j) else seen s j)
    (hasks : ∀ s i, (step s i).2 = asks (seen s i)) (r : Range) (s : σ) (bound : Nat) :
    let e := (List.range bound).foldl (fun (x : σ × Bool) i =>
      if r.has i then ((step x.1 i).1, x.2 || (step x.1 i).2) else x) (s, false)
    (∀ n, seen e.1 n = if n < bound ∧ r.has n then change (seen s n) else seen s n) ∧
      (e.2 = true ↔ ∃ n < bound, r.has n ∧ asks (seen s n) = true) := by
  induction bound with
  | zero => simp
  | succ b ih =>
    obtain ⟨hseen, hnoted⟩ := ih
    dsimp only at hseen hnoted ⊢
    rw [List.range_succ, List.foldl_append, List.foldl_cons, List.foldl_nil]
    generalize (List.range b).foldl _ (s, false) = e at hseen hnoted ⊢
    have hb : seen e.1 b = seen s b := by simp [hseen]
    have hlt (n : Nat) (hn : b ≠ n) : n < b + 1 ↔ n < b := by omega
    by_cases hr : r.has b = true
    · rw [if_pos hr]
      refine ⟨fun n => ?_, ?_⟩
      · rw [hstep]
        by_cases hn : b = n
        · subst hn
          simp [hb, hr]
        · simp only [if_neg hn, hseen, hlt n hn]
      · rw [Nat.exists_lt_succ_right]
        simp [hasks, hb, hnoted, hr]
    · rw [if_neg hr]
      refine ⟨fun n => ?_, ?_⟩
      · by_cases hn : b = n
        · subst hn
          simp [hb, hr]
        · simp only [hseen, hlt n hn]
      · rw [Nat.exists_lt_succ_right]
        simp [hnoted, hr]

theorem Dev.requestGains_spec (d : Dev) (r : Range) (g : Nat) (immediate : Bool) :
    (∀ p < 1024, (d.requestGains r g immediate).1.gainView p =
        if r.has p then (d.gainView p).ask g immediate else d.gainView p) ∧
      ((d.requestGains r g immediate).2 = true ↔ ∃ p < 1024, r.has p ∧ (d.gainView p).holds g immediate = true) := by
  obtain ⟨hseen, hnoted⟩ := foldl_range_noted (seen := Dev.gainView) (change := (·.ask g immediate))
    (asks := (·.holds g immediate)) (fun d i j => d.requestGain_gainView i g immediate j)
    (fun d i => d.requestGain_holds i g immediate) r d 1024
  exact ⟨fun p hp => (hseen p).trans (by simp only [hp, true_and]), hnoted⟩

/-- What a range of pixels becomes once a gain change has been asked for. -/
theorem Dev.requestGains_pixel (d : Dev) (r : Range) (g : Nat) (immediate : Bool) {p : Nat} (hp : p < 1024) :
    let x := getD d.fe.pixels p PixelFe.initial
    getD (d.requestGains r g immediate).1.fe.pixels p PixelFe.initial =
      if r.has p then x.askGain d.sys.ticks g immediate (d.sampleBoundary p) else x := by
  have hpix := congrArg GainView.pixel ((d.requestGains_spec r g immediate).1 p hp)
  simp only [apply_ite GainView.pixel, Dev.gainView, GainView.ask, Dev.pixelFe_eq _ hp, Option.map_some, ← apply_ite some,
    Option.some.injEq] at hpix
  exact hpix

theorem PixelFe.askGain_held {x : PixelFe} {now g : Nat} {immediate : Bool} (hh : x.holdsGain now g immediate = true)
    (boundary : Bool) : x.askGain now g immediate boundary = { x with waiting := some ⟨g, now, immediate⟩ } := by
  have hg : x.gain ≠ g := by simpa using (Bool.and_eq_true_iff.1 hh).1
  simp [PixelFe.askGain, hg, hh]

theorem PixelFe.askGain_now {x : PixelFe} {now g : Nat} {immediate boundary : Bool} (hh : x.holdsGain now g immediate = false)
    (hb : x.gain = g ∨ boundary = true) :
    (x.askGain now g immediate boundary).gain = g ∧ (x.askGain now g immediate boundary).waiting = none := by
  by_cases hg : x.gain = g
  · simp [PixelFe.askGain, hg]
  · simp [PixelFe.askGain, hg, hh, hb.resolve_left hg, PixelFe.takeGain]

theorem PixelFe.askGain_betweenSamples {x : PixelFe} {g : Nat} (hg : x.gain ≠ g) (now : Nat) (immediate : Bool) :
    x.askGain now g immediate false = { x with waiting := some ⟨g, now, immediate⟩ } := by
  simp [PixelFe.askGain, hg]

/-- A change to gain step `g` asked for a pixel waits for more than the next boundary (R87, R88, log entry 50). -/
def Dev.gainWaits (d : Dev) (g : Nat) (imm : Bool) (p : Nat) : Prop :=
  (getD d.fe.pixels p PixelFe.initial).gain ≠ g ∧ (d.inTransition p = true ∨ (imm = false ∧ d.inOpenSegment p = true))

theorem Dev.gainWaits_iff (d : Dev) (g : Nat) (imm : Bool) {p : Nat} (hp : p < 1024) :
    (getD d.fe.pixels p PixelFe.initial).holdsGain d.sys.ticks g imm = true ↔ d.gainWaits g imm p := by
  have hx := d.pixelFe_eq hp
  simp [PixelFe.holdsGain, Dev.gainWaits, Dev.inTransition_eq hx, Dev.inOpenSegment_eq hx]

theorem Dev.requestGains_waits (d : Dev) {f l : Nat} (hl : l ≤ 1023) (g : Nat) (imm : Bool) :
    (d.requestGains ⟨f, l⟩ g imm).2 = true ↔ ∃ p, f ≤ p ∧ p ≤ l ∧ d.gainWaits g imm p := by
  have hview {p : Nat} (hp : p < 1024) : (d.gainView p).holds g imm = true ↔ d.gainWaits g imm p := by
    rw [← d.gainWaits_iff g imm hp, Dev.gainView, d.pixelFe_eq hp]
    rfl
  rw [(d.requestGains_spec ⟨f, l⟩ g imm).2]
  constructor
  · rintro ⟨p, hp, hr, hh⟩
    obtain ⟨hf, hpl⟩ := Range.has_iff.1 hr
    exact ⟨p, hf, hpl, (hview hp).1 hh⟩
  · rintro ⟨p, hf, hpl, hw⟩
    have hp : p < 1024 := by omega
    exact ⟨p, hp, Range.has_iff.2 ⟨hf, hpl⟩, (hview hp).2 hw⟩

/-- The four outcomes for a pixel: outside the range, waiting, changed at once, and changing at the next boundary. -/
theorem Dev.requestGains_outcome (d : Dev) (f l g : Nat) (imm : Bool) {p : Nat} (hp : p < 1024) :
    let old := getD d.fe.pixels p PixelFe.initial
    let new := getD (d.requestGains ⟨f, l⟩ g imm).1.fe.pixels p PixelFe.initial
    (¬ (f ≤ p ∧ p ≤ l) → new.gain = old.gain ∧ new.waiting = old.waiting) ∧
    (f ≤ p → p ≤ l → d.gainWaits g imm p → new.gain = old.gain ∧ new.waiting = some ⟨g, d.sys.ticks, imm⟩) ∧
    (f ≤ p → p ≤ l → ¬ d.gainWaits g imm p → old.gain = g ∨ d.sampleBoundary p = true → new.gain = g ∧ new.waiting = none) ∧
    (f ≤ p → p ≤ l → ¬ d.gainWaits g imm p → old.gain ≠ g → d.sampleBoundary p = false →
      new.gain = old.gain ∧ new.waiting = some ⟨g, d.sys.ticks, imm⟩) := by
  dsimp only
  rw [d.requestGains_pixel ⟨f, l⟩ g imm hp, ← d.gainWaits_iff g imm hp]
  generalize getD d.fe.pixels p PixelFe.initial = x
  by_cases hin : f ≤ p ∧ p ≤ l
  · rw [if_pos (Range.has_iff.2 hin)]
    refine ⟨fun hout => absurd hin hout, fun _ _ hw => ?_, fun _ _ hn hb => ?_, fun _ _ _ hg hb => ?_⟩
    · rw [PixelFe.askGain_held hw]
      exact ⟨rfl, rfl⟩
    · exact PixelFe.askGain_now (Bool.eq_false_iff.2 hn) hb
    · rw [hb, PixelFe.askGain_betweenSamples hg]
      exact ⟨rfl, rfl⟩
  · rw [if_neg (mt Range.has_iff.1 hin)]
    exact ⟨fun _ => ⟨rfl, rfl⟩, fun hf hl => absurd ⟨hf, hl⟩ hin, fun hf hl => absurd ⟨hf, hl⟩ hin, fun hf hl => absurd ⟨hf, hl⟩ hin⟩

theorem feSetGain_refuses (h : CmdHeader) {f l g : Nat} (imm : Bool) (hno : ¬ (f ≤ l ∧ l ≤ 1023 ∧ g ≤ 7)) :
    Answers (.feSetGain h f l g imm) h 0x0201 [.ready, .running] always .outOfRange (fun _ => []) unchanged := by
  refine .of (k := feSetGainKind) rfl rfl fun s _ => onDev_unchanged (if_neg ?_)
  simpa [pixelRange_iff, and_assoc] using hno

section Taken
variable (s : State) (h : CmdHeader) (op : Nat)

@[simp] theorem State.taken_fe : (s.taken h op).dev.fe = s.dev.fe := rfl
@[simp] theorem State.taken_sampleBoundary (p : Nat) : (s.taken h op).dev.sampleBoundary p = s.dev.sampleBoundary p := rfl
@[simp] theorem State.taken_gainWaits (g : Nat) (imm : Bool) (p : Nat) :
    (s.taken h op).dev.gainWaits g imm p = s.dev.gainWaits g imm p := rfl

end Taken

/-- A gain change is legal, and answers REFUSED_BOUNDARY where it waits on some pixel. -/
theorem feSetGain_exec (h : CmdHeader) {f l g : Nat} (imm : Bool) (hfl : f ≤ l) (hl : l ≤ 1023) (hg : g ≤ 7) {s : State}
    (hs : s.dev.carries h [.ready, .running] = true) :
    let t := (s.taken h 0x0201).onDev fun d => (d.requestGains ⟨f, l⟩ g imm).1
    let waits := ((s.taken h 0x0201).dev.requestGains ⟨f, l⟩ g imm).2
    exec (.feSetGain h f l g imm) s = .next (t.replied h 0x0201 s.dev.now (if waits then .refusedBoundary else .ok) []) := by
  have hok : (pixelRange f l && decide (g ≤ 7)) = true := by simp [pixelRange_iff, hfl, hl, hg]
  have heff (c : Ctx) (s : State) : feSetGainEff f l g imm c s =
      (s.onDev fun d => (d.requestGains ⟨f, l⟩ g imm).1,
        .done (if (s.dev.requestGains ⟨f, l⟩ g imm).2 then .refusedBoundary else .ok) []) := by
    simp only [feSetGainEff, onDev, hok, if_true]
    rfl
  exact exec_carries (i := .feSetGain h f l g imm) (k := feSetGainKind) rfl rfl hs (heff _ _)

theorem feSetGain_answers (h : CmdHeader) {f l g : Nat} (imm : Bool) (hfl : f ≤ l) (hl : l ≤ 1023) (hg : g ≤ 7) {s : State}
    (hs : s.dev.carries h [.ready, .running] = true) :
    ∃ (t : State) (st : Status), exec (.feSetGain h f l g imm) s = .next (t.replied h 0x0201 s.dev.now st []) ∧
      ((∃ p, f ≤ p ∧ p ≤ l ∧ s.dev.gainWaits g imm p) → st = .refusedBoundary) ∧
      ((∀ p, f ≤ p → p ≤ l → ¬ s.dev.gainWaits g imm p) → st = .ok) ∧
      ∀ p < 1024,
        let old := getD s.dev.fe.pixels p PixelFe.initial
        let new := getD t.dev.fe.pixels p PixelFe.initial
        (¬ (f ≤ p ∧ p ≤ l) → new.gain = old.gain ∧ new.waiting = old.waiting) ∧
        (f ≤ p → p ≤ l → s.dev.gainWaits g imm p → new.gain = old.gain ∧ new.waiting = some ⟨g, s.dev.sys.ticks, imm⟩) ∧
        (f ≤ p → p ≤ l → ¬ s.dev.gainWaits g imm p → old.gain = g ∨ s.dev.sampleBoundary p = true →
          new.gain = g ∧ new.waiting = none) ∧
        (f ≤ p → p ≤ l → ¬ s.dev.gainWaits g imm p → old.gain ≠ g → s.dev.sampleBoundary p = false →
          new.gain = old.gain ∧ new.waiting = some ⟨g, s.dev.sys.ticks, imm⟩) := by
  have hw := (s.taken h 0x0201).dev.requestGains_waits (f := f) hl g imm
  refine ⟨_, _, feSetGain_exec h imm hfl hl hg hs, fun hx => if_pos (hw.2 hx), fun hn => if_neg fun he => ?_, fun p hp => ?_⟩
  · obtain ⟨p, hf, hpl, hx⟩ := hw.1 he
    exact hn p hf hpl hx
  · have hout := (s.taken h 0x0201).dev.requestGains_outcome f l g imm hp
    simpa only [State.onDev_dev, State.taken_fe, State.taken_sys, State.taken_gainWaits, State.taken_sampleBoundary] using hout

/-! ### A waiting change (R87, R88) -/

/-- A waiting change may take effect at the present tick (R87, R88). -/
def Dev.mayTakeGain (d : Dev) (p : Nat) (w : GainWait) : Prop :=
  d.inTransition p = false ∧ (w.immediate = true ∨ d.inOpenSegment p = false) ∧ d.sampleBoundary p = true

section Waiting
variable {d : Dev} {p : Nat} {w : GainWait}

theorem Dev.gainApplyDue_of_none (hw : (d.pixelFe p).bind (·.waiting) = none) : d.gainApplyDue p = d := by
  rw [Dev.gainApplyDue, hw]

theorem Dev.gainApplyDue_of_may (hw : (d.pixelFe p).bind (·.waiting) = some w) (hm : d.mayTakeGain p w) :
    d.gainApplyDue p = d.applyGain p w.gain := by
  obtain ⟨ht, hi, hb⟩ := hm
  simp [Dev.gainApplyDue, hw, ht, hb, hi]

theorem Dev.gainApplyDue_of_not_may (hw : (d.pixelFe p).bind (·.waiting) = some w) (hm : ¬ d.mayTakeGain p w) :
    d.gainApplyDue p = d := by
  rw [Dev.gainApplyDue, hw]
  refine if_neg fun h => hm ?_
  simpa [Dev.mayTakeGain, and_assoc] using h

end Waiting

/-- The pixel after a gain step has taken effect. -/
theorem Dev.applyGain_pixel (d : Dev) {p : Nat} (hp : p < 1024) (g : Nat) (x : PixelFe) :
    getD (d.applyGain p g).fe.pixels p x = (getD d.fe.pixels p x).takeGain d.sys.ticks g := by
  rw [d.applyGain_pixels, getD_modAt_same _ hp]

/-- Every other pixel is as before. -/
theorem Dev.gainApplyDue_pixel_ne (d : Dev) {p q : Nat} (hq : q ≠ p) (x : PixelFe) :
    getD (d.gainApplyDue p).fe.pixels q x = getD d.fe.pixels q x := by
  unfold Dev.gainApplyDue
  split
  · rfl
  · split
    · rw [d.applyGain_pixels, getD_modAt_ne _ hq]
    · rfl

theorem Dev.waiting_eq (d : Dev) {p : Nat} (hp : p < 1024) :
    (d.pixelFe p).bind (·.waiting) = (getD d.fe.pixels p PixelFe.initial).waiting := by
  rw [d.pixelFe_eq hp]
  rfl

theorem gainChangeApply_result (s : State) {p : Nat} (hp : p < 1024) :
    let old := getD s.dev.fe.pixels p PixelFe.initial
    ∃ t : State, exec (.gainChangeApply p) s = .next t ∧
      let new := getD t.dev.fe.pixels p PixelFe.initial
      (old.waiting = none → new.gain = old.gain ∧ new.waiting = none) ∧
      (∀ w, old.waiting = some w →
        (s.dev.mayTakeGain p w → new.gain = w.gain ∧ new.waiting = none ∧ new.trim = old.trim) ∧
        (¬ s.dev.mayTakeGain p w → new.gain = old.gain ∧ new.waiting = some w)) ∧
      ∀ q < 1024, q ≠ p → (getD t.dev.fe.pixels q PixelFe.initial).gain = (getD s.dev.fe.pixels q PixelFe.initial).gain := by
  intro old
  have hwait := s.dev.waiting_eq hp
  refine ⟨s.onDev (·.gainApplyDue p), rfl, ?_⟩
  rw [State.onDev_dev]
  refine ⟨fun hn => ?_, fun w hw => ⟨fun hm => ?_, fun hm => ?_⟩, fun q _ hq => ?_⟩
  · rw [Dev.gainApplyDue_of_none (hwait.trans hn)]
    exact ⟨rfl, hn⟩
  · rw [Dev.gainApplyDue_of_may (hwait.trans hw) hm, s.dev.applyGain_pixel hp]
    exact ⟨rfl, rfl, rfl⟩
  · rw [Dev.gainApplyDue_of_not_may (hwait.trans hw) hm]
    exact ⟨rfl, hw⟩
  · rw [s.dev.gainApplyDue_pixel_ne hq]

/-! ### A change that has waited for `gain_defer` (R87) -/

/-- The state with the waiting change of a pixel made immediate. -/
def Dev.gainAtOnce (d : Dev) (p : Nat) (w : GainWait) : Dev :=
  d.modPixel p fun f => { f with waiting := some { w with immediate := true } }

theorem Dev.gainAtOnce_pixel (d : Dev) {p : Nat} (hp : p < 1024) (w : GainWait) (x : PixelFe) :
    getD (d.gainAtOnce p w).fe.pixels p x = { getD d.fe.pixels p x with waiting := some { w with immediate := true } } :=
  getD_modAt_same _ hp _ _

/-- A change that is immediate may take effect outside a range transition at any sample boundary. -/
theorem Dev.gainAtOnce_may (d : Dev) {p : Nat} (hp : p < 1024) (w : GainWait) :
    (d.gainAtOnce p w).mayTakeGain p { w with immediate := true } ↔ d.inTransition p = false ∧ d.sampleBoundary p = true := by
  have ht : (d.gainAtOnce p w).inTransition p = d.inTransition p := by
    rw [Dev.inTransition_eq (Dev.pixelFe_eq _ hp), d.gainAtOnce_pixel hp, Dev.inTransition_eq (d.pixelFe_eq hp)]
    rfl
  have hb : (d.gainAtOnce p w).sampleBoundary p = d.sampleBoundary p := rfl
  simp [Dev.mayTakeGain, ht, hb]

theorem Dev.gainDeferTimeout_early {d : Dev} {p : Nat} {w : GainWait} (hw : (d.pixelFe p).bind (·.waiting) = some w)
    (he : d.sys.ticks < w.due + d.gainDefer p) : d.gainDeferTimeout p = d := by
  rw [Dev.gainDeferTimeout, hw]
  exact if_neg (Nat.not_le.2 he)

theorem Dev.gainDeferTimeout_due {d : Dev} {p : Nat} {w : GainWait} (hw : (d.pixelFe p).bind (·.waiting) = some w)
    (hd : w.due + d.gainDefer p ≤ d.sys.ticks) : d.gainDeferTimeout p = (d.gainAtOnce p w).gainApplyDue p := by
  rw [Dev.gainDeferTimeout, hw]
  exact if_pos hd

theorem gainDeferTimeout_result (s : State) {p : Nat} (hp : p < 1024) {w : GainWait}
    (hw : (getD s.dev.fe.pixels p PixelFe.initial).waiting = some w) :
    let old := getD s.dev.fe.pixels p PixelFe.initial
    ∃ t : State, exec (.gainDeferTimeout p) s = .next t ∧
      let new := getD t.dev.fe.pixels p PixelFe.initial
      (s.dev.sys.ticks < w.due + s.dev.gainDefer p → new.gain = old.gain ∧ new.waiting = some w) ∧
      (w.due + s.dev.gainDefer p ≤ s.dev.sys.ticks → s.dev.inTransition p = false → s.dev.sampleBoundary p = true →
        new.gain = w.gain ∧ new.waiting = none) ∧
      (w.due + s.dev.gainDefer p ≤ s.dev.sys.ticks → ¬ (s.dev.inTransition p = false ∧ s.dev.sampleBoundary p = true) →
        new.gain = old.gain ∧ new.waiting = some { w with immediate := true }) := by
  intro old
  have hwait := (s.dev.waiting_eq hp).trans hw
  have hmay := s.dev.gainAtOnce_may hp w
  have hforced : ((s.dev.gainAtOnce p w).pixelFe p).bind (·.waiting) = some { w with immediate := true } := by
    rw [Dev.waiting_eq _ hp, s.dev.gainAtOnce_pixel hp]
  refine ⟨s.onDev (·.gainDeferTimeout p), rfl, ?_⟩
  rw [State.onDev_dev]
  refine ⟨fun he => ?_, fun hd ht hb => ?_, fun hd hn => ?_⟩
  · rw [Dev.gainDeferTimeout_early hwait he]
    exact ⟨rfl, hw⟩
  · rw [Dev.gainDeferTimeout_due hwait hd, Dev.gainApplyDue_of_may hforced (hmay.2 ⟨ht, hb⟩), Dev.applyGain_pixel _ hp]
    exact ⟨rfl, rfl⟩
  · rw [Dev.gainDeferTimeout_due hwait hd, Dev.gainApplyDue_of_not_may hforced (mt hmay.1 hn), s.dev.gainAtOnce_pixel hp]
    exact ⟨rfl, rfl⟩

/-! ### The end of a range transition (R87) -/

/-- The end of a transition gives an edge: the input is above a timing threshold that fires. -/
def Dev.givesEdge (d : Dev) (p : Nat) (timing : Bool) : Prop :=
  d.transitionEnds p = true ∧ timing = true ∧ silentCode (d.thresholdsNow p).timing = false

theorem Dev.rangeTransitionEnd_of_edge {d : Dev} {p : Nat} {timing : Bool} (hg : d.givesEdge p timing) :
    d.rangeTransitionEnd p timing = d.rangeTimingEdge p := by
  obtain ⟨he, ht, hs⟩ := hg
  simp [Dev.rangeTransitionEnd, he, ht, hs]

theorem Dev.rangeTransitionEnd_of_no_edge {d : Dev} {p : Nat} {timing : Bool} (hg : ¬ d.givesEdge p timing) :
    d.rangeTransitionEnd p timing = d := by
  refine if_neg fun h => hg ?_
  simpa [Dev.givesEdge, and_assoc] using h

/-- The pulse that the edge starts (log entry 49), and that it lights nothing. -/
theorem Dev.rangeTimingEdge_pulse {d : Dev} {p : Nat} (hp : p < 1024) (hen : pixelEnabled d.map.active p = true)
    (hm : d.pixelMasked p = false) (hs : (d.tdcPixel p).any (·.slot) = false) :
    ((d.rangeTimingEdge p).tdcPixel p).bind (·.pulse) = some ⟨128 * (d.globalNow : Int), true, false, d.frameStart⟩ ∧
      (d.rangeTimingEdge p).slalom = d.slalom := by
  have hedge : d.rangeTimingEdge p = (d.loseFalling p).modTdc p fun t =>
      { t with pulse := some ⟨128 * (d.globalNow : Int), true, false, d.frameStart⟩, lostRise := false } := by
    simp [Dev.rangeTimingEdge, hen, hm, hs]
  rw [hedge]
  refine ⟨?_, (d.loseFalling_hitsOnly p).slalom⟩
  rw [Dev.tdcPixel, Dev.modTdc, getElem?_modAt, if_pos rfl, Vector.getElem?_eq_getElem hp]
  rfl

theorem rangeTransitionEnd_result (s : State) {p : Nat} (hp : p < 1024) (timing trigger : Bool) :
    (s.dev.givesEdge p timing → pixelEnabled s.dev.map.active p = true → s.dev.pixelMasked p = false →
      (s.dev.tdcPixel p).any (·.slot) = false → ∃ t : State, exec (.rangeTransitionEnd p timing trigger) s = .next t ∧
      (t.dev.tdcPixel p).bind (·.pulse) = some ⟨128 * (s.dev.globalNow : Int), true, false, s.dev.frameStart⟩ ∧
      t.dev.slalom = s.dev.slalom) ∧
    (¬ s.dev.givesEdge p timing → exec (.rangeTransitionEnd p timing trigger) s = .next s) := by
  refine ⟨fun hg hen hm hs => ⟨s.onDev (·.rangeTransitionEnd p timing), rfl, ?_⟩, fun hg => ?_⟩
  · rw [State.onDev_dev, Dev.rangeTransitionEnd_of_edge hg]
    exact Dev.rangeTimingEdge_pulse hp hen hm hs
  · exact next_onDev_self (Dev.rangeTransitionEnd_of_no_edge hg)

/-! ### The gain schedule (R86) -/

/-- Over the entries from `k` on, each of which moves the schedule behind itself, the schedule moves behind the last. -/
theorem foldl_scheduleNext {f : Dev → Nat → Dev} (hf : ∀ d k, (f d k).fe.scheduleNext = k + 1) {k : Nat} (n : Nat) {d : Dev}
    (hd : d.fe.scheduleNext = k) : ((List.range' k n).foldl f d).fe.scheduleNext = k + n := by
  cases n with
  | zero => exact hd
  | succ n =>
    rw [List.range'_1_concat, List.foldl_append]
    exact hf _ _

/-- The entries that a look at the schedule takes: from the next one on those that are due, up to the first that is not. -/
theorem takeWhile_drop_range {due : Nat → Bool} {k n count : Nat} (hkn : k ≤ n) (hn : n ≤ count)
    (hdue : ∀ i, k ≤ i → i < n → due i = true) (hnot : n < count → due n = false) :
    ((List.range count).drop k).takeWhile due = List.range' k (n - k) := by
  have hsplit : (List.range count).drop k = List.range' k (n - k) ++ List.range' n (count - n) := by
    have hcat := List.range'_append_1 (s := k) (m := n - k) (n := count - n)
    rw [show k + (n - k) = n by omega, show n - k + (count - n) = count - k by omega] at hcat
    rw [List.range_eq_range', List.drop_range', hcat, Nat.mul_one, Nat.zero_add]
  have hrest : (List.range' n (count - n)).takeWhile due = [] := by
    cases hc : count - n with
    | zero => rfl
    | succ m =>
      rw [List.range'_succ, List.takeWhile_cons_of_neg]
      simp [hnot (by omega)]
  rw [hsplit, List.takeWhile_append_of_pos, hrest, List.append_nil]
  intro i hi
  obtain ⟨hki, hin⟩ := List.mem_range'_1.1 hi
  exact hdue i hki (by omega)

theorem Dev.gainScheduleDue_next (d : Dev) {n : Nat} (hk : d.fe.scheduleNext ≤ n) (hn : n ≤ mapCount d.map.active 0x0011 0)
    (hdue : ∀ i, d.fe.scheduleNext ≤ i → i < n → d.entryDue d.map.active i = true)
    (hnot : n < mapCount d.map.active 0x0011 0 → ¬ d.entryDue d.map.active n = true) :
    d.gainScheduleDue.fe.scheduleNext = n := by
  rw [Dev.gainScheduleDue]
  dsimp only
  rw [takeWhile_drop_range hk hn hdue fun h => Bool.eq_false_iff.2 (hnot h), foldl_scheduleNext (fun _ _ => rfl) _ rfl]
  omega

/-! ### Clamp conduction (R64, R96) -/

/-- The clamp conducts. -/
def PixelFe.clamped (x : PixelFe) : Bool := x.clampSpans.any (·.stop.isNone)

section Clamp
variable {d : Dev} {p : Nat} {x : PixelFe} (hx : d.pixelFe p = some x)
include hx

theorem Dev.clampConducts_same : d.clampConducts p x.clamped = d := by simp [Dev.clampConducts, hx, PixelFe.clamped]

/-- A start of conduction is counted and may raise its event. -/
theorem Dev.clampConducts_starts (h : x.clamped = false) : ∃ items,
    d.clampConducts p true = (d.modPixel p fun f => { f with
      clampSpans := openSpan d.sys.ticks f.clampSpans, clampCount := (x.clampCount + 1) % 2 ^ 32 }).raiseLimited p 0 0 items := by
  rw [PixelFe.clamped] at h
  simp only [Dev.clampConducts, hx, h]
  exact ⟨_, rfl⟩

theorem Dev.clampConducts_stops (h : x.clamped = true) : d.clampConducts p false =
    d.modPixel p fun f => { f with clampSpans := closeSpan (d.sys.ticks + 64) f.clampSpans } := by
  rw [PixelFe.clamped] at h
  simp only [Dev.clampConducts, hx, h]
  rfl

end Clamp

theorem Dev.modPixel_pixel (d : Dev) {p : Nat} (hp : p < 1024) (f : PixelFe → PixelFe) (x : PixelFe) :
    getD (d.modPixel p f).fe.pixels p x = f (getD d.fe.pixels p x) := getD_modAt_same _ hp f x

theorem clampConducts_result (s : State) {p : Nat} (hp : p < 1024) :
    let old := getD s.dev.fe.pixels p PixelFe.initial
    (exec (.clampConducts p old.clamped) s = .next s) ∧
    (old.clamped = false → ∃ t : State, exec (.clampConducts p true) s = .next t ∧
      let new := getD t.dev.fe.pixels p PixelFe.initial
      new.clampCount = (old.clampCount + 1) % 2 ^ 32 ∧ new.clampSpans = openSpan s.dev.sys.ticks old.clampSpans ∧
      t.dev.tdc = s.dev.tdc) ∧
    (old.clamped = true → ∃ t : State, exec (.clampConducts p false) s = .next t ∧ t.dev.evt = s.dev.evt ∧
      let new := getD t.dev.fe.pixels p PixelFe.initial
      new.clampCount = old.clampCount ∧ new.clampSpans = closeSpan (s.dev.sys.ticks + 64) old.clampSpans) := by
  intro old
  have hx : s.dev.pixelFe p = some old := s.dev.pixelFe_eq hp
  refine ⟨next_onDev_self (Dev.clampConducts_same hx),
    fun hc => ⟨s.onDev (·.clampConducts p true), rfl, ?_⟩, fun hc => ⟨s.onDev (·.clampConducts p false), rfl, ?_⟩⟩
  · obtain ⟨items, hstart⟩ := Dev.clampConducts_starts hx hc
    rw [State.onDev_dev, hstart, Dev.raiseLimited_fe, Dev.raiseLimited_tdc, s.dev.modPixel_pixel hp]
    exact ⟨rfl, rfl, rfl⟩
  · rw [State.onDev_dev, Dev.clampConducts_stops hx hc, s.dev.modPixel_pixel hp]
    exact ⟨rfl, rfl, rfl⟩

/-! ### The obligation -/

/-- Settles O39: a range takes a gain change pixel by pixel, and of each pixel what a change asked for, a waiting one and the clamp
do to it. -/
theorem gainChanges : Obligations.GainChanges := by
  refine ⟨fun h f l g imm => ⟨feSetGain_refuses h imm, fun hfl hl hg s hs => feSetGain_answers h imm hfl hl hg hs⟩,
    fun s p hp => ⟨gainChangeApply_result s hp, fun w hw => gainDeferTimeout_result s hp hw, rangeTransitionEnd_result s hp⟩,
    fun s n hk hn hdue hnot => ⟨_, rfl, s.dev.gainScheduleDue_next hk hn hdue hnot⟩,
    fun s p hp => clampConducts_result s hp⟩

end Sys2Proof.Machine
end

section
/-! Proofs about the rows of the tiles (R68 to R70, R78, R80, R81, R96, R500): what an open-input check, a ramp, a gate and the
external triggers do to one tile, and that each other tile keeps its value. -/

namespace Sys2Proof.Machine

/-! ### One tile -/

/-- A tile by number. -/
def Dev.tile (d : Dev) (n : Nat) : TileFe := getD d.fe.tiles n TileFe.initial

theorem Dev.tileFe_eq (d : Dev) {n : Nat} (hn : n < 64) : d.tileFe n = some (d.tile n) := getElem?_eq_getD _ hn _

theorem Dev.tile_congr {d e : Dev} {n : Nat} (h : e.tileFe n = d.tileFe n) : e.tile n = d.tile n := by
  rw [Dev.tile, Dev.tile, getD_eq, getD_eq]
  exact congrArg (Option.getD · TileFe.initial) h

theorem Dev.tile_modTile (d : Dev) {n : Nat} (hn : n < 64) (f : TileFe → TileFe) : (d.modTile n f).tile n = f (d.tile n) :=
  getD_modAt_same _ hn f _

theorem Dev.raiseLimited_tile (d : Dev) (src kind key : Nat) (items : List EvItem) (n : Nat) :
    (d.raiseLimited src kind key items).tile n = d.tile n := by rw [Dev.tile, Dev.raiseLimited_fe, Dev.tile]

/-! ### Open-input checks that fall due (R68, R70) -/

/-- The tile with a check under way from a tick on. -/
def TileFe.startCheck (t : TileFe) (now : Nat) : TileFe :=
  { t with check := .charging now, checkWaiting := false, calSpans := openSpan now t.calSpans }

/-- The tile once a check has fallen due on it. -/
def TileFe.askCheck (t : TileFe) (now : Nat) : TileFe :=
  if t.check ≠ .none then t else if t.freeForCheck now then t.startCheck now else { t with checkWaiting := true }

/-- The tile once what a check waited for may have ended. -/
def TileFe.resumeCheck (t : TileFe) (now : Nat) : TileFe :=
  if t.checkWaiting && t.freeForCheck now then t.startCheck now else t

theorem Dev.startCheck_tileFe (d : Dev) (n k : Nat) :
    (d.startCheck n).tileFe k = if n = k then (d.tileFe k).map (·.startCheck d.sys.ticks) else d.tileFe k := by
  have hk : (d.loseTilePulses n).tileFe k = d.tileFe k := by rw [Dev.tileFe, (d.loseTilePulses_keepsFe n).2, Dev.tileFe]
  rw [Dev.startCheck, Dev.tileFe_modTile, hk]
  rfl

theorem Dev.requestCheck_sys (d : Dev) (n : Nat) : (d.requestCheck n).sys = d.sys := by
  unfold Dev.requestCheck
  split
  · rfl
  · split
    · rfl
    · split
      · exact d.startCheck_sys n
      · rfl

/-- A check that falls due acts on its own tile alone. -/
theorem Dev.requestCheck_tileFe (d : Dev) (n k : Nat) :
    (d.requestCheck n).tileFe k = if n = k then (d.tileFe k).map (·.askCheck d.sys.ticks) else d.tileFe k := by
  cases ht : d.tileFe n with
  | none =>
    have hd : d.requestCheck n = d := by simp [Dev.requestCheck, ht]
    rw [hd]
    split
    · next hk => simp [← hk, ht]
    · rfl
  | some t =>
    have of_change {e : Dev} {f : TileFe → TileFe} (he : e.tileFe k = if n = k then (d.tileFe k).map f else d.tileFe k)
        (hf : f t = t.askCheck d.sys.ticks) :
        e.tileFe k = if n = k then (d.tileFe k).map (·.askCheck d.sys.ticks) else d.tileFe k := by
      rw [he]
      split
      · next hk => simp [← hk, ht, hf]
      · rfl
    by_cases hc : t.check = .none
    · by_cases hfree : t.freeForCheck d.sys.ticks = true
      · have hd : d.requestCheck n = d.startCheck n := by simp [Dev.requestCheck, ht, hc, hfree]
        rw [hd]
        exact of_change (d.startCheck_tileFe n k) (by simp [TileFe.askCheck, hc, hfree])
      · have hd : d.requestCheck n = d.modTile n fun t => { t with checkWaiting := true } := by
          simp [Dev.requestCheck, ht, hc, hfree]
        rw [hd]
        exact of_change (d.tileFe_modTile n k _) (by simp [TileFe.askCheck, hc, hfree])
    · have hd : d.requestCheck n = d := by simp [Dev.requestCheck, ht, hc]
      rw [hd]
      exact of_change (f := id) (by simp) (by simp [TileFe.askCheck, hc])

theorem Dev.requestCheck_tile (d : Dev) {n : Nat} (hn : n < 64) : (d.requestCheck n).tile n = (d.tile n).askCheck d.sys.ticks := by
  have h := d.requestCheck_tileFe n n
  rw [if_pos rfl, Dev.tileFe_eq _ hn, d.tileFe_eq hn] at h
  exact Option.some.inj h

theorem Dev.resumeCheck_tile (d : Dev) {n : Nat} (hn : n < 64) : (d.resumeCheck n).tile n = (d.tile n).resumeCheck d.sys.ticks := by
  rw [Dev.resumeCheck, d.tileFe_eq hn]
  dsimp only
  rw [TileFe.resumeCheck]
  split
  · rw [Dev.startCheck, Dev.tile_modTile _ hn, Dev.tile, (d.loseTilePulses_keepsFe n).2]
    rfl
  · rfl

/-- A check that resumes marks the check and the samples alone. -/
theorem TileFe.resumeCheck_read {α : Type} {g : TileFe → α} (hg : ∀ t c w spans,
    g { t with check := c, checkWaiting := w, calSpans := spans } = g t) (t : TileFe) (now : Nat) : g (t.resumeCheck now) = g t := by
  unfold TileFe.resumeCheck
  split
  · exact hg ..
  · rfl

/-- What a look at a tile for a check sees. -/
def Dev.checkView (d : Dev) (n : Nat) : Nat × Option TileFe := (d.sys.ticks, d.tileFe n)

theorem Dev.requestCheck_checkView (d : Dev) (i j : Nat) : (d.requestCheck i).checkView j =
    if i = j then ((d.checkView j).1, (d.checkView j).2.map (·.askCheck (d.checkView j).1)) else d.checkView j := by
  rw [Dev.checkView, d.requestCheck_sys, d.requestCheck_tileFe]
  split <;> rfl

theorem Dev.requestChecks_tile (d : Dev) (r : Range) {n : Nat} (hn : n < 64) :
    (d.requestChecks r).tile n = if r.has n then (d.tile n).askCheck d.sys.ticks else d.tile n := by
  have hseen := congrArg Prod.snd (foldl_range_seen (seen := Dev.checkView)
    (change := fun x => (x.1, x.2.map (·.askCheck x.1))) Dev.requestCheck_checkView r hn d)
  simp only [apply_ite Prod.snd, Dev.checkView, Dev.tileFe_eq _ hn, Option.map_some, ← apply_ite some, Option.some.injEq] at hseen
  exact hseen

theorem feOpenCheck_refuses (h : CmdHeader) {f l : Nat} (hno : ¬ (f ≤ l ∧ l ≤ 63)) :
    Answers (.feOpenCheck h f l) h 0x0206 [.ready, .running, .quiesce] always .outOfRange (fun _ => []) unchanged :=
  .of (k := feOpenCheckKind) rfl rfl fun _ _ => onDev_unchanged (if_neg (mt tileRange_iff.1 hno))

theorem feOpenCheck_answers (h : CmdHeader) {f l : Nat} (hfl : f ≤ l) (hl : l ≤ 63) :
    AnswersWith (.feOpenCheck h f l) h 0x0206 [.ready, .running, .quiesce] always .ok fun s t =>
      ∀ n < 64,
        let free := (s.dev.tile n).freeForCheck s.dev.sys.ticks
        (¬ (f ≤ n ∧ n ≤ l) ∨ (s.dev.tile n).check ≠ .none → t.dev.tile n = s.dev.tile n) ∧
        (f ≤ n → n ≤ l → (s.dev.tile n).check = .none → free = true → (t.dev.tile n).check = .charging s.dev.sys.ticks) ∧
        (f ≤ n → n ≤ l → (s.dev.tile n).check = .none → free = false →
          t.dev.tile n = { s.dev.tile n with checkWaiting := true }) := by
  refine .of (k := feOpenCheckKind) rfl rfl fun s _ => ⟨_, fun n hn => ?_,
    onDev_devOnly (g := (·.requestChecks ⟨f, l⟩)) (if_pos (tileRange_iff.2 ⟨hfl, hl⟩))⟩
  rw [devOnly, State.onDev_dev, Dev.requestChecks_tile _ _ hn]
  generalize (s.taken h feOpenCheckKind.opcode).dev.tile n = t
  generalize (s.taken h feOpenCheckKind.opcode).dev.sys.ticks = now
  by_cases hin : f ≤ n ∧ n ≤ l
  · rw [if_pos (Range.has_iff.2 hin)]
    refine ⟨fun hor => ?_, fun _ _ hc hfree => ?_, fun _ _ hc hfree => ?_⟩
    · simp [TileFe.askCheck, hor.resolve_left (not_not_intro hin)]
    · simp [TileFe.askCheck, hc, hfree, TileFe.startCheck]
    · simp [TileFe.askCheck, hc, hfree]
  · rw [if_neg (mt Range.has_iff.1 hin)]
    exact ⟨fun _ => rfl, fun hf hl => absurd ⟨hf, hl⟩ hin, fun hf hl => absurd ⟨hf, hl⟩ hin⟩

/-! ### The steps of a check (R68, R69, R96) -/

/-- `open_period` of a tile is set and has passed since the tick it counts from (log entry 12). -/
def Dev.periodPassed (d : Dev) (n : Nat) : Prop :=
  let period := mapNum d.map.active 0x0013 0 (16 + 32 * n + 24) 2 0
  period ≠ 0 ∧ (d.tile n).checkFrom + period * 2560000000 ≤ d.sys.ticks

theorem Dev.checkDue_of_not_passed {d : Dev} {n : Nat} (hn : n < 64) (hp : ¬ d.periodPassed n) : d.checkDue n = d := by
  rw [Dev.checkDue, d.tileFe_eq hn]
  refine if_neg fun h => hp ?_
  obtain ⟨hset, hpassed⟩ := Bool.and_eq_true_iff.1 h
  exact ⟨bne_iff_ne.1 hset, of_decide_eq_true hpassed⟩

theorem Dev.checkDue_of_passed {d : Dev} {n : Nat} (hn : n < 64) (hp : d.periodPassed n) :
    (d.checkDue n).tile n = { d.tile n with checkFrom := d.sys.ticks }.askCheck d.sys.ticks := by
  obtain ⟨hset, hpassed⟩ := hp
  have hd : d.checkDue n = (d.modTile n fun t => { t with checkFrom := d.sys.ticks }).requestCheck n := by
    rw [Dev.checkDue, d.tileFe_eq hn]
    exact if_pos (Bool.and_eq_true_iff.2 ⟨bne_iff_ne.2 hset, decide_eq_true hpassed⟩)
  rw [hd, Dev.requestCheck_tile _ hn, d.tile_modTile hn]
  rfl

theorem TileFe.askCheck_checkFrom (t : TileFe) (now : Nat) : (t.askCheck now).checkFrom = t.checkFrom := by
  unfold TileFe.askCheck
  split
  · rfl
  · split <;> rfl

theorem TileFe.askCheck_free {t : TileFe} {now : Nat} (hc : t.check = .none) (hfree : t.freeForCheck now = true) :
    t.askCheck now = t.startCheck now := by
  simp [TileFe.askCheck, hc, hfree]

theorem openCheckDue_result (s : State) {n : Nat} (hn : n < 64) :
    ∃ t : State, exec (.openCheckDue n) s = .next t ∧ (¬ s.dev.periodPassed n → t.dev.tile n = s.dev.tile n) ∧
      (s.dev.periodPassed n → (t.dev.tile n).checkFrom = s.dev.sys.ticks ∧
        ((s.dev.tile n).check = .none → (s.dev.tile n).freeForCheck s.dev.sys.ticks = true →
          (t.dev.tile n).check = .charging s.dev.sys.ticks)) := by
  refine ⟨s.onDev (·.checkDue n), rfl, ?_⟩
  rw [State.onDev_dev]
  refine ⟨fun hp => ?_, fun hp => ?_⟩
  · rw [Dev.checkDue_of_not_passed hn hp]
  · rw [Dev.checkDue_of_passed hn hp]
    refine ⟨TileFe.askCheck_checkFrom .., fun hc hfree => ?_⟩
    have hstart : ({ s.dev.tile n with checkFrom := s.dev.sys.ticks } : TileFe).askCheck s.dev.sys.ticks = _ :=
      TileFe.askCheck_free hc hfree
    rw [hstart]
    rfl

/-- What one step of a fold reaches stands at the end of the fold, if each step keeps it. -/
theorem foldl_reaches {σ α : Type} {f : σ → α → σ} {inv goal : σ → Prop} (hinv : ∀ s a, inv s → inv (f s a))
    (hkeep : ∀ s a, inv s → goal s → goal (f s a)) {a : α} (hreach : ∀ s, inv s → goal (f s a)) {l : List α} (ha : a ∈ l) {s : σ}
    (hs : inv s) : goal (l.foldl f s) := by
  induction l generalizing s with
  | nil => exact absurd ha List.not_mem_nil
  | cons b l ih =>
    rw [List.foldl_cons]
    obtain rfl | ha := List.mem_cons.1 ha
    · have hboth : inv (l.foldl f (f s a)) ∧ goal (l.foldl f (f s a)) :=
        List.foldlRecOn (motive := fun t => inv t ∧ goal t) l f ⟨hinv s a hs, hreach s hs⟩
          fun t ⟨hi, hg⟩ c _ => ⟨hinv t c hi, hkeep t c hi hg⟩
      exact hboth.2
    · exact ih ha (hinv s b hs)

/-- The pixel's input is covered by the open-input check (R69). -/
def Dev.covers (d : Dev) (p : Nat) : Prop := mapBits d.map.active 0x0010 0 (16 + 8 * p + 3) 1 1 1 1 = 1

/-- A pixel that is compared is left out or found as it was, or its finding changes. -/
theorem Dev.comparePixel_cases (d : Dev) (p : Nat) (above : Bool) :
    d.comparePixel p above = d ∧ (∀ x, d.pixelFe p = some x → d.covers p → x.isOpen = above) ∨
      (d.modPixel p fun f => { f with
        openSpans := if above then openSpan d.sys.ticks f.openSpans else closeSpan d.sys.ticks f.openSpans }).QueuesOnly
          (d.comparePixel p above) := by
  rw [Dev.comparePixel]
  split
  · next hx => exact .inl ⟨rfl, fun x h => absurd (hx.symm.trans h) (by simp)⟩
  · next x hx =>
    split
    · next h =>
      refine .inl ⟨rfl, fun y hy hc => ?_⟩
      obtain rfl : x = y := Option.some.inj (hx.symm.trans hy)
      obtain h0 | hsame := Bool.or_eq_true_iff.1 h
      · exact absurd ((eq_of_beq h0).symm.trans hc) (by decide)
      · exact eq_of_beq hsame
    · cases above
      · exact .inr (Dev.raiseLimited_only ..)
      · exact .inr (Dev.raiseLimited_only ..)

theorem isOpen_openSpan (x : PixelFe) (now : Nat) : { x with openSpans := openSpan now x.openSpans }.isOpen = true := by
  match h : x.openSpans with
  | [] => simp [PixelFe.isOpen, openSpan]
  | ⟨a, none⟩ :: r => simp [PixelFe.isOpen, openSpan]
  | ⟨a, some b⟩ :: r => simp [PixelFe.isOpen, openSpan]

theorem isOpen_closeSpan (x : PixelFe) (now : Nat) : { x with openSpans := closeSpan now x.openSpans }.isOpen = false := by
  match h : x.openSpans with
  | [] => simp [PixelFe.isOpen, closeSpan]
  | ⟨a, none⟩ :: r => simp [PixelFe.isOpen, closeSpan]
  | ⟨a, some b⟩ :: r => simp [PixelFe.isOpen, closeSpan]

theorem Dev.comparePixel_same (d : Dev) {p : Nat} (hp : p < 1024) (hc : d.covers p) (above : Bool) :
    (getD (d.comparePixel p above).fe.pixels p PixelFe.initial).isOpen = above := by
  obtain ⟨hd, hsame⟩ | hq := d.comparePixel_cases p above
  · rw [hd, hsame _ (d.pixelFe_eq hp) hc]
  · rw [hq.fe, d.modPixel_pixel hp]
    cases above
    · exact isOpen_closeSpan ..
    · exact isOpen_openSpan ..

theorem Dev.comparePixel_map (d : Dev) (p : Nat) (above : Bool) : (d.comparePixel p above).map = d.map := by
  obtain ⟨hd, -⟩ | hq := d.comparePixel_cases p above
  · rw [hd]
  · exact hq.map

theorem Dev.comparePixel_ne (d : Dev) {p q : Nat} (hq : q ≠ p) (above : Bool) (x : PixelFe) :
    getD (d.comparePixel p above).fe.pixels q x = getD d.fe.pixels q x := by
  obtain ⟨hd, -⟩ | hqueues := d.comparePixel_cases p above
  · rw [hd]
  · rw [hqueues.fe]
    exact getD_modAt_ne _ hq _ _

/-- Each covered input of a tile is found as it is. -/
theorem Dev.comparePixels_found (d : Dev) {n i : Nat} (hn : n < 64) (hi : i < 16) (above : Nat) (hc : d.covers (16 * n + i)) :
    (getD ((List.range 16).foldl (fun d i => d.comparePixel (16 * n + i) (bit above i)) d).fe.pixels (16 * n + i)
      PixelFe.initial).isOpen = bit above i := by
  have hp : 16 * n + i < 1024 := by omega
  have hcov {e : Dev} (he : e.map = d.map) : e.covers (16 * n + i) := by rwa [Dev.covers, he]
  refine foldl_reaches (f := fun (d : Dev) i => d.comparePixel (16 * n + i) (bit above i)) (inv := fun e => e.map = d.map)
    (goal := fun e => (getD e.fe.pixels (16 * n + i) PixelFe.initial).isOpen = bit above i)
    (fun e j he => (e.comparePixel_map ..).trans he) (fun e j he hg => ?_) (fun e he => e.comparePixel_same hp (hcov he) _)
    (List.mem_range.2 hi) rfl
  by_cases hj : i = j
  · subst hj
    exact e.comparePixel_same hp (hcov he) _
  · rw [e.comparePixel_ne (by omega)]
    exact hg

theorem Dev.checkCompare_early {d : Dev} {n : Nat} (hn : n < 64) (above : Nat)
    (he : ∀ since, (d.tile n).check = .charging since → d.sys.ticks < since + 768000) : d.checkCompare n above = d := by
  rw [Dev.checkCompare, d.tileFe_eq hn]
  dsimp only [Option.map_some]
  split
  · next since hs => exact if_neg (Nat.not_le.2 (he since (Option.some.inj hs)))
  · rfl

theorem Dev.checkCompare_due {d : Dev} {n since : Nat} (hn : n < 64) (above : Nat) (hs : (d.tile n).check = .charging since)
    (hd : since + 768000 ≤ d.sys.ticks) : d.checkCompare n above =
      ((List.range 16).foldl (fun d i => d.comparePixel (16 * n + i) (bit above i)) d).modTile n fun t =>
        { t with check := .recovering since } := by
  rw [Dev.checkCompare, d.tileFe_eq hn, Option.map_some, hs]
  exact if_pos hd

theorem openCheckCompare_result (s : State) {n : Nat} (hn : n < 64) (above : Nat) :
    ((∀ since, (s.dev.tile n).check = .charging since → s.dev.sys.ticks < since + 768000) →
      exec (.openCheckCompare n above) s = .next s) ∧
    (∀ since, (s.dev.tile n).check = .charging since → since + 768000 ≤ s.dev.sys.ticks →
      ∃ t : State, exec (.openCheckCompare n above) s = .next t ∧ (t.dev.tile n).check = .recovering since ∧
        ∀ i < 16, s.dev.covers (16 * n + i) →
          (getD t.dev.fe.pixels (16 * n + i) PixelFe.initial).isOpen = bit above i) := by
  refine ⟨fun he => next_onDev_self (Dev.checkCompare_early hn above he),
    fun since hs hd => ⟨s.onDev (·.checkCompare n above), rfl, ?_⟩⟩
  rw [State.onDev_dev, Dev.checkCompare_due hn above hs hd, Dev.tile_modTile _ hn]
  exact ⟨rfl, fun i hi hc => s.dev.comparePixels_found hn hi above hc⟩

theorem Dev.checkEnd_early {d : Dev} {n : Nat} (hn : n < 64)
    (he : ∀ since, (d.tile n).check = .recovering since → d.sys.ticks < since + 773120) : d.checkEnd n = d := by
  rw [Dev.checkEnd, d.tileFe_eq hn]
  dsimp only [Option.map_some]
  split
  · next since hs => exact if_neg (Nat.not_le.2 (he since (Option.some.inj hs)))
  · rfl

theorem Dev.checkEnd_due {d : Dev} {n since : Nat} (hn : n < 64) (hs : (d.tile n).check = .recovering since)
    (hd : since + 773120 ≤ d.sys.ticks) : ((d.checkEnd n).tile n).check = .none := by
  rw [Dev.checkEnd, d.tileFe_eq hn, Option.map_some, hs]
  dsimp only
  rw [if_pos (show since + usTicks 302 ≤ d.sys.ticks from hd), Dev.raiseLimited_tile, d.tile_modTile hn]

theorem openCheckEnd_result (s : State) {n : Nat} (hn : n < 64) :
    ∃ t : State, exec (.openCheckEnd n) s = .next t ∧
      ((∀ since, (s.dev.tile n).check = .recovering since → s.dev.sys.ticks < since + 773120) → t.dev.tile n = s.dev.tile n) ∧
      (∀ since, (s.dev.tile n).check = .recovering since → since + 773120 ≤ s.dev.sys.ticks → (t.dev.tile n).check = .none) :=
  ⟨s.onDev (·.checkEnd n), rfl, fun he => congrArg (Dev.tile · n) (Dev.checkEnd_early hn he),
    fun _ hs hd => Dev.checkEnd_due hn hs hd⟩

/-! ### Ramps and generators (R78, R96, R500) -/

/-- A ramp is over: by discharge (log entry 48), or with the output within 10 mV of its target. -/
def Dev.rampOver (d : Dev) (n : Nat) : Prop :=
  (d.tile n).ramping = true ∧ ((d.tile n).discharging = true ∨ nearBias (d.tileOutput n (d.tile n)) (d.tile n).target = true)

theorem Dev.biasRampDone_of_not_over {d : Dev} {n : Nat} (hn : n < 64) (hr : ¬ d.rampOver n) : d.biasRampDone n = d := by
  rw [Dev.biasRampDone, d.tileFe_eq hn]
  refine if_neg fun h => hr ?_
  simpa [Dev.rampOver] using h

theorem Dev.biasRampDone_of_over {d : Dev} {n : Nat} (hn : n < 64) (hr : d.rampOver n) :
    (d.biasRampDone n).tile n = { d.tile n with
      output := (d.tile n).target * biasUnit, ramping := false, discharging := false
      rampSpans := closeSpan d.sys.ticks (d.tile n).rampSpans }.resumeCheck d.sys.ticks := by
  obtain ⟨hramp, hdone⟩ := hr
  rw [Dev.biasRampDone, d.tileFe_eq hn]
  dsimp only
  rw [if_pos (by simpa [hramp] using hdone), Dev.resumeCheck_tile _ hn, d.tile_modTile hn]
  rfl

theorem biasRampDone_result (s : State) {n : Nat} (hn : n < 64) :
    (¬ s.dev.rampOver n → exec (.biasRampDone n) s = .next s) ∧
    (s.dev.rampOver n → ∃ t : State, exec (.biasRampDone n) s = .next t ∧ (t.dev.tile n).output = 256000 * (s.dev.tile n).target ∧
      (t.dev.tile n).target = (s.dev.tile n).target ∧ (t.dev.tile n).ramping = false ∧ (t.dev.tile n).discharging = false) := by
  refine ⟨fun hr => next_onDev_self (Dev.biasRampDone_of_not_over hn hr),
    fun hr => ⟨s.onDev (·.biasRampDone n), rfl, ?_⟩⟩
  rw [State.onDev_dev, Dev.biasRampDone_of_over hn hr]
  exact ⟨(TileFe.resumeCheck_read (g := TileFe.output) (fun _ _ _ _ => rfl) ..).trans (Nat.mul_comm ..),
    TileFe.resumeCheck_read (g := TileFe.target) (fun _ _ _ _ => rfl) ..,
    TileFe.resumeCheck_read (g := TileFe.ramping) (fun _ _ _ _ => rfl) ..,
    TileFe.resumeCheck_read (g := TileFe.discharging) (fun _ _ _ _ => rfl) ..⟩

theorem Dev.currentLimitOff_again {d : Dev} {n : Nat} (hn : n < 64) (ho : (d.tile n).generatorOff = true) :
    d.currentLimitOff n = d := by
  rw [Dev.currentLimitOff, d.tileFe_eq hn]
  exact if_pos ho

theorem Dev.currentLimitOff_first {d : Dev} {n : Nat} (hn : n < 64) (ho : (d.tile n).generatorOff = false) :
    (d.currentLimitOff n).tile n = { d.tile n with
      generatorOff := true, output := 0, ramping := false, discharging := false
      rampSpans := closeSpan d.sys.ticks (d.tile n).rampSpans }.resumeCheck d.sys.ticks := by
  rw [Dev.currentLimitOff, d.tileFe_eq hn]
  dsimp only
  rw [if_neg (Bool.eq_false_iff.1 ho), Dev.raiseLimited_tile, Dev.resumeCheck_tile _ hn, d.tile_modTile hn]
  rfl

theorem biasCurrentLimitOff_result (s : State) {n : Nat} (hn : n < 64) :
    ∃ t : State, exec (.biasCurrentLimitOff n) s = .next t ∧ (t.dev.tile n).generatorOff = true ∧
      ((s.dev.tile n).generatorOff = true → t.dev.tile n = s.dev.tile n) ∧
      ((s.dev.tile n).generatorOff = false →
        (t.dev.tile n).output = 0 ∧ (t.dev.tile n).ramping = false ∧ (t.dev.tile n).target = (s.dev.tile n).target) := by
  refine ⟨s.onDev (·.currentLimitOff n), rfl, ?_⟩
  rw [State.onDev_dev]
  cases ho : (s.dev.tile n).generatorOff with
  | true =>
    rw [Dev.currentLimitOff_again hn ho]
    exact ⟨ho, fun _ => rfl, fun h => absurd h (by decide)⟩
  | false =>
    rw [Dev.currentLimitOff_first hn ho]
    exact ⟨TileFe.resumeCheck_read (g := TileFe.generatorOff) (fun _ _ _ _ => rfl) .., fun h => absurd h (by decide),
      fun _ => ⟨TileFe.resumeCheck_read (g := TileFe.output) (fun _ _ _ _ => rfl) ..,
        TileFe.resumeCheck_read (g := TileFe.ramping) (fun _ _ _ _ => rfl) ..,
        TileFe.resumeCheck_read (g := TileFe.target) (fun _ _ _ _ => rfl) ..⟩⟩

/-- A reading is bad: outside a ramp and gating, and beyond 50 mV of the target. -/
def Dev.badBias (d : Dev) (n measured : Nat) : Prop :=
  (d.tile n).ramping = false ∧ inSpans (d.tile n).gatedSpans d.sys.ticks = false ∧ beyondTolerance measured (d.tile n).target = true

theorem biasOutOfTolerance_result (s : State) {n : Nat} (hn : n < 64) (measured : Nat) :
    (¬ s.dev.badBias n measured → exec (.biasOutOfTolerance n measured) s = .next s) ∧
    (s.dev.badBias n measured → exec (.biasOutOfTolerance n measured) s =
      .next (s.onDev (·.raiseLimited (1024 + n) 1 0 [evNat n, .real measured]))) := by
  have hguard : ((s.dev.tile n).ramping || inSpans (s.dev.tile n).gatedSpans s.dev.sys.ticks ||
      !beyondTolerance measured (s.dev.tile n).target) = true ↔ ¬ s.dev.badBias n measured := by
    simp [Dev.badBias, Classical.or_iff_not_imp_left]
  have hrow : s.dev.outOfTolerance n measured = if (s.dev.tile n).ramping || inSpans (s.dev.tile n).gatedSpans s.dev.sys.ticks ||
      !beyondTolerance measured (s.dev.tile n).target then s.dev
      else s.dev.raiseLimited (1024 + n) 1 0 [evNat n, .real measured] := by rw [Dev.outOfTolerance, s.dev.tileFe_eq hn]
  refine ⟨fun hb => next_onDev_self (hrow.trans (if_pos (hguard.2 hb))), fun hb => ?_⟩
  refine congrArg (fun d => Host.Outcome.next { s with dev := d }) (hrow.trans (if_neg fun h => hguard.1 h hb))

/-! ### Gates (R80, R81) -/

/-- What gates a tile after its gate has changed. -/
theorem Dev.gateTile_gates (d : Dev) {n : Nat} (hn : n < 64) {f : TileFe → TileFe}
    {g : Bool × Option Nat × Bool → Bool × Option Nat × Bool} (hf : ∀ t, (f t).gates = g t.gates) :
    ((d.gateTile n f).tile n).gates = g (d.tile n).gates := by
  have h := congrArg Prod.snd (d.changeGate_gatesAt n (restoreTicks d.map.active n) n hf)
  rw [if_pos rfl] at h
  simp only [Dev.gatesAt, Dev.tileFe_eq _ hn, Option.map_some, Option.some.injEq] at h
  exact h

theorem Dev.updateSource_gates (d : Dev) {n : Nat} (hn : n < 64) :
    ((d.updateSource n).tile n).sourceOff = d.sourceAsks n ∧ ((d.updateSource n).tile n).commandOff = (d.tile n).commandOff ∧
      ((d.updateSource n).tile n).pulseEnds = (d.tile n).pulseEnds := by
  have h := d.gateTile_gates hn (f := fun t => { t with sourceOff := d.sourceAsks n })
    (g := fun x => (x.1, x.2.1, d.sourceAsks n)) fun _ => rfl
  simp only [TileFe.gates, Prod.mk.injEq] at h
  obtain ⟨hcommand, hpulse, hsource⟩ := h
  exact ⟨hsource, hcommand, hpulse⟩

theorem gatePeriodEdge_result (s : State) {n : Nat} (hn : n < 64) :
    ∃ t : State, exec (.gatePeriodEdge n) s = .next t ∧ (t.dev.tile n).sourceOff = s.dev.sourceAsks n ∧
      (t.dev.tile n).commandOff = (s.dev.tile n).commandOff ∧ (t.dev.tile n).pulseEnds = (s.dev.tile n).pulseEnds :=
  ⟨s.onDev (·.updateSource n), rfl, s.dev.updateSource_gates hn⟩

theorem Dev.gatePulseEnd_early {d : Dev} {n : Nat} (hn : n < 64) (he : ∀ e, (d.tile n).pulseEnds = some e → d.sys.ticks < e) :
    d.gatePulseEnd n = d := by
  rw [Dev.gatePulseEnd, d.tileFe_eq hn]
  dsimp only [Option.bind_some]
  split
  · next e hp => exact if_neg (Nat.not_le.2 (he e hp))
  · rfl

theorem Dev.gatePulseEnd_due {d : Dev} {n e : Nat} (hn : n < 64) (hp : (d.tile n).pulseEnds = some e) (hd : e ≤ d.sys.ticks) :
    ((d.gatePulseEnd n).tile n).pulseEnds = none ∧ ((d.gatePulseEnd n).tile n).commandOff = (d.tile n).commandOff ∧
      ((d.gatePulseEnd n).tile n).sourceOff = (d.tile n).sourceOff := by
  have hrow : d.gatePulseEnd n = d.gateTile n fun t => { t with pulseEnds := none } := by
    rw [Dev.gatePulseEnd, d.tileFe_eq hn, Option.bind_some, hp]
    exact if_pos hd
  have h := d.gateTile_gates hn (f := fun t => { t with pulseEnds := none }) (g := fun x => (x.1, none, x.2.2)) fun _ => rfl
  rw [← hrow] at h
  simp only [TileFe.gates, Prod.mk.injEq] at h
  obtain ⟨hcommand, hpulse, hsource⟩ := h
  exact ⟨hpulse, hcommand, hsource⟩

theorem gatePulseEnd_result (s : State) {n : Nat} (hn : n < 64) :
    ∃ t : State, exec (.gatePulseEnd n) s = .next t ∧
      (∀ e, (s.dev.tile n).pulseEnds = some e → e ≤ s.dev.sys.ticks → (t.dev.tile n).pulseEnds = none ∧
        (t.dev.tile n).commandOff = (s.dev.tile n).commandOff ∧ (t.dev.tile n).sourceOff = (s.dev.tile n).sourceOff) ∧
      ((∀ e, (s.dev.tile n).pulseEnds = some e → s.dev.sys.ticks < e) → t.dev.tile n = s.dev.tile n) :=
  ⟨s.onDev (·.gatePulseEnd n), rfl, fun _ hp hd => Dev.gatePulseEnd_due hn hp hd,
    fun he => congrArg (Dev.tile · n) (Dev.gatePulseEnd_early hn he)⟩

theorem Dev.gatedFlagEnd_early {d : Dev} {n : Nat} (hn : n < 64)
    (he : ∀ e, (d.tile n).flagEnds = some e → d.sys.ticks < e ∨ (d.tile n).gatedOff = true) : d.gatedFlagEnd n = d := by
  rw [Dev.gatedFlagEnd, d.tileFe_eq hn]
  dsimp only
  split
  · next e hf =>
    refine if_neg fun h => ?_
    obtain ⟨hpassed, hopen⟩ := Bool.and_eq_true_iff.1 h
    obtain hlate | hoff := he e hf
    · exact absurd (of_decide_eq_true hpassed) (Nat.not_le.2 hlate)
    · simp [hoff] at hopen
  · rfl

theorem Dev.gatedFlagEnd_due {d : Dev} {n e : Nat} (hn : n < 64) (hf : (d.tile n).flagEnds = some e) (hd : e ≤ d.sys.ticks)
    (hg : (d.tile n).gatedOff = false) : ((d.gatedFlagEnd n).tile n).flagEnds = none := by
  rw [Dev.gatedFlagEnd, d.tileFe_eq hn]
  dsimp only
  rw [hf]
  dsimp only
  rw [if_pos (by simp [hd, hg]), Dev.resumeCheck_tile _ hn, d.tile_modTile hn]
  exact TileFe.resumeCheck_read (g := TileFe.flagEnds) (fun _ _ _ _ => rfl) ..

theorem gatedFlagEnd_result (s : State) {n : Nat} (hn : n < 64) :
    ∃ t : State, exec (.gatedFlagEnd n) s = .next t ∧
      (∀ e, (s.dev.tile n).flagEnds = some e → e ≤ s.dev.sys.ticks → (s.dev.tile n).gatedOff = false →
        (t.dev.tile n).flagEnds = none) ∧
      ((∀ e, (s.dev.tile n).flagEnds = some e → s.dev.sys.ticks < e ∨ (s.dev.tile n).gatedOff = true) →
        t.dev.tile n = s.dev.tile n) :=
  ⟨s.onDev (·.gatedFlagEnd n), rfl, fun _ hf hd hg => Dev.gatedFlagEnd_due hn hf hd hg,
    fun he => congrArg (Dev.tile · n) (Dev.gatedFlagEnd_early hn he)⟩

/-! ### External triggers (R80, R185) -/

/-- Of the map, Slalom and the tiles, nothing but one tile differs. -/
structure Dev.TileOnly (d e : Dev) (n : Nat) : Prop where
  map : e.map = d.map
  slalom : e.slalom = d.slalom
  others : ∀ k ≠ n, e.tileFe k = d.tileFe k

theorem Dev.TileOnly.refl (d : Dev) (n : Nat) : d.TileOnly d n := ⟨rfl, rfl, fun _ _ => rfl⟩

theorem Dev.TileOnly.trans {a b c : Dev} {n : Nat} (h : a.TileOnly b n) (k : b.TileOnly c n) : a.TileOnly c n :=
  ⟨k.map.trans h.map, k.slalom.trans h.slalom, fun j hj => (k.others j hj).trans (h.others j hj)⟩

theorem Dev.modTile_tileOnly (d : Dev) (n : Nat) (f : TileFe → TileFe) : d.TileOnly (d.modTile n f) n :=
  ⟨rfl, rfl, fun k hk => (d.tileFe_modTile n k f).trans (if_neg (Ne.symm hk))⟩

theorem Dev.abortRun_loseTilePulses_tileOnly (d : Dev) (n cause : Nat) :
    d.TileOnly ((d.abortRun n cause).loseTilePulses n) n where
  map := ((d.abortRun n cause).loseTilePulses_hitsOnly n).map.trans (d.abortRun_map n cause)
  slalom := ((d.abortRun n cause).loseTilePulses_hitsOnly n).slalom.trans (d.abortRun_slalom n cause)
  others k hk := by
    rw [Dev.tileFe, ((d.abortRun n cause).loseTilePulses_keepsFe n).2]
    exact d.abortRun_tileFe_ne hk cause

theorem Dev.changeGate_tileOnly (d : Dev) (n restore : Nat) (f : TileFe → TileFe) : d.TileOnly (d.changeGate n restore f) n := by
  unfold Dev.changeGate
  split
  · exact .refl d n
  · dsimp only
    split
    · exact (d.abortRun_loseTilePulses_tileOnly n 1).trans (Dev.modTile_tileOnly ..)
    · split
      · exact d.modTile_tileOnly ..
      · exact d.modTile_tileOnly ..

theorem Dev.updateSource_tileOnly (d : Dev) (n : Nat) : d.TileOnly (d.updateSource n) n := by
  rw [Dev.updateSource, Dev.gateTile]
  exact d.changeGate_tileOnly ..

/-- The gate source of a tile is an external trigger input. -/
def Dev.follows (d : Dev) (xt n : Nat) : Prop := mapNum d.map.active 0x0013 0 (16 + 32 * n + 1) 1 0 = 2 + xt

theorem Dev.sourceAsks_of_follows {d : Dev} {xt n : Nat} (hxt : xt < 4) (hf : d.follows xt n) : d.sourceAsks n = d.xtNow xt := by
  rw [Dev.follows] at hf
  simp only [Dev.sourceAsks, hf]
  rw [if_neg (by omega), if_pos (by simp; omega), Nat.add_sub_cancel_left]

/-- A tile looks at its gate source where that is the input. -/
def Dev.hearXt (xt : Nat) (d : Dev) (n : Nat) : Dev :=
  if mapNum d.map.active 0x0013 0 (16 + 32 * n + 1) 1 0 == 2 + xt then d.updateSource n else d

theorem Dev.hearXt_tileOnly (d : Dev) (xt n : Nat) : d.TileOnly (d.hearXt xt n) n := by
  unfold Dev.hearXt
  split
  · exact d.updateSource_tileOnly n
  · exact .refl d n

theorem Dev.hearXt_of_not_follows {d : Dev} {xt n : Nat} (hf : ¬ d.follows xt n) : d.hearXt xt n = d :=
  if_neg (mt eq_of_beq hf)

theorem Dev.hearXt_sourceOff {d : Dev} {xt n : Nat} (hn : n < 64) (hxt : xt < 4) (hf : d.follows xt n) :
    ((d.hearXt xt n).tile n).sourceOff = d.xtNow xt := by
  rw [Dev.hearXt, if_pos (beq_iff_eq.2 hf), (d.updateSource_gates hn).1, Dev.sourceAsks_of_follows hxt hf]

/-- Slalom with the new level of an input (R185). -/
def Dev.noteXt (d : Dev) (xt : Nat) (level : Bool) (entry : Nat) : Dev :=
  { d with slalom := { d.slalom with
    xt := modAt d.slalom.xt xt fun l => (entry - (Config.xtDelay xt).toNat, level) :: recentLevels d.sys.ticks l } }

theorem Dev.xtEdge_eq (d : Dev) (xt : Nat) (level : Bool) (entry : Nat) :
    d.xtEdge xt level entry = (List.range 64).foldl (Dev.hearXt xt) (d.noteXt xt level entry) := rfl

theorem Dev.hearXts_keep (d : Dev) (xt : Nat) (l : List Nat) :
    (l.foldl (Dev.hearXt xt) d).map = d.map ∧ (l.foldl (Dev.hearXt xt) d).slalom = d.slalom :=
  List.foldlRecOn (motive := fun e : Dev => e.map = d.map ∧ e.slalom = d.slalom) l _ ⟨rfl, rfl⟩ fun e ⟨hm, hs⟩ n _ =>
    ⟨(e.hearXt_tileOnly xt n).map.trans hm, (e.hearXt_tileOnly xt n).slalom.trans hs⟩

/-- A tile with another gate source is as before. -/
theorem Dev.hearXts_tile_ne {d : Dev} {xt n : Nat} (hf : ¬ d.follows xt n) (l : List Nat) :
    (l.foldl (Dev.hearXt xt) d).tile n = d.tile n := by
  refine (List.foldlRecOn (motive := fun e : Dev => e.map = d.map ∧ e.tile n = d.tile n) l _ ⟨rfl, rfl⟩
    fun e ⟨hm, ht⟩ k _ => ⟨(e.hearXt_tileOnly xt k).map.trans hm, ?_⟩).2
  by_cases hk : n = k
  · subst hk
    rw [Dev.hearXt_of_not_follows (by rwa [Dev.follows, hm]), ht]
  · rw [Dev.tile_congr ((e.hearXt_tileOnly xt k).others n hk), ht]

/-- A tile whose gate source is the input takes its level. -/
theorem Dev.hearXts_sourceOff {d : Dev} {xt n : Nat} (hn : n < 64) (hxt : xt < 4) (hf : d.follows xt n) :
    (((List.range 64).foldl (Dev.hearXt xt) d).tile n).sourceOff = d.xtNow xt := by
  have hreach {e : Dev} (he : e.map = d.map ∧ e.slalom = d.slalom) : ((e.hearXt xt n).tile n).sourceOff = d.xtNow xt := by
    obtain ⟨hm, hs⟩ := he
    rw [Dev.hearXt_sourceOff hn hxt (by rwa [Dev.follows, hm]), Dev.xtNow, hs, Dev.xtNow]
  refine foldl_reaches (inv := fun e : Dev => e.map = d.map ∧ e.slalom = d.slalom)
    (goal := fun e => (e.tile n).sourceOff = d.xtNow xt)
    (fun e k ⟨hm, hs⟩ => ⟨(e.hearXt_tileOnly xt k).map.trans hm, (e.hearXt_tileOnly xt k).slalom.trans hs⟩)
    (fun e k he hg => ?_) (fun e he => hreach he) (List.mem_range.2 hn) ⟨rfl, rfl⟩
  by_cases hk : n = k
  · subst hk
    exact hreach he
  · rw [Dev.tile_congr ((e.hearXt_tileOnly xt k).others n hk)]
    exact hg

theorem Dev.noteXt_tile (d : Dev) (xt : Nat) (level : Bool) (entry n : Nat) : (d.noteXt xt level entry).tile n = d.tile n := rfl

theorem Dev.noteXt_follows (d : Dev) (xt : Nat) (level : Bool) (entry n : Nat) :
    (d.noteXt xt level entry).follows xt n ↔ d.follows xt n := Iff.rfl

theorem Dev.noteXt_head (d : Dev) {xt : Nat} (hxt : xt < 4) (level : Bool) (entry : Nat) :
    (getD (d.noteXt xt level entry).slalom.xt xt []).head? = some (entry - (Config.xtDelay xt).toNat, level) := by
  rw [Dev.noteXt, getD_modAt_same _ hxt]
  rfl

theorem xtEdge_result (s : State) {xt : Nat} (hxt : xt < 4) (entry : Nat) (level : Bool) :
    ∃ t : State, exec (.xtEdge xt ⟨level, entry⟩) s = .next t ∧
      (getD t.dev.slalom.xt xt []).head? = some (entry - (Config.xtDelay xt).toNat, level) ∧
      (∀ y < 4, y ≠ xt → getD t.dev.slalom.xt y [] = getD s.dev.slalom.xt y []) ∧
      ∀ n < 64, (s.dev.follows xt n → (t.dev.tile n).sourceOff = level) ∧
        (¬ s.dev.follows xt n → t.dev.tile n = s.dev.tile n) := by
  have hhead := s.dev.noteXt_head hxt level entry
  refine ⟨s.onDev (·.xtEdge xt level entry), rfl, ?_⟩
  rw [State.onDev_dev, Dev.xtEdge_eq, (Dev.hearXts_keep _ xt _).2]
  refine ⟨hhead, fun y _ hy => getD_modAt_ne _ hy _ _, fun n hn => ⟨fun hf => ?_, fun hf => ?_⟩⟩
  · rw [Dev.hearXts_sourceOff hn hxt ((s.dev.noteXt_follows ..).2 hf), Dev.xtNow, hhead]
    rfl
  · rw [Dev.hearXts_tile_ne (mt (s.dev.noteXt_follows ..).1 hf), Dev.noteXt_tile]

/-! ### The obligation -/

/-- Settles O40: what each row does to its own tile, and that a check asked for and an external trigger leave the tiles that they do
not name. -/
theorem tileRows : Obligations.TileRows := by
  refine ⟨fun h f l => ⟨feOpenCheck_refuses h, fun hfl hl => feOpenCheck_answers h hfl hl⟩, fun s n hn => ?_,
    fun s xt entry level hxt => xtEdge_result s hxt entry level⟩
  exact ⟨biasRampDone_result s hn, biasCurrentLimitOff_result s hn, biasOutOfTolerance_result s hn, openCheckDue_result s hn,
    openCheckCompare_result s hn, openCheckEnd_result s hn, gatePeriodEdge_result s hn, gatedFlagEnd_result s hn,
    gatePulseEnd_result s hn⟩

end Sys2Proof.Machine
end

section
/-! Proofs about a step on an empty queue and about the clocks of a tick (R9, R144, R573). -/

namespace Sys2Proof.Machine

theorem step_of_pending_nil {s : State} (hq : s.pending = []) : step s = .next s.tick := by rw [step, hq]

/-- In Off only the time since the latest Offs of cause 0x0042 goes on. -/
theorem State.tick_of_off {s : State} (hoff : s.dev.sys.state = .off) : s.tick = s.onDev (·.ageOffs) := by
  rw [State.tick, hoff]
  rfl

theorem Dev.advance_ticks (d : Dev) : d.advance.sys.ticks = d.sys.ticks + 1 := by
  have hsys : (if d.timeRuns then { d with time := d.time.advance } else d).sys = d.sys := by split <;> rfl
  exact congrArg (·.ticks + 1) hsys

theorem Dev.advance_time_of_runs {d : Dev} (hr : d.timeRuns = true) : d.advance.time = d.time.advance := by
  rw [Dev.advance, if_pos hr]

theorem TimeState.advance_within {t : TimeState} (ht : t.tick < 2559999999) : t.advance = { t with tick := t.tick + 1 } :=
  if_pos (Nat.succ_lt_succ ht)

theorem TimeState.advance_over {t : TimeState} (ht : 2559999999 ≤ t.tick) :
    t.advance = { t with tick := 0, seconds := (t.seconds + 1) % 2 ^ 40 } :=
  if_neg (Nat.not_lt.2 (Nat.succ_le_succ ht))

/-- Settles O2: the empty queue and Off by the branches of `step` and `State.tick`, the time word by those of its advance. -/
theorem emptyQueueTick : Obligations.EmptyQueueTick := by
  refine ⟨fun s => step_of_pending_nil, fun s hq hoff => ?_, Dev.advance_ticks, fun d hr ht => ?_, fun d hr ht => ?_⟩
  · rw [step_of_pending_nil hq, State.tick_of_off hoff]
    rfl
  · rw [Dev.advance_time_of_runs hr, TimeState.advance_within ht]
  · rw [Dev.advance_time_of_runs hr, TimeState.advance_over ht]

end Sys2Proof.Machine
end

section
/-! Proofs about the ready flags, the alignment state and the source in use: what bringing the flags up to date and what a switch
leave as they were (R134 to R145), and the commands of the time group (R162). -/

namespace Sys2Proof.Machine

/-! ### One source -/

/-- A change of a source is a change of the three sources alone. -/
theorem Dev.modSource_eq (d : Dev) (x : Nat) (f : Source → Source) :
    ∃ a b c, d.modSource x f = d.modTime fun t => { t with refA := a, refB := b, int := c } := by
  unfold Dev.modSource Dev.modTime
  by_cases h0 : x = 0
  · exact ⟨f d.time.refA, d.time.refB, d.time.int, by simp only [h0, if_true]⟩
  by_cases h1 : x = 1
  · exact ⟨d.time.refA, f d.time.refB, d.time.int, by simp [h1]⟩
  by_cases h2 : x = 2
  · exact ⟨d.time.refA, d.time.refB, f d.time.int, by simp [h2]⟩
  · exact ⟨d.time.refA, d.time.refB, d.time.int, by simp [h0, h1, h2]⟩

theorem Dev.source_modSource (d : Dev) {x y : Nat} (hx : x ≤ 2) (hy : y ≤ 2) (f : Source → Source) :
    (d.modSource x f).time.source y = if y = x then f (d.time.source y) else d.time.source y := by
  have hx : x = 0 ∨ x = 1 ∨ x = 2 := by omega
  have hy : y = 0 ∨ y = 1 ∨ y = 2 := by omega
  obtain rfl | rfl | rfl := hx <;> obtain rfl | rfl | rfl := hy <;> rfl

/-- A reading of the device that does not look at the sources stays with a change of one. -/
theorem Dev.modSource_read {α : Type} (d : Dev) (x : Nat) (f : Source → Source) (g : Dev → α)
    (hg : ∀ (d : Dev) a b c, g (d.modTime fun t => { t with refA := a, refB := b, int := c }) = g d) :
    g (d.modSource x f) = g d := by
  obtain ⟨a, b, c, h⟩ := d.modSource_eq x f
  rw [h, hg]

/-! ### The ready flags (R135, R139) -/

/-- A state with the ready flags, the wait of R139 and the queues that events join left out of account. -/
def Dev.besideReady (d : Dev) : Dev :=
  { d.rest with time := { d.time with
    refA := { d.time.refA with ready := false }, refB := { d.time.refB with ready := false }
    int := { d.time.int with ready := false }, readySince := none } }

/-- Nothing differs but the ready flags, the wait of R139 and the queues. -/
def Dev.ReadyOnly (d e : Dev) : Prop := e.besideReady = d.besideReady

theorem Dev.ReadyOnly.trans {a b c : Dev} (h : a.ReadyOnly b) (k : b.ReadyOnly c) : a.ReadyOnly c := Eq.trans k h

theorem Dev.QueuesOnly.readyOnly {d e : Dev} (h : d.QueuesOnly e) : d.ReadyOnly e :=
  (congrArg Dev.besideReady (show e.rest = d.rest from h) :)

/-- A reading of the device that does not look at the ready flags. -/
theorem Dev.ReadyOnly.read {α : Type} {d e : Dev} (h : d.ReadyOnly e) (g : Dev → α) (hg : ∀ d : Dev, g d.besideReady = g d) :
    g e = g d := by
  rw [← hg e, show e.besideReady = d.besideReady from h, hg]

theorem Dev.besideReady_source (d : Dev) (x : Nat) :
    d.besideReady.time.source x = { d.time.source x with ready := false } := by
  unfold TimeState.source
  split
  · rfl
  · split <;> rfl

/-- A reading of a source that does not look at its ready flag. -/
theorem Dev.ReadyOnly.source {α : Type} {d e : Dev} (h : d.ReadyOnly e) (x : Nat) (g : Source → α)
    (hg : ∀ a : Source, g { a with ready := false } = g a) : g (e.time.source x) = g (d.time.source x) :=
  h.read (fun d => g (d.time.source x)) fun d => by rw [d.besideReady_source, hg]

theorem Dev.ReadyOnly.present {d e : Dev} (h : d.ReadyOnly e) (x : Nat) :
    (e.time.source x).present = (d.time.source x).present := h.source x Source.present fun _ => rfl

theorem Dev.ReadyOnly.failed {d e : Dev} (h : d.ReadyOnly e) (x : Nat) :
    (e.time.source x).failed = (d.time.source x).failed := h.source x Source.failed fun _ => rfl

theorem Dev.ReadyOnly.cause {d e : Dev} (h : d.ReadyOnly e) (x : Nat) :
    (e.time.source x).cause = (d.time.source x).cause := h.source x Source.cause fun _ => rfl

theorem Dev.ReadyOnly.inUse {d e : Dev} (h : d.ReadyOnly e) : e.time.inUse = d.time.inUse := h.read (·.time.inUse) fun _ => rfl

theorem Dev.ReadyOnly.alignment {d e : Dev} (h : d.ReadyOnly e) : e.time.alignment = d.time.alignment :=
  h.read (·.time.alignment) fun _ => rfl

theorem Dev.ReadyOnly.discard {d e : Dev} (h : d.ReadyOnly e) : e.time.discard = d.time.discard :=
  h.read (·.time.discard) fun _ => rfl

theorem Dev.ReadyOnly.map {d e : Dev} (h : d.ReadyOnly e) : e.map = d.map := h.read (·.map) fun _ => rfl

theorem Dev.ReadyOnly.sys {d e : Dev} (h : d.ReadyOnly e) : e.sys = d.sys := h.read (·.sys) fun _ => rfl

theorem Dev.setReady_readyOnly (d : Dev) (x : Nat) (r : Bool) : d.ReadyOnly (d.modSource x fun s => { s with ready := r }) := by
  unfold Dev.modSource Dev.modTime
  split
  · rfl
  split
  · rfl
  split <;> rfl

theorem Dev.refreshOne_readyOnly (d : Dev) (x : Nat) : d.ReadyOnly (d.refreshOne x) := by
  unfold Dev.refreshOne
  dsimp only
  split
  · rfl
  · exact (d.setReady_readyOnly x _).trans (Dev.raise_only ..).readyOnly

theorem Dev.refreshReturn_readyOnly (d : Dev) : d.ReadyOnly d.refreshReturn := rfl

/-- Bringing the ready flags up to date changes nothing else. -/
theorem Dev.refreshReady_readyOnly (d : Dev) : d.ReadyOnly d.refreshReady :=
  (((d.refreshOne_readyOnly 0).trans (Dev.refreshOne_readyOnly _ 1)).trans (Dev.refreshOne_readyOnly _ 2)).trans
    (Dev.refreshReturn_readyOnly _)

/-! ### The alignment state (R145) -/

theorem Dev.reportState_only (d : Dev) (old : Nat) : d.QueuesOnly (d.reportState old) := by
  unfold Dev.reportState
  split
  · exact .refl d
  · exact d.raise_only ..

theorem Dev.setAlignment_only (d : Dev) (a : Alignment) :
    Dev.QueuesOnly (d.modTime fun t => { t with alignment := a }) (d.setAlignment a) := Dev.reportState_only ..

@[simp] theorem Dev.setAlignment_time (d : Dev) (a : Alignment) : (d.setAlignment a).time = { d.time with alignment := a } :=
  (d.setAlignment_only a).time

@[simp] theorem Dev.setAlignment_map (d : Dev) (a : Alignment) : (d.setAlignment a).map = d.map := (d.setAlignment_only a).map

@[simp] theorem Dev.setAlignment_sys (d : Dev) (a : Alignment) : (d.setAlignment a).sys = d.sys := (d.setAlignment_only a).sys

/-! ### Switches (R136 to R138) -/

/-- A state with another source in use, the window under way discarded, and the slew that the switch starts or ends. -/
def Dev.switched (d : Dev) (x cause : Nat) : Dev := d.modTime fun t => { t with
  inUse := x, discard := true, slewFrom := if cause = 1 then none else some d.time.inUse
  slewEnds := d.sys.ticks + d.slewTicks (d.slewMove d.time.inUse x), slewUp := Decidable.decide (0 < d.slewMove d.time.inUse x)
  steerLeft := 0 }

theorem Dev.switchTo_readyOnly (d : Dev) (x cause : Nat) : (d.switched x cause).ReadyOnly (d.switchTo x cause) :=
  (Dev.raise_only ..).readyOnly.trans (Dev.refreshReturn_readyOnly _)

/-- What a switch by command or by the automatic return does (R137). -/
theorem Dev.commandedSwitch_fields (d : Dev) (x : Nat) {cause : Nat} (hc : cause ≠ 1) :
    let t := d.commandedSwitch x cause
    t.time.inUse = x ∧ t.time.slewFrom = some d.time.inUse ∧ t.time.discard = true ∧ t.time.steerLeft = 0 ∧
      t.time.alignment = alignAfterSwitch d.time x ∧ t.time.seconds = d.time.seconds ∧ t.time.tick = d.time.tick ∧
      t.map = d.map ∧ t.sys = d.sys := by
  have h := d.switchTo_readyOnly x cause
  dsimp only [Dev.commandedSwitch]
  rw [Dev.setAlignment_time, Dev.setAlignment_map, Dev.setAlignment_sys]
  refine ⟨h.inUse, ?_, h.discard, h.read (·.time.steerLeft) fun _ => rfl, rfl, h.read (·.time.seconds) fun _ => rfl,
    h.read (·.time.tick) fun _ => rfl, h.map, h.sys⟩
  exact (h.read (·.time.slewFrom) fun _ => rfl).trans (if_neg hc)

theorem alignAfterSwitch_eq (t : TimeState) (x : Nat) :
    alignAfterSwitch t x = if t.alignment = .ambiguous then .ambiguous
      else if x = 2 ∧ (t.alignment ≠ .free ∨ t.aligned = true) then .holdover else .free := by
  unfold alignAfterSwitch
  cases t.alignment <;> simp

theorem Dev.askedSwitch_of_not {d : Dev} {x : Nat} (hno : ¬ ((d.time.source x).ready = true ∧ d.time.inUse ≠ x)) :
    d.askedSwitch x = d := by
  rw [Dev.askedSwitch, if_neg (by simpa using hno)]

theorem Dev.askedSwitch_of_ready {d : Dev} {x : Nat} (hr : (d.time.source x).ready = true) (hu : d.time.inUse ≠ x) :
    d.askedSwitch x = d.commandedSwitch x 0 := by
  rw [Dev.askedSwitch, if_pos (by simp [hr, hu])]

/-! ### The commands of the time group (R148, R149, R155, R162) -/

theorem Spread.legal_iff (a b c e : Nat) :
    Spread.legal ⟨a, b, c, e⟩ = true ↔ a ≤ 24 ∧ b ≤ 24 ∧ (4 ≤ c ∧ c ≤ 100) ∧ 4 ≤ e ∧ e ≤ 100 := by
  simp [Spread.legal, and_assoc]

section Commands
variable (h : CmdHeader)

theorem timeSetSeconds_answers (v : Nat) :
    Answers (.timeSetSeconds h v) h 0x0402 [.standby, .ready] always .ok (fun _ => [])
      (devOnly fun d => { d with time := { d.time with pendingSeconds := some v } }) :=
  .of (k := timeSetSecondsKind) rfl rfl fun _ _ => onDev_devOnly rfl

/-- TIME.ALIGN has to wait for an edge or an exchange of the source in use, with no slew under way (R148, R161). -/
theorem timeAlign_answers :
    let legal : List DevState := [.standby, .ready]
    let fits := fun (s : State) => s.dev.time.inUse = 1 ∨ (s.dev.time.inUse = 0 ∧ s.dev.time.pps = true)
    Answers (.timeAlign h) h 0x0403 legal (fun s => s.dev.time.slewFrom ≠ none) .wrongState (fun _ => []) unchanged ∧
    Answers (.timeAlign h) h 0x0403 legal (fun s => s.dev.time.slewFrom = none ∧ ¬ fits s) .notReady (fun _ => []) unchanged ∧
    AnswersLater (.timeAlign h) h 0x0403 legal (fun s => s.dev.time.slewFrom = none ∧ fits s)
      (fun s => s.onDev fun d => { d with time := { d.time with
        pendingAlign := d.time.pendingAlign ++ [⟨h, 0x0403, none, d.now⟩] } }) := by
  have hguard (t : TimeState) : (t.inUse = 1 || (t.inUse = 0 && t.pps)) = true ↔
      t.inUse = 1 ∨ (t.inUse = 0 ∧ t.pps = true) := by
    simp
  refine ⟨.of (k := timeAlignKind) rfl rfl fun s hs => ?_, .of (k := timeAlignKind) rfl rfl ?_,
    .of (k := timeAlignKind) rfl rfl ?_⟩
  · exact onDev_unchanged (if_pos (Option.isSome_iff_ne_none.2 hs))
  · rintro s ⟨hs, hf⟩
    exact onDev_unchanged ((if_neg (Option.not_isSome_iff_eq_none.2 hs)).trans (if_neg (mt (hguard _).1 hf)))
  · rintro s ⟨hs, hf⟩
    exact onDev_devOnly (g := fun d => { d with time := { d.time with
        pendingAlign := d.time.pendingAlign ++ [⟨h, 0x0403, none, d.now⟩] } })
      ((if_neg (Option.not_isSome_iff_eq_none.2 hs)).trans (if_pos ((hguard _).2 hf)))

theorem timeSetSpread_answers (a b c e : Nat) :
    let ok := a ≤ 24 ∧ b ≤ 24 ∧ (4 ≤ c ∧ c ≤ 100) ∧ 4 ≤ e ∧ e ≤ 100
    let legal : List DevState := [.standby, .ready, .running]
    (ok → Answers (.timeSetSpread h a b c e) h 0x0405 legal always .ok (fun _ => [])
      (devOnly fun d => { d with time := { d.time with pendingSpread := some ⟨a, b, c, e⟩ } })) ∧
    (¬ ok → Answers (.timeSetSpread h a b c e) h 0x0405 legal always .outOfRange (fun _ => []) unchanged) := by
  refine ⟨fun hok => .of (k := timeSetSpreadKind) rfl rfl fun _ _ => ?_,
    fun hno => .of (k := timeSetSpreadKind) rfl rfl fun _ _ => ?_⟩
  · exact onDev_devOnly (if_pos ((Spread.legal_iff ..).2 hok))
  · exact onDev_unchanged (if_neg (mt (Spread.legal_iff ..).1 hno))

theorem timeClearFail_refuses {x : Nat} (hx : 2 < x) :
    Answers (.timeClearFail h x) h 0x0404 workStates always .outOfRange (fun _ => []) unchanged :=
  .of (k := timeClearFailKind) rfl rfl fun _ _ => onDev_unchanged (if_pos hx)

/-- A failure cleared leaves the other sources, presence and the source in use (R134). -/
theorem timeClearFail_answers {x : Nat} (hx : x ≤ 2) :
    AnswersWith (.timeClearFail h x) h 0x0404 workStates always .ok fun s t =>
      (t.dev.time.source x).failed = false ∧ (t.dev.time.source x).cause = 0 ∧ t.dev.time.inUse = s.dev.time.inUse ∧
      t.dev.time.alignment = s.dev.time.alignment ∧
      ∀ y ≤ 2, (t.dev.time.source y).present = (s.dev.time.source y).present ∧
        (y ≠ x → (t.dev.time.source y).failed = (s.dev.time.source y).failed ∧
          (t.dev.time.source y).cause = (s.dev.time.source y).cause) := by
  refine .of (k := timeClearFailKind) rfl rfl fun s _ => ?_
  generalize s.taken h timeClearFailKind.opcode = s
  let cleared := s.dev.modSource x fun a => { a with failed := false, cause := 0 }
  have hready : cleared.ReadyOnly cleared.refreshReady := cleared.refreshReady_readyOnly
  have hsource {y : Nat} (hy : y ≤ 2) := s.dev.source_modSource hx hy fun a => { a with failed := false, cause := 0 }
  refine ⟨s.onDev fun _ => cleared.refreshReady, ⟨?_, ?_, ?_, ?_, fun y hy => ⟨?_, fun hne => ?_⟩⟩,
    onDev_devOnly (g := fun _ => cleared.refreshReady) (if_neg (Nat.not_lt.2 hx))⟩
  · rw [State.onDev_dev, hready.failed, hsource hx, if_pos rfl]
  · rw [State.onDev_dev, hready.cause, hsource hx, if_pos rfl]
  · rw [State.onDev_dev, hready.inUse]
    exact s.dev.modSource_read x _ (·.time.inUse) fun _ _ _ _ => rfl
  · rw [State.onDev_dev, hready.alignment]
    exact s.dev.modSource_read x _ (·.time.alignment) fun _ _ _ _ => rfl
  · rw [State.onDev_dev, hready.present, hsource hy]
    split <;> rfl
  · rw [State.onDev_dev, hready.failed, hready.cause, hsource hy, if_neg hne]
    exact ⟨rfl, rfl⟩

end Commands

/-- Settles O44: each command by the branches of its effect, and the switch that a tick brings by what a commanded switch does. -/
theorem timeCommands : Obligations.TimeCommands := by
  refine ⟨fun h => ⟨timeSetSeconds_answers h, timeAlign_answers h, timeSetSpread_answers h,
    fun x hx => timeClearFail_refuses h hx, fun x hx => timeClearFail_answers h hx⟩, fun h d x _ => ⟨fun hno => ?_, ?_⟩⟩
  · exact Dev.askedSwitch_of_not hno
  · rintro ⟨hr, hu⟩
    rw [show applyDeferred (.timeSwitchSource h x) d = d.commandedSwitch x 0 from Dev.askedSwitch_of_ready hr hu,
      ← alignAfterSwitch_eq]
    exact d.commandedSwitch_fields x (by decide)

end Sys2Proof.Machine
end

section
/-! Proofs about the rows of the reference sources (R129): REF B becomes present only under a condition of its own. -/

namespace Sys2Proof.Machine

/-- REF B stays absent until Kn of the active uplink port has been locked for 10 ms (R129). -/
theorem sourcePresent_refB_of_not_may {s : State} (hm : s.dev.refBMayCome = false) : exec (.sourcePresent 1) s = .next s :=
  next_onDev_self (by simp [hm])

/-- Refutes O45: the statement says that SOURCE_PRESENT makes every absent source present. Right after reset no map is active, so
no uplink port has its Kn locked, and the row leaves REF B absent, as R129 asks. -/
theorem not_sourceRows : ¬ Obligations.SourceRows := by
  intro h
  have hsources := (h.1 State.reset 1).2.1
  obtain ⟨t, ht, hpresent, -⟩ := hsources (by decide) rfl
  have hstay : exec (.sourcePresent 1) State.reset = .next State.reset := sourcePresent_refB_of_not_may rfl
  obtain rfl : State.reset = t := Host.Outcome.next.inj (hstay.symm.trans ht)
  exact absurd hpresent (by decide)

end Sys2Proof.Machine
end

section
/-! Proofs about PPS edges and second boundaries: what a phase error, a waiting TIME.ALIGN and a waiting value do to the time base
(R129, R144 to R149, R155). -/

namespace Sys2Proof.Machine

/-! ### Rows and the time base -/

/-- Rows that do the same to the device of a state lead to the same state. -/
theorem next_onDev_congr {s : State} {f g : Dev → Dev} (h : f s.dev = g s.dev) :
    (.next (s.onDev f) : Host.Outcome State Fault Refusal) = .next (s.onDev g) := by
  rw [State.onDev, State.onDev, h]

theorem Dev.QueuesOnly.modTime {d e : Dev} (h : d.QueuesOnly e) (f : TimeState → TimeState) :
    (d.modTime f).QueuesOnly (e.modTime f) := (congrArg (fun r : Dev => r.modTime f) (show e.rest = d.rest from h) :)

/-! ### A phase error judged (R144 to R146) -/

/-- A state with a new phase error, which steering is to remove where it may use it. -/
def Dev.withPhase (d : Dev) (ps : Int) (used : Bool) : Dev :=
  d.modTime fun t => { t with phaseError := ps, steerLeft := if used then ps else t.steerLeft }

/-- A new phase error changes the error, what steering has left and the alignment state. -/
theorem Dev.judgePhase_only (d : Dev) (ps : Int) (used : Bool) : ∃ a,
    Dev.QueuesOnly ((d.withPhase ps used).modTime fun t => { t with alignment := a }) (d.judgePhase ps used) := by
  unfold Dev.judgePhase
  extract_lets e inside
  have hstay : Dev.QueuesOnly ((d.withPhase ps used).modTime fun t => { t with alignment := d.time.alignment }) e := rfl
  split
  · split
    · exact ⟨_, hstay⟩
    · exact ⟨_, e.setAlignment_only _⟩
  · exact ⟨_, hstay⟩
  · split
    · exact ⟨_, e.setAlignment_only _⟩
    · exact ⟨_, hstay⟩

theorem Dev.judgePhase_schuss (d : Dev) (ps : Int) (used : Bool) : (d.judgePhase ps used).schuss = d.schuss := by
  obtain ⟨a, h⟩ := d.judgePhase_only ps used
  exact h.schuss

theorem Dev.reportState_time (d : Dev) (old : Nat) : (d.reportState old).time = d.time := (d.reportState_only old).time

theorem Dev.reportState_schuss (d : Dev) (old : Nat) : (d.reportState old).schuss = d.schuss := (d.reportState_only old).schuss

/-! ### TIME.ALIGN acts (R148) -/

/-- The final replies of several commands leave the time base and the Schuss lanes. -/
theorem Dev.finishAll_keep (st : Status) (data : List Byte) (cs : List Ctx) (d : Dev) :
    (cs.foldl (fun d c => d.finish c st data) d).time = d.time ∧ (cs.foldl (fun d c => d.finish c st data) d).schuss = d.schuss :=
  List.foldlRecOn (motive := fun e : Dev => e.time = d.time ∧ e.schuss = d.schuss) cs _ ⟨rfl, rfl⟩ fun e ⟨ht, hs⟩ c _ =>
    ⟨(e.finish_time c st data).trans ht, (e.finish_schuss c st data).trans hs⟩

/-- The tick count since second 0 that a step of the time word by fine bins leads to. -/
def Dev.steppedTo (d : Dev) (fine : Nat) (step : Int) : Nat :=
  ((((d.globalFine fine : Nat) : Int) + step) % ((2 ^ 40 * fineSecond : Nat) : Int)).toNat / 128

/-- In Standby and Ready one step makes the error zero, and the time word is LOCKED. -/
theorem Dev.alignNow_steps {d : Dev} (hp : d.time.pendingAlign ≠ []) (hs : d.sys.state = .standby ∨ d.sys.state = .ready)
    (fine : Nat) (err : Int) (b : Bool) : (d.alignNow fine err b).time =
      { d.time with
        seconds := d.steppedTo fine (-err) / ticksPerSecond, tick := d.steppedTo fine (-err) % ticksPerSecond
        alignment := .locked, aligned := true, phaseError := 0, steerLeft := 0, secondsSet := d.time.secondsSet || b
        pendingAlign := [] } := by
  obtain ⟨c, cs, hcs⟩ := List.exists_cons_of_ne_nil hp
  simp only [Dev.alignNow, hcs]
  rw [if_pos (by simpa using hs), Dev.reportState_time, (Dev.finishAll_keep ..).1, Dev.finish_time]
  rfl

theorem Dev.alignNow_refuses {d : Dev} (hs : ¬ (d.sys.state = .standby ∨ d.sys.state = .ready))
    (fine : Nat) (err : Int) (b : Bool) : (d.alignNow fine err b).time = { d.time with pendingAlign := [] } := by
  unfold Dev.alignNow
  split
  · next hp => rw [← hp]
  · dsimp only
    rw [if_neg (by simpa using hs), (Dev.finishAll_keep ..).1]
    rfl

theorem Dev.alignNow_schuss (d : Dev) (fine : Nat) (err : Int) (b : Bool) : (d.alignNow fine err b).schuss = d.schuss := by
  unfold Dev.alignNow
  split
  · rfl
  · dsimp only
    split
    · rw [Dev.reportState_schuss, (Dev.finishAll_keep ..).2, Dev.finish_schuss]
      rfl
    · rw [(Dev.finishAll_keep ..).2]
      rfl

/-! ### PPS edges (R129, R146) -/

/-- What a PPS edge looks at and TIME.ALIGN leaves alone: the latest edge, presence and the source in use. -/
def TimeState.ppsView (t : TimeState) : Option Nat × Bool × Nat := (t.ppsLast, t.pps, t.inUse)

theorem Dev.judgePhase_ppsView (d : Dev) (ps : Int) (used : Bool) : (d.judgePhase ps used).time.ppsView = d.time.ppsView := by
  obtain ⟨a, h⟩ := d.judgePhase_only ps used
  rw [h.time]
  rfl

theorem Dev.alignNow_ppsView {d : Dev} (hp : d.time.pendingAlign ≠ []) (fine : Nat) (err : Int) (b : Bool) :
    (d.alignNow fine err b).time.ppsView = d.time.ppsView := by
  by_cases hs : d.sys.state = .standby ∨ d.sys.state = .ready
  · rw [Dev.alignNow_steps hp hs]
    rfl
  · rw [Dev.alignNow_refuses hs]
    rfl

/-- An edge here comes one second after the latest one. -/
def Dev.ppsRegular (d : Dev) (here : Nat) : Bool :=
  d.time.ppsLast.any fun l => inPpsWindow d.map.active ((here : Int) - (l : Int) - ((fineSecond : Nat) : Int))

/-- A state with a PPS edge noted. -/
def Dev.ppsSeen (d : Dev) (here : Nat) : Dev :=
  d.modTime fun t => { t with ppsLast := some here, pps := t.pps || d.ppsRegular here }

theorem Dev.ppsPresence_readyOnly (d : Dev) (here : Nat) (ps : Int) : (d.ppsSeen here).ReadyOnly (d.ppsPresence here ps) := by
  unfold Dev.ppsPresence
  extract_lets regular comes e
  have he : e = d.ppsSeen here := rfl
  rw [← he]
  split
  · exact (e.raise_only ..).readyOnly.trans (Dev.refreshReady_readyOnly _)
  · rfl

/-- The phase error of an edge in fine bins (R146). -/
def Dev.edgeError (d : Dev) (fine : Nat) : Int := ppsError d.map.active (d.globalFine fine)

/-- The edge is a measurement of the source in use: PPS is present and REF A in use. -/
def Dev.edgeUsed (d : Dev) (fine : Nat) : Prop :=
  d.time.inUse = 0 ∧ (d.time.pps || d.ppsRegular (d.sys.ticks * 128 + fine)) = true

theorem Dev.ppsEdge_notUsed {d : Dev} {fine : Nat} (hu : ¬ d.edgeUsed fine) :
    (d.ppsSeen (d.sys.ticks * 128 + fine)).ReadyOnly (d.ppsEdge fine) := by
  have h := d.ppsPresence_readyOnly (d.sys.ticks * 128 + fine) (halfFinePs (2 * d.edgeError fine))
  unfold Dev.ppsEdge
  extract_lets err ps e inside
  have h : (d.ppsSeen (d.sys.ticks * 128 + fine)).ReadyOnly e := h
  have hno : ¬ (e.time.inUse = 0 ∧ e.time.pps = true) := by
    rw [h.inUse, h.read (·.time.pps) fun _ => rfl]
    exact hu
  clear_value e
  rw [if_neg (by simpa using hno)]
  exact h

theorem Dev.ppsEdge_used {d : Dev} {fine : Nat} (hu : d.edgeUsed fine) :
    ∃ e, (d.ppsSeen (d.sys.ticks * 128 + fine)).ReadyOnly e ∧
      d.ppsEdge fine = if d.time.pendingAlign.isEmpty
        then e.judgePhase (halfFinePs (2 * d.edgeError fine)) (inPpsWindow d.map.active (d.edgeError fine))
        else e.alignNow fine (d.edgeError fine) false := by
  have h := d.ppsPresence_readyOnly (d.sys.ticks * 128 + fine) (halfFinePs (2 * d.edgeError fine))
  unfold Dev.ppsEdge
  extract_lets err ps e inside e'
  have h : (d.ppsSeen (d.sys.ticks * 128 + fine)).ReadyOnly e := h
  have hinside : inside = inPpsWindow d.map.active (d.edgeError fine) := by
    change inPpsWindow e.map.active _ = _
    rw [h.map]
    rfl
  have hyes : e.time.inUse = 0 ∧ e.time.pps = true := by
    rw [h.inUse, h.read (·.time.pps) fun _ => rfl]
    exact hu
  have h' : e.ReadyOnly e' := by
    unfold e'
    split
    · rfl
    · exact (e.raise_only ..).readyOnly
  have hpending : e'.time.pendingAlign = d.time.pendingAlign := (h.trans h').read (·.time.pendingAlign) fun _ => rfl
  refine ⟨e', h.trans h', ?_⟩
  clear_value e'
  rw [if_pos (by simpa using hyes), hpending, hinside]
  rfl

theorem Dev.ppsEdge_ppsView (d : Dev) (fine : Nat) :
    (d.ppsEdge fine).time.ppsView = (d.ppsSeen (d.sys.ticks * 128 + fine)).time.ppsView := by
  by_cases hu : d.edgeUsed fine
  · obtain ⟨e, he, hedge⟩ := Dev.ppsEdge_used hu
    have hseen := he.read (·.time.ppsView) fun _ => rfl
    rw [hedge, ← hseen]
    split
    · exact e.judgePhase_ppsView ..
    · next hp =>
      refine Dev.alignNow_ppsView (fun hnil => hp ?_) ..
      rw [List.isEmpty_iff, ← hnil]
      exact (he.read (·.time.pendingAlign) fun _ => rfl).symm
  · exact (Dev.ppsEdge_notUsed hu).read (·.time.ppsView) fun _ => rfl

theorem Dev.ppsRegular_iff (d : Dev) (here : Nat) : d.ppsRegular here = true ↔
    ∃ l, d.time.ppsLast = some l ∧ inPpsWindow d.map.active ((here : Int) - (l : Int) - ((fineSecond : Nat) : Int)) = true := by
  unfold Dev.ppsRegular
  cases d.time.ppsLast <;> simp

theorem ppsEdge_result (s : State) (fine : Nat) :
    let here := s.dev.sys.ticks * 128 + fine
    let err := ppsError s.dev.map.active (s.dev.globalFine fine)
    let m := s.dev.map.active
    let comes := s.dev.time.pps = true ∨
      ∃ l, s.dev.time.ppsLast = some l ∧ inPpsWindow m ((here : Int) - (l : Int) - ((fineSecond : Nat) : Int)) = true
    let used := s.dev.time.inUse = 0 ∧ comes
    ∃ t : State, exec (.ppsEdge fine) s = .next t ∧ t.dev.time.ppsLast = some here ∧ (t.dev.time.pps = true ↔ comes) ∧
      t.dev.time.inUse = s.dev.time.inUse ∧
      (¬ used → t.dev.time.phaseError = s.dev.time.phaseError ∧ t.dev.time.alignment = s.dev.time.alignment ∧
        t.dev.time.pendingAlign = s.dev.time.pendingAlign) ∧
      (used → s.dev.time.pendingAlign = [] → t.dev.time.phaseError = halfFinePs (2 * err) ∧
        t.dev.time.seconds = s.dev.time.seconds ∧ t.dev.time.tick = s.dev.time.tick) ∧
      (used → s.dev.time.pendingAlign ≠ [] → s.dev.sys.state = .standby ∨ s.dev.sys.state = .ready →
        t.dev.time.alignment = .locked ∧ t.dev.time.aligned = true ∧ t.dev.time.phaseError = 0 ∧
        t.dev.time.pendingAlign = [] ∧
        (let w := (((s.dev.globalFine fine : Int) - err) % ((2 ^ 40 * fineSecond : Nat) : Int)).toNat / 128
         t.dev.time.seconds = w / 2560000000 ∧ t.dev.time.tick = w % 2560000000)) := by
  intro here err m comes used
  have hcomes : (s.dev.time.pps || s.dev.ppsRegular here) = true ↔ comes := by
    rw [Bool.or_eq_true, Dev.ppsRegular_iff]
  have hused : s.dev.edgeUsed fine ↔ used := and_congr_right fun _ => hcomes
  have hview := s.dev.ppsEdge_ppsView fine
  refine ⟨s.onDev (·.ppsEdge fine), rfl, congrArg Prod.fst hview, ?_, congrArg (·.2.2) hview, fun hu => ?_, fun hu hp => ?_,
    fun hu hp hs => ?_⟩
  · rw [← hcomes]
    exact Bool.eq_iff_iff.1 (congrArg (·.2.1) hview)
  · have h := Dev.ppsEdge_notUsed (mt hused.1 hu)
    exact ⟨h.read (·.time.phaseError) fun _ => rfl, h.alignment, h.read (·.time.pendingAlign) fun _ => rfl⟩
  · obtain ⟨e, he, hedge⟩ := Dev.ppsEdge_used (hused.2 hu)
    rw [hp, List.isEmpty_nil, if_pos rfl] at hedge
    obtain ⟨a, ha⟩ := e.judgePhase_only (halfFinePs (2 * s.dev.edgeError fine)) (inPpsWindow m (s.dev.edgeError fine))
    rw [State.onDev_dev, hedge, ha.time]
    exact ⟨rfl, he.read (·.time.seconds) fun _ => rfl, he.read (·.time.tick) fun _ => rfl⟩
  · obtain ⟨e, he, hedge⟩ := Dev.ppsEdge_used (hused.2 hu)
    have hpending : e.time.pendingAlign ≠ [] := by
      rw [he.read (·.time.pendingAlign) fun _ => rfl]
      exact hp
    have hstate : e.sys.state = .standby ∨ e.sys.state = .ready := by
      rw [he.sys]
      exact hs
    have hstep : e.steppedTo fine (-s.dev.edgeError fine) = s.dev.steppedTo fine (-s.dev.edgeError fine) :=
      he.read (·.steppedTo fine (-s.dev.edgeError fine)) fun _ => rfl
    rw [if_neg (mt List.isEmpty_iff.1 hp)] at hedge
    rw [State.onDev_dev, hedge, Dev.alignNow_steps hpending hstate, hstep]
    exact ⟨rfl, rfl, rfl, rfl, rfl, rfl⟩

/-! ### PPS absent (R129, R146) -/

/-- The time for the next PPS edge, and its window, have passed. -/
def Dev.ppsLate (d : Dev) : Bool := d.time.ppsLast.all fun l =>
  ((fineSecond + l : Nat) : Int) < d.sys.ticks * 128
    && !inPpsWindow d.map.active ((d.sys.ticks * 128 : Nat) - (l : Int) - ((fineSecond : Nat) : Int))

theorem Dev.ppsLate_iff (d : Dev) : d.ppsLate = true ↔
    ∀ l, d.time.ppsLast = some l → ((fineSecond + l : Nat) : Int) < d.sys.ticks * 128 ∧
      inPpsWindow d.map.active ((d.sys.ticks * 128 : Nat) - (l : Int) - ((fineSecond : Nat) : Int)) = false := by
  unfold Dev.ppsLate
  cases d.time.ppsLast <;> simp

theorem Dev.ppsAbsent_of_not {d : Dev} (hno : ¬ (d.time.pps = true ∧ d.ppsLate = true)) : d.ppsAbsent = d :=
  if_neg (mt (Bool.and_eq_true ..).to_iff.1 hno)

/-- PPS is marked absent, and LOCKED on REF A ends. -/
def Dev.withoutPps (d : Dev) : Dev := d.modTime fun t => { t with
  pps := false, steerLeft := if t.inUse = 0 then 0 else t.steerLeft
  alignment := if d.time.inUse = 0 ∧ d.time.alignment = .locked then .free else d.time.alignment }

theorem Dev.ppsAbsent_readyOnly {d : Dev} (hp : d.time.pps = true) (hl : d.ppsLate = true) :
    d.withoutPps.ReadyOnly d.ppsAbsent := by
  unfold Dev.ppsAbsent
  extract_lets late e₁ e₂ e₃
  rw [if_pos (by rw [hp]; exact hl)]
  have hraise : e₁.QueuesOnly e₂ := e₁.raise_only ..
  have hread : e₂.time.inUse = d.time.inUse ∧ e₂.time.alignment = d.time.alignment := by
    rw [hraise.time]
    exact ⟨rfl, rfl⟩
  refine Dev.ReadyOnly.trans (Dev.QueuesOnly.readyOnly ?_) e₃.refreshReady_readyOnly
  have he₃ : e₃ = if d.time.inUse = 0 ∧ d.time.alignment = .locked then e₂.setAlignment .free else e₂ := by
    simp [e₃, hread]
  rw [he₃]
  split
  · next hk =>
    have h := (hraise.modTime fun t => { t with alignment := .free }).trans (e₂.setAlignment_only .free)
    rwa [show d.withoutPps = e₁.modTime fun t => { t with alignment := .free } by
      simp only [Dev.withoutPps, if_pos hk]
      rfl]
  · next hk =>
    rwa [show d.withoutPps = e₁ by
      simp only [Dev.withoutPps, if_neg hk]
      rfl]

theorem ppsAbsent_result (s : State) :
    let late := ∀ l, s.dev.time.ppsLast = some l → ((fineSecond + l : Nat) : Int) < s.dev.sys.ticks * 128 ∧
      inPpsWindow s.dev.map.active ((s.dev.sys.ticks * 128 : Nat) - (l : Int) - ((fineSecond : Nat) : Int)) = false
    (¬ (s.dev.time.pps = true ∧ late) → exec .ppsAbsent s = .next s) ∧
    (s.dev.time.pps = true → late → ∃ t : State, exec .ppsAbsent s = .next t ∧ t.dev.time.pps = false ∧
      t.dev.time.alignment = (if s.dev.time.inUse = 0 ∧ s.dev.time.alignment = .locked then .free else s.dev.time.alignment) ∧
      t.dev.time.inUse = s.dev.time.inUse) := by
  intro late
  have hlate : s.dev.ppsLate = true ↔ late := s.dev.ppsLate_iff
  refine ⟨fun hno => next_onDev_self (Dev.ppsAbsent_of_not (by rwa [hlate])), fun hp hl => ?_⟩
  have h := Dev.ppsAbsent_readyOnly hp (hlate.2 hl)
  exact ⟨s.onDev (·.ppsAbsent), rfl, h.read (·.time.pps) fun _ => rfl, h.alignment, h.inUse⟩

/-! ### Second boundaries (R144, R149, R155) -/

theorem clampInt_of_within {r : Nat} {i : Int} (hi : i.natAbs ≤ r) : clampInt (-r) r i = i := by
  rw [clampInt, if_neg (by omega), if_neg (by omega)]

theorem natAbs_clampInt_le (r : Nat) (i : Int) : (clampInt (-r) r i).natAbs ≤ r := by
  unfold clampInt
  split
  · omega
  · split <;> omega

/-- A value that waits for a second boundary touches `seconds` alone. -/
theorem Dev.takeSeconds_only (d : Dev) : d.takeSeconds.map = d.map ∧ d.takeSeconds.time = { d.time with
    seconds := d.takeSeconds.time.seconds, secondsSet := d.takeSeconds.time.secondsSet, pendingSeconds := none } := by
  unfold Dev.takeSeconds
  split
  · next hn => exact ⟨rfl, by rw [← hn]⟩
  · dsimp only
    split
    · exact ⟨rfl, rfl⟩
    · refine ⟨(Dev.reportState_only ..).map.trans (Dev.raise_map ..), ?_⟩
      rw [Dev.reportState_time, Dev.raise_time]
      rfl

theorem Dev.takeSeconds_of_stays {d : Dev} (hs : d.time.pendingSeconds = none ∨ d.sys.state = .running) :
    d.takeSeconds.time.seconds = d.time.seconds := by
  unfold Dev.takeSeconds
  split
  · rfl
  · next v hv =>
    have hrun : d.sys.state = .running := hs.resolve_left (by simp [hv])
    rw [if_pos (by simp [hrun])]
    rfl

theorem Dev.takeSeconds_of_pending {d : Dev} {v : Nat} (hv : d.time.pendingSeconds = some v) (hs : d.sys.state ≠ .running) :
    d.takeSeconds.time.seconds = v ∧ d.takeSeconds.time.secondsSet = true := by
  have htime : d.takeSeconds.time = { d.time with seconds := v, secondsSet := true, pendingSeconds := none } := by
    simp only [Dev.takeSeconds, hv]
    rw [if_neg (by simpa using hs), Dev.reportState_time, Dev.raise_time]
    rfl
  rw [htime]
  exact ⟨rfl, rfl⟩

theorem Dev.takeSpread_only (d : Dev) : d.takeSpread.map = d.map ∧ d.takeSpread.time = { d.time with
    spread := d.time.pendingSpread.getD d.time.spread, pendingSpread := none } := by
  unfold Dev.takeSpread
  split
  · next hn => exact ⟨rfl, by rw [hn, Option.getD_none, ← hn]⟩
  · next p hp => exact ⟨rfl, by rw [hp]; rfl⟩

/-- What a second boundary does to the time base, the steered second included. -/
theorem Dev.boundary_time (d : Dev) : d.takeSeconds.takeSpread.steer.time = { d.time with
    seconds := d.takeSeconds.time.seconds, secondsSet := d.takeSeconds.time.secondsSet, pendingSeconds := none
    spread := d.time.pendingSpread.getD d.time.spread, pendingSpread := none
    steerLeft := d.time.steerLeft - clampInt (-steerRate d.map.active) (steerRate d.map.active) d.time.steerLeft
    steered := d.time.steered - clampInt (-steerRate d.map.active) (steerRate d.map.active) d.time.steerLeft } := by
  obtain ⟨hmap₁, htime₁⟩ := d.takeSeconds_only
  obtain ⟨hmap₂, htime₂⟩ := d.takeSeconds.takeSpread_only
  rw [htime₁] at htime₂
  simp only [Dev.steer, Dev.modTime_time, hmap₂, hmap₁, htime₂]

theorem secondBoundary_result (s : State) :
    (s.dev.time.tick ≠ 0 → exec .secondBoundary s = .next s) ∧
    (s.dev.time.tick = 0 → ∃ t : State, exec .secondBoundary s = .next t ∧
      t.dev.time.pendingSeconds = none ∧ t.dev.time.pendingSpread = none ∧
      t.dev.time.spread = s.dev.time.pendingSpread.getD s.dev.time.spread ∧ t.dev.time.tick = 0 ∧
      (s.dev.time.pendingSeconds = none ∨ s.dev.sys.state = .running → t.dev.time.seconds = s.dev.time.seconds) ∧
      (∀ v, s.dev.time.pendingSeconds = some v → s.dev.sys.state ≠ .running →
        t.dev.time.seconds = v ∧ t.dev.time.secondsSet = true) ∧
      (let r : Int := steerRate s.dev.map.active
       let moved := t.dev.time.steered - s.dev.time.steered
       moved.natAbs ≤ steerRate s.dev.map.active ∧ t.dev.time.steerLeft = s.dev.time.steerLeft + moved ∧
       (s.dev.time.steerLeft.natAbs ≤ r.natAbs → t.dev.time.steerLeft = 0))) := by
  refine ⟨fun ht => next_onDev_self (if_neg ht), fun ht => ?_⟩
  refine ⟨s.onDev fun d => d.takeSeconds.takeSpread.steer, next_onDev_congr (if_pos ht), ?_⟩
  rw [State.onDev_dev, s.dev.boundary_time]
  have hmoved := natAbs_clampInt_le (steerRate s.dev.map.active) s.dev.time.steerLeft
  refine ⟨rfl, rfl, rfl, ht, Dev.takeSeconds_of_stays, fun v hv hs => Dev.takeSeconds_of_pending hv hs, ?_, ?_, fun hr => ?_⟩
  · dsimp only
    omega
  · dsimp only
    omega
  · dsimp only
    rw [clampInt_of_within (by omega), Int.sub_self]

end Sys2Proof.Machine
end

section
/-! Proofs about the time exchange: what a Schuss lane's receiver leaves of what waits on the lane, how a request is sent and
answered, and how an exchange is completed or given up (R199, R358, R361, R362). -/

namespace Sys2Proof.Machine

/-! ### A Schuss lane (R199, R358) -/

theorem Dev.schuss_modSchuss_same {d : Dev} {l : Nat} {x : SchussLane} (hx : d.schuss[l]? = some x)
    (f : SchussLane → SchussLane) : (d.modSchuss l f).schuss[l]? = some (f x) := by
  rw [Dev.modSchuss_schuss, getElem?_modAt, if_pos rfl, hx]
  rfl

theorem modAt_modAt {α : Type} {n : Nat} (v : Vector α n) (i : Nat) (f g : α → α) :
    modAt (modAt v i f) i g = modAt v i (g ∘ f) := by
  unfold modAt
  split <;> simp [*]

/-- Two changes of an element of a vector are the same where they take what stands there to the same value. -/
theorem modAt_congr {α : Type} {n : Nat} {v : Vector α n} {i : Nat} {x : α} (hx : v[i]? = some x) {f g : α → α}
    (h : f x = g x) : modAt v i f = modAt v i g := by
  unfold modAt
  split
  · next hi =>
    obtain rfl : v[i] = x := Option.some.inj ((Vector.getElem?_eq_getElem hi).symm.trans hx)
    rw [h]
  · rfl

/-- A message of another type joins the queue of a lane that is up and has room. -/
theorem Dev.queueOther_lane {d : Dev} {l : Nat} {x : SchussLane} (hx : d.schuss[l]? = some x) (hu : x.up = true)
    (hroom : x.others.length < 16) (m : OtherMsg) (typ : Nat) :
    (d.queueOther l m typ).schuss[l]? = some { x with others := x.others ++ [m] } ∧ (d.queueOther l m typ).time = d.time := by
  have hqueue : d.queueOther l m typ = d.modSchuss l fun x => { x with others := x.others ++ [m] } := by
    simp only [Dev.queueOther, Dev.schussLane, hx]
    rw [if_neg (by simp [hu]), if_neg (by rw [othersLimit]; omega)]
  rw [hqueue]
  exact ⟨Dev.schuss_modSchuss_same hx _, rfl⟩

/-- The request leaves on a lane that is up (R361). -/
theorem Dev.up_of_requestLane {d : Dev} {l : Nat} {x : SchussLane} (hl : d.requestLane = some l) (hx : d.schuss[l]? = some x) :
    x.up = true := by
  have hpick := List.find?_some hl
  simp only [Bool.and_eq_true, Dev.schussLane, hx] at hpick
  exact hpick.2

theorem timeRequestSend_result (s : State) :
    (s.dev.requestLane = none ∨ s.dev.requestDue = false → exec .timeRequestSend s = .next s) ∧
    (∀ l x, s.dev.requestLane = some l → s.dev.requestDue = true → s.dev.schuss[l]? = some x → x.others.length < 16 →
      ∃ t : State, exec .timeRequestSend s = .next t ∧ t.dev.time.requestAt = some s.dev.sys.ticks ∧
        t.dev.schuss[l]? = some { x with others := x.others ++ [.request x.nextId], nextId := (x.nextId + 1) % 16 }) := by
  refine ⟨fun hno => next_onDev_self ?_, fun l x hl hd hx hroom => ?_⟩
  · split
    · next l hl => exact if_neg (by simpa [hl] using hno)
    · rfl
  · have hid : ((s.dev.schussLane l).map (·.nextId)).getD 0 = x.nextId := by rw [Dev.schussLane, hx]; rfl
    obtain ⟨hlane, htime⟩ := Dev.queueOther_lane (d := s.dev.modTime fun t => { t with requestAt := some s.dev.sys.ticks }) hx
      (Dev.up_of_requestLane hl hx) hroom (.request x.nextId) 4
    refine ⟨s.onDev fun d => d.sendRequest l, next_onDev_congr (by simp only [hl, if_pos hd]), ?_⟩
    rw [State.onDev_dev, Dev.sendRequest, hid]
    refine ⟨?_, Dev.schuss_modSchuss_same hlane _⟩
    rw [Dev.modSchuss_time, htime]
    rfl

/-! ### The receiver of a lane (R358) -/

/-- A lane with its receiver left out of account. -/
def SchussLane.besideReceiver (x : SchussLane) : SchussLane :=
  { x with descrambler := 0, window := 0, clock := 0, fresh := 0, delineated := false, offset := 0, run := 0, runs := fill 64 0 }

theorem SchussLane.testOffset_besideReceiver (x : SchussLane) : x.testOffset.besideReceiver = x.besideReceiver := by
  unfold SchussLane.testOffset
  split
  · dsimp only
    split <;> rfl
  · rfl

theorem SchussLane.takeBit_besideReceiver (x : SchussLane) (b : Bool) : (x.takeBit b).1.besideReceiver = x.besideReceiver := by
  unfold SchussLane.takeBit
  generalize schussDescramble x.descrambler b = o
  dsimp only
  split
  · rfl
  · split
    · rfl
    · exact SchussLane.testOffset_besideReceiver _

theorem SchussLane.takeBits_besideReceiver (x : SchussLane) (received : Nat) :
    (x.takeBits received).1.besideReceiver = x.besideReceiver :=
  List.foldlRecOn (motive := fun y : SchussLane × Option Nat => y.1.besideReceiver = x.besideReceiver) _ _ rfl
    fun y hy b _ => (y.1.takeBit_besideReceiver b).trans hy

/-- A reading of a lane that does not look at its receiver. -/
theorem SchussLane.read_takeBits {α : Type} (x : SchussLane) (received : Nat) (g : SchussLane → α)
    (hg : ∀ x : SchussLane, g x.besideReceiver = g x) : g (x.takeBits received).1 = g x := by
  rw [← hg (x.takeBits received).1, x.takeBits_besideReceiver, hg]

/-- What a message is acted on with: the lane that has received its bits (R358, R366). -/
def SchussLane.afterBits (x : SchussLane) (received : Nat) : SchussLane :=
  { (x.takeBits received).1 with run := 0, receivedCount := (x.receivedCount + 1) % 2 ^ 64 }

/-- What waits on a lane stays while it receives. -/
theorem SchussLane.afterBits_keeps (x : SchussLane) (received : Nat) : (x.afterBits received).others = x.others ∧
    (x.afterBits received).up = x.up ∧ (x.afterBits received).exchange = x.exchange := by
  have h := x.takeBits_besideReceiver received
  unfold SchussLane.afterBits
  generalize (x.takeBits received).1 = y at h ⊢
  exact ⟨(congrArg SchussLane.others h :), (congrArg SchussLane.up h :), (congrArg SchussLane.exchange h :)⟩

theorem Dev.schussReceive_of_idle {d : Dev} {l : Nat} (hr : d.schussRuns l = false) (received : Nat)
    (act : Dev → Schuss → Dev) : d.schussReceive l received act = d := by
  unfold Dev.schussReceive
  rw [if_pos (by rw [hr]; rfl)]

/-- The receiver's part and the count of the message make one change of the lane. -/
theorem Dev.afterBits_eq {d : Dev} {l received : Nat} {x : SchussLane} (hx : d.schuss[l]? = some x) :
    (d.modSchuss l fun _ => (x.takeBits received).1).modSchuss l
      (fun x => { x with run := 0, receivedCount := (x.receivedCount + 1) % 2 ^ 64 }) = d.afterBits l received := by
  unfold Dev.modSchuss Dev.afterBits Dev.modSchuss
  dsimp only
  rw [modAt_modAt]
  refine congrArg (fun v => { d with schuss := v }) (modAt_congr hx ?_)
  dsimp only [Function.comp]
  rw [x.read_takeBits received (·.receivedCount) fun _ => rfl]

/-- A delineated receiver acts on a message with a valid check. -/
theorem Dev.schussReceive_of_gets {d : Dev} {l received : Nat} {m : Schuss} (hg : d.gets l received m)
    (act : Dev → Schuss → Dev) : d.schussReceive l received act = act (d.afterBits l received) m := by
  obtain ⟨x, w, hx, hr, hd, hw, hok, rfl⟩ := hg
  have hlane : d.schussLane l = some x := hx
  rw [← Dev.afterBits_eq hx]
  unfold Dev.schussReceive
  rw [if_neg (by rw [hr]; decide)]
  simp only [hlane]
  revert hw
  generalize x.takeBits received = y
  obtain ⟨x', word⟩ := y
  rintro rfl
  simp only [hd, Bool.not_true, Bool.false_and, Bool.false_eq_true, if_false, if_pos hok]

theorem Dev.schuss_afterBits {d : Dev} {l : Nat} {x : SchussLane} (hx : d.schuss[l]? = some x) (received : Nat) :
    (d.afterBits l received).schuss[l]? = some (x.afterBits received) := Dev.schuss_modSchuss_same hx _

/-! ### The time exchange (R361, R362) -/

/-- The instant at which a message's first bit arrived, in fine bins since Boot. -/
def Dev.arrivedAt (d : Dev) (since : Nat) : Int := (d.sys.ticks * 128 : Nat) - (since : Int)

theorem timeRequest_exec {s : State} {l received id data : Nat} (hg : s.dev.gets l received (.time 0 id data)) (since : Nat) :
    exec (.timeRequest l received since) s =
      .next (s.onDev fun d => (d.afterBits l received).answerRequest l id (d.arrivedAt since)) :=
  next_onDev_congr (Dev.schussReceive_of_gets hg _)

theorem timeResponse_exec {s : State} {l received sub id data : Nat} (hg : s.dev.gets l received (.time sub id data))
    (since : Nat) : exec (.timeResponse l received since) s =
      .next (s.onDev fun d => (d.afterBits l received).takeResponse l sub id data (d.arrivedAt since)) :=
  next_onDev_congr (Dev.schussReceive_of_gets hg _)

/-- The three responses to a request join the lane's queue in order. -/
theorem Dev.answerRequest_lane {d : Dev} {l : Nat} {x : SchussLane} (hx : d.schuss[l]? = some x) (hu : x.up = true)
    (hroom : x.others.length ≤ 13) (id : Nat) (t2 : Int) :
    (d.answerRequest l id t2).schuss[l]? =
        some { x with others := x.others ++ [.response id 1 t2, .response id 2 t2, .response id 3 t2] } ∧
      (d.answerRequest l id t2).time = d.time := by
  obtain ⟨hlane₁, htime₁⟩ := Dev.queueOther_lane hx hu (by omega) (.response id 1 t2) 4
  obtain ⟨hlane₂, htime₂⟩ := Dev.queueOther_lane hlane₁ hu (by simp; omega) (.response id 2 t2) 4
  obtain ⟨hlane₃, htime₃⟩ := Dev.queueOther_lane hlane₂ hu (by simp; omega) (.response id 3 t2) 4
  refine ⟨hlane₃.trans ?_, htime₃.trans (htime₂.trans htime₁)⟩
  simp

/-- A response that leaves the exchange incomplete is kept in it. -/
theorem Dev.takeResponse_incomplete {d : Dev} {l sub id data : Nat} {t4 : Int} {x : SchussLane} {e : Exchange}
    (hx : d.schuss[l]? = some x) (he : x.exchange = some e) (hid : e.id = id) (hsub : 1 ≤ sub)
    (hmiss : (e.take sub data t4).t4 = none ∨ (e.take sub data t4).f3 = none ∨ (e.take sub data t4).tauP = none ∨
      (e.take sub data t4).seconds = none) :
    d.takeResponse l sub id data t4 = d.modSchuss l fun x => { x with exchange := some (e.take sub data t4) } := by
  have hexchange : (d.schussLane l).bind (·.exchange) = some e := by rw [Dev.schussLane, hx]; exact he
  simp only [Dev.takeResponse, hexchange]
  rw [if_neg (by simp [hid]; omega)]
  split
  · next ht hf hp hs => exact absurd hmiss (by simp [ht, hf, hp, hs])
  · rfl

/-- The response that completes the exchange. -/
theorem Dev.takeResponse_complete {d : Dev} {l sub id data : Nat} {at4 : Int} {x : SchussLane} {e : Exchange}
    (hx : d.schuss[l]? = some x) (he : x.exchange = some e) (hid : e.id = id) (hsub : 1 ≤ sub) {t4 : Int} {f3 tp sec : Nat}
    (ht : (e.take sub data at4).t4 = some t4) (hf : (e.take sub data at4).f3 = some f3)
    (hp : (e.take sub data at4).tauP = some tp) (hs : (e.take sub data at4).seconds = some sec) :
    d.takeResponse l sub id data at4 = d.exchangeDone l (e.take sub data at4).t1 t4 f3 tp sec := by
  have hexchange : (d.schussLane l).bind (·.exchange) = some e := by rw [Dev.schussLane, hx]; exact he
  simp only [Dev.takeResponse, hexchange]
  rw [if_neg (by simp [hid]; omega)]
  simp only [ht, hf, hp, hs]

section Message
variable {s : State} {l received since sub id data : Nat} {x : SchussLane}

/-- A request received is answered by the three responses, in order. -/
theorem timeRequest_result (hx : s.dev.schuss[l]? = some x) (hu : x.up = true) (hroom : x.others.length ≤ 13)
    (hg : s.dev.gets l received (.time 0 id data)) :
    let i := s.dev.arrivedAt since
    ∃ t : State, exec (.timeRequest l received since) s = .next t ∧
      t.dev.schuss[l]? = some { x.afterBits received with
        others := x.others ++ [.response id 1 i, .response id 2 i, .response id 3 i] } ∧
      t.dev.time = s.dev.time := by
  obtain ⟨hothers, hup, -⟩ := x.afterBits_keeps received
  obtain ⟨hlane, htime⟩ := Dev.answerRequest_lane (Dev.schuss_afterBits hx received) (hup.trans hu) (by rwa [hothers]) id
    (s.dev.arrivedAt since)
  rw [hothers] at hlane
  exact ⟨_, timeRequest_exec hg since, hlane, htime⟩

/-- A completed exchange, as the lane keeps it. -/
def SchussLane.exchanged (x : SchussLane) (t1 t4 : Int) (tp : Nat) (ps : Int) : SchussLane :=
  { x with exchange := none, tRt := (t4 - t1).toNat, tauP := tp, phase := ps }

theorem Dev.exchangeDone_schuss {d : Dev} (hx : d.schuss[l]? = some x) (t1 t4 : Int) (f3 tp sec : Nat) :
    (d.exchangeDone l t1 t4 f3 tp sec).schuss[l]? =
      some (x.exchanged t1 t4 tp (halfFinePs (d.exchangeError t1 t4 f3 tp sec))) := by
  unfold Dev.exchangeDone
  dsimp only
  have hlane := Dev.schuss_modSchuss_same hx fun x => x.exchanged t1 t4 tp (halfFinePs (d.exchangeError t1 t4 f3 tp sec))
  split
  · split
    · rw [Dev.judgePhase_schuss]
      exact hlane
    · rw [Dev.alignNow_schuss]
      exact hlane
  · exact hlane

theorem Dev.exchangeDone_time_of_other {d : Dev} (hu : d.time.inUse ≠ 1) (t1 t4 : Int) (f3 tp sec : Nat) :
    (d.exchangeDone l t1 t4 f3 tp sec).time = d.time := by
  simp only [Dev.exchangeDone, Dev.modSchuss_time, hu, if_false]

/-- On REF B a completed exchange gives the phase error, which steering is to remove. -/
theorem Dev.exchangeDone_time_of_refB {d : Dev} (hu : d.time.inUse = 1) (hp : d.time.pendingAlign = []) (t1 t4 : Int)
    (f3 tp sec : Nat) : let ps := halfFinePs (d.exchangeError t1 t4 f3 tp sec)
    (d.exchangeDone l t1 t4 f3 tp sec).time.phaseError = ps ∧ (d.exchangeDone l t1 t4 f3 tp sec).time.steerLeft = ps := by
  intro ps
  have hdone : d.exchangeDone l t1 t4 f3 tp sec =
      (d.modSchuss l fun x => x.exchanged t1 t4 tp ps).judgePhase ps true := by
    simp only [Dev.exchangeDone, Dev.modSchuss_time, if_pos hu, hp, List.isEmpty_nil, if_true]
    rfl
  obtain ⟨a, ha⟩ := (d.modSchuss l fun x => x.exchanged t1 t4 tp ps).judgePhase_only ps true
  rw [hdone, ha.time]
  exact ⟨rfl, rfl⟩

/-- A response received is taken into the exchange, and the one that completes it gives the lane its result. -/
theorem timeResponse_result (hx : s.dev.schuss[l]? = some x) (hsub : 1 ≤ sub) (hg : s.dev.gets l received (.time sub id data))
    {e : Exchange} (he : x.exchange = some e) (hid : e.id = id) :
    let e' := e.take sub data (s.dev.arrivedAt since)
    (e'.t4 = none ∨ e'.f3 = none ∨ e'.tauP = none ∨ e'.seconds = none →
      ∃ t : State, exec (.timeResponse l received since) s = .next t ∧
        t.dev.schuss[l]? = some { x.afterBits received with exchange := some e' } ∧ t.dev.time = s.dev.time) ∧
    (∀ t4 f3 tp sec, e'.t4 = some t4 → e'.f3 = some f3 → e'.tauP = some tp → e'.seconds = some sec →
      let ps := halfFinePs (s.dev.exchangeError e.t1 t4 f3 tp sec)
      ∃ t : State, exec (.timeResponse l received since) s = .next t ∧
        t.dev.schuss[l]? = some ((x.afterBits received).exchanged e.t1 t4 tp ps) ∧
        (s.dev.time.inUse ≠ 1 → t.dev.time = s.dev.time) ∧
        (s.dev.time.inUse = 1 → s.dev.time.pendingAlign = [] → t.dev.time.phaseError = ps ∧ t.dev.time.steerLeft = ps)) := by
  intro e'
  have hlane := Dev.schuss_afterBits hx received
  obtain ⟨-, -, hkept⟩ := x.afterBits_keeps received
  have hexchange : (x.afterBits received).exchange = some e := hkept.trans he
  refine ⟨fun hmiss => ⟨_, timeResponse_exec hg since, ?_⟩,
    fun t4 f3 tp sec ht hf hp hs => ⟨_, timeResponse_exec hg since, ?_⟩⟩
  · rw [State.onDev_dev, Dev.takeResponse_incomplete hlane hexchange hid hsub hmiss]
    exact ⟨Dev.schuss_modSchuss_same hlane _, rfl⟩
  · have ht1 : e'.t1 = e.t1 := by
      unfold e' Exchange.take
      split
      · rfl
      · split <;> rfl
    rw [State.onDev_dev, Dev.takeResponse_complete hlane hexchange hid hsub ht hf hp hs, ht1]
    exact ⟨Dev.exchangeDone_schuss hlane .., fun hu => Dev.exchangeDone_time_of_other (d := s.dev.afterBits l received) hu ..,
      fun hu hp => Dev.exchangeDone_time_of_refB (d := s.dev.afterBits l received) hu hp ..⟩

end Message

theorem timeMessages_result (s : State) (l received since : Nat) (x : SchussLane) :
    let i : Int := (s.dev.sys.ticks * 128 : Nat) - (since : Int)
    (s.dev.schussRuns l = false → exec (.timeRequest l received since) s = .next s ∧
      exec (.timeResponse l received since) s = .next s) ∧
    (∀ m sub id data, s.dev.schussRuns l = true → s.dev.schuss[l]? = some x → x.delineated = true → x.up = true →
      (x.takeBits received).2 = some m → schussOk m = true → schussOf (m / 4096) = .time sub id data →
      let y := { (x.takeBits received).1 with run := 0, receivedCount := (x.receivedCount + 1) % 2 ^ 64 }
      (sub = 0 → x.others.length ≤ 13 → ∃ t : State, exec (.timeRequest l received since) s = .next t ∧
        t.dev.schuss[l]? = some { y with others := x.others ++ [.response id 1 i, .response id 2 i, .response id 3 i] } ∧
        t.dev.time = s.dev.time) ∧
      (∀ e : Exchange, 1 ≤ sub → x.exchange = some e → e.id = id →
        let e' := e.take sub data i
        (e'.t4 = none ∨ e'.f3 = none ∨ e'.tauP = none ∨ e'.seconds = none →
          ∃ t : State, exec (.timeResponse l received since) s = .next t ∧
            t.dev.schuss[l]? = some { y with exchange := some e' } ∧ t.dev.time = s.dev.time) ∧
        (∀ t4 f3 tp sec, e'.t4 = some t4 → e'.f3 = some f3 → e'.tauP = some tp → e'.seconds = some sec →
          let ps := halfFinePs (s.dev.exchangeError e.t1 t4 f3 tp sec)
          ∃ t : State, exec (.timeResponse l received since) s = .next t ∧
            t.dev.schuss[l]? = some { y with exchange := none, tRt := (t4 - e.t1).toNat, tauP := tp, phase := ps } ∧
            (s.dev.time.inUse ≠ 1 → t.dev.time = s.dev.time) ∧
            (s.dev.time.inUse = 1 → s.dev.time.pendingAlign = [] →
              t.dev.time.phaseError = ps ∧ t.dev.time.steerLeft = ps)))) := by
  refine ⟨fun hr => ⟨next_onDev_self (Dev.schussReceive_of_idle hr ..), next_onDev_self (Dev.schussReceive_of_idle hr ..)⟩,
    fun m sub id data hr hx hd hu hm hok hmsg => ?_⟩
  have hg : s.dev.gets l received (.time sub id data) := ⟨x, m, hx, hr, hd, hm, hok, hmsg⟩
  refine ⟨?_, fun e hsub he hid => timeResponse_result hx hsub hg he hid⟩
  rintro rfl hroom
  exact timeRequest_result hx hu hroom hg

/-! ### The time-out of an exchange (R362, R364) -/

/-- 20 µs have passed since response A of an exchange. -/
theorem exchangeOver_iff (d : Dev) (e : Exchange) :
    (e.t4.any fun (t : Int) => decide (t + (usTicks 20 * 128 : Nat) ≤ (d.sys.ticks * 128 : Nat))) = true ↔
      ∃ t, e.t4 = some t ∧ t + 6553600 ≤ ((d.sys.ticks * 128 : Nat) : Int) := by
  simp only [Option.any_eq_true, decide_eq_true_eq]
  rfl

theorem timeExchangeTimeout_result (s : State) (l : Nat) (x : SchussLane) (hx : s.dev.schuss[l]? = some x) :
    let due := ∃ e t, x.exchange = some e ∧ e.t4 = some t ∧ t + 6553600 ≤ ((s.dev.sys.ticks * 128 : Nat) : Int)
    (¬ due → exec (.timeExchangeTimeout l) s = .next s) ∧
    (due → ∃ t : State, exec (.timeExchangeTimeout l) s = .next t ∧ t.dev.schuss[l]? = some { x with exchange := none } ∧
      t.dev.time = s.dev.time) := by
  have hlane : (s.dev.schussLane l).bind (·.exchange) = x.exchange := by
    rw [Dev.schussLane, hx]
    rfl
  refine ⟨fun hno => next_onDev_self ?_, ?_⟩
  · cases he : x.exchange with
    | none => simp only [Dev.exchangeTimeout, hlane, he]
    | some e =>
      simp only [Dev.exchangeTimeout, hlane, he]
      refine if_neg fun hover => hno ?_
      obtain ⟨t, ht⟩ := (exchangeOver_iff s.dev e).1 hover
      exact ⟨e, t, he, ht⟩
  · rintro ⟨e, t, he, ht⟩
    refine ⟨s.onDev (·.exchangeTimeout l), rfl, ?_⟩
    rw [State.onDev_dev]
    simp only [Dev.exchangeTimeout, hlane, he]
    rw [if_pos ((exchangeOver_iff s.dev e).2 ⟨t, ht⟩), Dev.raiseLimited_schuss, Dev.raiseLimited_time]
    exact ⟨Dev.schuss_modSchuss_same hx _, rfl⟩

/-- Settles O46: each row by what it does to the time base and to the lane that it names. -/
theorem timeRows : Obligations.TimeRows :=
  ⟨ppsEdge_result, ppsAbsent_result, secondBoundary_result, timeRequestSend_result, timeMessages_result,
    timeExchangeTimeout_result⟩

end Sys2Proof.Machine
end

section
/-! Proofs about the words of an interpolator (R21, R174 to R176, R223, R234): what stays of it while the fabric empties the crossings
of its tile, and what the end of a pulse does to it and to the crossing of the hit words. -/

namespace Sys2Proof.Machine

/-! ### One interpolator -/

theorem Dev.tdcPixel_modTdc_same {d : Dev} {p : Nat} {x : TdcPixel} (hx : d.tdcPixel p = some x) (f : TdcPixel → TdcPixel) :
    (d.modTdc p f).tdcPixel p = some (f x) := by
  rw [Dev.tdcPixel, Dev.modTdc_tdc, getElem?_modAt, if_pos rfl]
  exact congrArg (Option.map f) hx

theorem Dev.tdcPixel_modTdc_ne (d : Dev) {p k : Nat} (hk : k ≠ p) (f : TdcPixel → TdcPixel) :
    (d.modTdc p f).tdcPixel k = d.tdcPixel k := by
  rw [Dev.tdcPixel, Dev.modTdc_tdc, getElem?_modAt, if_neg (Ne.symm hk), Dev.tdcPixel]

theorem Dev.tdcPixel_congr {d e : Dev} (ht : e.tdc = d.tdc) (k : Nat) : e.tdcPixel k = d.tdcPixel k := by
  rw [Dev.tdcPixel, ht, Dev.tdcPixel]

theorem Dev.lt_of_tdcPixel {d : Dev} {p : Nat} {x : TdcPixel} (hx : d.tdcPixel p = some x) : p < 1024 :=
  (Vector.getElem?_eq_some_iff.1 hx).1

theorem Dev.exists_tdcPixel (d : Dev) {p : Nat} (hp : p < 1024) : ∃ x, d.tdcPixel p = some x :=
  ⟨_, Vector.getElem?_eq_getElem hp⟩

/-! ### What hit and tag words leave -/

section Beside
variable {d e : Dev} (h : d.HitsOnly e)
include h

theorem Dev.HitsOnly.sys : e.sys = d.sys := (congrArg Dev.sys (show e.besideHits = d.besideHits from h) :)
theorem Dev.HitsOnly.fe : e.fe = d.fe := (congrArg Dev.fe (show e.besideHits = d.besideHits from h) :)
theorem Dev.HitsOnly.time : e.time = d.time := (congrArg Dev.time (show e.besideHits = d.besideHits from h) :)

theorem Dev.HitsOnly.pixelMasked (p : Nat) : e.pixelMasked p = d.pixelMasked p := by
  simp only [Dev.pixelMasked, Dev.tileMasked, Dev.tileFe, Dev.pixelFe, h.fe, h.sys]

theorem Dev.HitsOnly.inTransition (p : Nat) : e.inTransition p = d.inTransition p := by
  simp only [Dev.inTransition, Dev.pixelFe, h.fe, h.sys]

theorem Dev.HitsOnly.thresholdsNow (p : Nat) : e.thresholdsNow p = d.thresholdsNow p := by
  simp only [Dev.thresholdsNow, Dev.pixelFe, h.fe]

theorem Dev.HitsOnly.globalNow : e.globalNow = d.globalNow := by rw [Dev.globalNow, Dev.now, h.time, Dev.globalNow, Dev.now]

theorem Dev.HitsOnly.frameStart : e.frameStart = d.frameStart := by
  rw [Dev.frameStart, Dev.framePhase, h.globalNow, h.map, Dev.frameStart, Dev.framePhase]

end Beside

/-! ### The fabric empties a tile's crossings (R19, R223, R234) -/

/-- Beside what hit and tag words change, an interpolator keeps all but the times of the words that have left its history. -/
structure Dev.Crossed (d e : Dev) : Prop where
  beside : d.HitsOnly e
  pixel : ∀ k x, d.tdcPixel k = some x → ∃ l, e.tdcPixel k = some { x with leftHistory := l }

theorem Dev.Crossed.trans {a b c : Dev} (h : a.Crossed b) (k : b.Crossed c) : a.Crossed c where
  beside := h.beside.trans k.beside
  pixel i x hx := by
    obtain ⟨l, hl⟩ := h.pixel i x hx
    obtain ⟨l', hl'⟩ := k.pixel i _ hl
    exact ⟨l', hl'⟩

theorem Dev.Crossed.ofTdc {d e : Dev} (h : d.HitsOnly e) (ht : e.tdc = d.tdc) : d.Crossed e where
  beside := h
  pixel k x hx := ⟨x.leftHistory, (Dev.tdcPixel_congr ht k).trans hx⟩

theorem Dev.Crossed.refl (d : Dev) : d.Crossed d := .ofTdc rfl rfl

theorem Dev.Crossed.ofInteg (d : Dev) (g : IntegState) : d.Crossed { d with integ := g } := .ofTdc rfl rfl

theorem Dev.Crossed.ofAcq (d : Dev) (a : AcqState) : d.Crossed { d with acq := a } := .ofTdc rfl rfl

theorem Dev.QueuesOnly.crossed {d e : Dev} (h : d.QueuesOnly e) : d.Crossed e := .ofTdc h.hitsOnly h.tdc

theorem Dev.Crossed.foldl {α : Type} {f : Dev → α → Dev} (hf : ∀ (d : Dev) (a : α), d.Crossed (f d a)) (l : List α) (d : Dev) :
    d.Crossed (l.foldl f d) :=
  List.foldlRecOn (motive := d.Crossed) l f (.refl d) fun e h a _ => h.trans (hf e a)

theorem Dev.modAcqCounters_tdc (d : Dev) (f : AcqCounters → AcqCounters) : (d.modAcqCounters f).tdc = d.tdc := by
  unfold Dev.modAcqCounters
  split <;> rfl

theorem Dev.parityOccurrence_crossed (d : Dev) (kind subject : Nat) : d.Crossed (d.parityOccurrence kind subject) := by
  have h : d.Crossed (d.occurrence kind subject).1 := .ofInteg d _
  unfold Dev.parityOccurrence
  generalize d.occurrence kind subject = x at h
  dsimp only
  split
  · exact (h.trans (.ofInteg ..)).trans (Dev.raise_only ..).crossed
  · exact h

theorem Dev.verifyWord_crossed (d : Dev) (crossing tile : Nat) (x : ParityBits) : d.Crossed (d.verifyWord crossing tile x).1 := by
  unfold Dev.verifyWord
  dsimp only
  split
  · exact ((Dev.Crossed.ofInteg d _).trans (Dev.raiseLimited_only ..).crossed).trans (Dev.parityOccurrence_crossed ..)
  · exact .refl d

theorem Dev.handHits_crossed (d : Dev) (clean : Bool) (hits : List Hit) : d.Crossed (d.handHits clean hits) := by
  have h := Dev.Crossed.foldl (f := fun d (h : Hit) => (d.verifyWord 1 (tileOf h.pixel) h.parity).1)
    (fun d h => d.verifyWord_crossed ..) hits d
  unfold Dev.handHits
  dsimp only
  split
  · exact h.trans (.ofInteg ..)
  · exact h

theorem Dev.noteLeft_crossed (d : Dev) (w : Hit) : d.Crossed (d.noteLeft w) where
  beside := rfl
  pixel k x hx := by
    unfold Dev.noteLeft
    by_cases hk : k = w.pixel
    · subst hk
      exact ⟨_, Dev.tdcPixel_modTdc_same hx _⟩
    · exact ⟨x.leftHistory, (d.tdcPixel_modTdc_ne hk _).trans hx⟩

theorem Dev.pruneHistory_crossed (d : Dev) (tile : Nat) : d.Crossed (d.pruneHistory tile) :=
  (Dev.Crossed.ofAcq d _).trans (.foldl Dev.noteLeft_crossed _ _)

theorem Dev.passHit_crossed (d : Dev) (tile : Nat) : d.Crossed (d.passHit tile) := by
  unfold Dev.passHit
  split
  · exact .refl d
  · extract_lets acq d₁ max d₂ offer
    have h : d.Crossed d₁ := .ofAcq d _
    have h : d.Crossed d₂ := h.trans (.foldl (fun e s => e.handHits_crossed ..) _ _)
    exact (h.trans (.ofAcq ..)).trans (Dev.pruneHistory_crossed ..)

theorem Dev.passHits_crossed (tile n : Nat) (d : Dev) : d.Crossed (d.passHits tile n) := by
  induction n generalizing d with
  | zero => exact .refl d
  | succ n ih => exact (d.passHit_crossed tile).trans (ih _)

theorem Dev.sendTags_crossed (d : Dev) (tile : Nat) (f : TagFrame) (final : Bool) : d.Crossed (d.sendTags tile f final) := by
  unfold Dev.sendTags Dev.noteSent
  extract_lets r
  split
  · exact ((Dev.raise_only ..).trans (Dev.sendFormed_only ..)).crossed
  · exact (Dev.sendFormed_only ..).crossed

theorem Dev.placeTag_crossed (d : Dev) (tile : Nat) (f : TagFrame) (word : TagWord) (ok : Bool) :
    d.Crossed (d.placeTag tile f word ok) := by
  unfold Dev.placeTag
  extract_lets d₁ f' d₂
  have h : d.Crossed d₁ := by
    unfold d₁
    split
    · exact .refl d
    · exact .ofInteg d _
  have h : d.Crossed d₂ := h.trans (.ofTdc (d₁.modAcqCounters_hitsOnly _) (d₁.modAcqCounters_tdc _))
  split
  · exact h.trans (.ofAcq ..)
  · exact (h.trans (.ofAcq ..)).trans (Dev.sendTags_crossed ..)

theorem Dev.takeTag_crossed (d : Dev) (tile : Nat) : d.Crossed (d.takeTag tile) := by
  unfold Dev.takeTag
  split
  · exact .refl d
  · next e rest _ =>
    extract_lets acq d₁
    have h : d.Crossed d₁ := .ofAcq d _
    have h := h.trans (d₁.verifyWord_crossed 3 tile e.parity)
    generalize d₁.verifyWord 3 tile e.parity = x at h
    dsimp only
    split
    · exact h.trans (Dev.placeTag_crossed ..)
    · exact h

theorem Dev.takeTags_crossed (tile n : Nat) (d : Dev) : d.Crossed (d.takeTags tile n) := by
  induction n generalizing d with
  | zero => exact .refl d
  | succ n ih =>
    rw [Dev.takeTags]
    split
    · exact .refl d
    · exact (d.takeTag_crossed tile).trans (ih _)

theorem Dev.emptyCrossings_crossed (d : Dev) (p hits tags : Nat) : d.Crossed (d.emptyCrossings p hits tags) :=
  (Dev.passHits_crossed _ _ d).trans (Dev.takeTags_crossed ..)

/-! ### A tag word closes (R176, R234, R236) -/

theorem Dev.drainTest_tdc (d : Dev) : d.drainTest.tdc = d.tdc := by
  unfold Dev.drainTest
  split
  · rfl
  · split <;> rfl

theorem Dev.drainTest_acq (d : Dev) : d.drainTest.acq = d.acq := by
  unfold Dev.drainTest
  split
  · rfl
  · split <;> rfl

theorem Dev.writeWord_tdc (d : Dev) (crossing tile : Nat) (upset : Bool) : (d.writeWord crossing tile upset).1.tdc = d.tdc := by
  change (d.takeCrossingInject crossing tile).1.tdc = d.tdc
  unfold Dev.takeCrossingInject
  split <;> rfl

theorem Dev.writeWord_acq (d : Dev) (crossing tile : Nat) (upset : Bool) : (d.writeWord crossing tile upset).1.acq = d.acq := by
  change (d.takeCrossingInject crossing tile).1.acq = d.acq
  unfold Dev.takeCrossingInject
  split <;> rfl

/-- What a tag word of a pixel changes beside the tag framer: nothing of the hit crossings and their count of lost words, and of the
interpolators at most the mark for the next tag word of that pixel. -/
structure Dev.TagOnly (p : Nat) (d e : Dev) : Prop where
  other : ∀ k, k ≠ p → e.tdcPixel k = d.tdcPixel k
  pixel : ∀ x, d.tdcPixel p = some x → ∃ o, e.tdcPixel p = some { x with tagOverflow := o }
  hitFifo : e.acq.hitFifo = d.acq.hitFifo
  lost : e.acq.counters.hitOverflow = d.acq.counters.hitOverflow

theorem Dev.TagOnly.ofTdc {p : Nat} {d e : Dev} (ht : e.tdc = d.tdc) (hf : e.acq.hitFifo = d.acq.hitFifo)
    (hl : e.acq.counters.hitOverflow = d.acq.counters.hitOverflow) : Dev.TagOnly p d e where
  other k _ := Dev.tdcPixel_congr ht k
  pixel x hx := ⟨x.tagOverflow, (Dev.tdcPixel_congr ht p).trans hx⟩
  hitFifo := hf
  lost := hl

theorem Dev.TagOnly.refl (p : Nat) (d : Dev) : Dev.TagOnly p d d := .ofTdc rfl rfl rfl

theorem Dev.dropTag_tagOnly (d : Dev) (p : Nat) (f : TagFrame) : Dev.TagOnly p d (d.dropTag p f) := by
  unfold Dev.dropTag
  extract_lets n d₁ d₂ d₃
  have hpix (k : Nat) (items : List EvItem) : (d₃.raiseLimited 1318 0 (tileOf p) items).tdcPixel k = d₂.tdcPixel k :=
    Dev.tdcPixel_congr ((d₃.raiseLimited_tdc ..).trans (d₂.modAcqCounters_tdc _)) k
  have hacq : d₃.acq.hitFifo = d.acq.hitFifo ∧ d₃.acq.counters.hitOverflow = d.acq.counters.hitOverflow := by
    unfold d₃ Dev.modAcqCounters
    split <;> exact ⟨rfl, rfl⟩
  exact {
    other := fun k hk => (hpix k _).trans (d₁.tdcPixel_modTdc_ne hk _)
    pixel := fun x hx => ⟨_, (hpix p _).trans (Dev.tdcPixel_modTdc_same (d := d₁) hx _)⟩
    hitFifo := by rw [Dev.raiseLimited_acq, hacq.1]
    lost := by rw [Dev.raiseLimited_acq, hacq.2] }

theorem Dev.closeTag_tagOnly (d : Dev) (p : Nat) (rise : Int) (tot : Nat) (noFalling parity : Bool) :
    Dev.TagOnly p d (d.closeTag p rise tot noFalling parity) := by
  unfold Dev.closeTag
  extract_lets tile
  split
  · split
    · exact .ofTdc rfl rfl rfl
    · exact .refl p d
  · split
    · exact d.dropTag_tagOnly ..
    · extract_lets isOver off word
      have htdc := d.writeWord_tdc 3 tile (!parity)
      have hacq := d.writeWord_acq 3 tile (!parity)
      generalize d.writeWord 3 tile (!parity) = x at htdc hacq
      refine .ofTdc ((Dev.drainTest_tdc _).trans htdc) ?_ ?_
      · rw [Dev.drainTest_acq]
        exact (congrArg AcqState.hitFifo hacq :)
      · rw [Dev.drainTest_acq]
        exact (congrArg (·.counters.hitOverflow) hacq :)

/-! ### A hit word enters the crossing (R21) -/

/-- A tile's crossing 1 is full. -/
def Dev.hitsFull (d : Dev) (tile : Nat) : Prop := crossingDepth d.map.active 1 0 4096 ≤ (getD d.acq.hitFifo tile []).length

section Enter
variable {d : Dev} {w : Hit} {x : TdcPixel}

theorem Dev.enterHit_of_full (hx : d.tdcPixel w.pixel = some x) (hfull : d.hitsFull (tileOf w.pixel)) (parity : Bool) :
    (d.enterHit w parity).tdcPixel w.pixel = some { x with hitOverflow := true } ∧
    (d.enterHit w parity).acq.hitFifo = d.acq.hitFifo ∧
    (d.enterHit w parity).acq.counters.hitOverflow =
      if d.sys.state = .running then (d.acq.counters.hitOverflow + 1) % 2 ^ 64 else d.acq.counters.hitOverflow := by
  unfold Dev.enterHit
  extract_lets tile isOver d₁ d₂
  have hpix : d₁.tdcPixel w.pixel = some { x with hitOverflow := true } := Dev.tdcPixel_modTdc_same hx _
  rw [if_neg (Nat.not_lt.2 hfull), Dev.raiseLimited_acq]
  refine ⟨(Dev.tdcPixel_congr ((d₂.raiseLimited_tdc ..).trans (d₁.modAcqCounters_tdc _)) _).trans hpix, ?_⟩
  by_cases hr : d.sys.state = .running
  · have hcount : d₂ = { d₁ with acq := { d₁.acq with counters :=
        { d₁.acq.counters with hitOverflow := (d₁.acq.counters.hitOverflow + 1) % 2 ^ 64 } } } :=
      if_pos (beq_iff_eq.2 hr)
    rw [hcount, if_pos hr]
    exact ⟨rfl, rfl⟩
  · have hcount : d₂ = d₁ := if_neg (mt beq_iff_eq.1 hr)
    rw [hcount, if_neg hr]
    exact ⟨rfl, rfl⟩

theorem Dev.enterHit_of_room (hx : d.tdcPixel w.pixel = some x) (hroom : ¬ d.hitsFull (tileOf w.pixel)) (parity : Bool) :
    (d.enterHit w parity).tdcPixel w.pixel = some { x with hitOverflow := false } ∧
    ∃ bits, getD (d.enterHit w parity).acq.hitFifo (tileOf w.pixel) [] =
      getD d.acq.hitFifo (tileOf w.pixel) [] ++ [{ w with overflow := x.hitOverflow, parity := bits }] := by
  have htile : tileOf w.pixel < 64 := Nat.div_lt_of_lt_mul (Dev.lt_of_tdcPixel hx)
  unfold Dev.enterHit
  extract_lets tile isOver d₁ d₂
  have hover : isOver = x.hitOverflow := by
    unfold isOver
    rw [hx]
  rw [if_pos (Nat.not_le.1 hroom), hover]
  have htdc := d.writeWord_tdc 1 tile (!parity)
  have hacq := d.writeWord_acq 1 tile (!parity)
  generalize d.writeWord 1 tile (!parity) = y at htdc hacq
  have hy : y.1.tdcPixel w.pixel = some x := (Dev.tdcPixel_congr htdc _).trans hx
  refine ⟨?_, y.2, ?_⟩
  · exact (Dev.tdcPixel_congr (Dev.drainTest_tdc _) _).trans (Dev.tdcPixel_modTdc_same hy _)
  · rw [Dev.drainTest_acq, ← hacq]
    exact getD_modAt_same _ htile _ _

theorem Dev.enterHit_pixel (hx : d.tdcPixel w.pixel = some x) (parity : Bool) :
    ∃ o, (d.enterHit w parity).tdcPixel w.pixel = some { x with hitOverflow := o } := by
  by_cases hfull : d.hitsFull (tileOf w.pixel)
  · exact ⟨_, (Dev.enterHit_of_full hx hfull parity).1⟩
  · exact ⟨_, (Dev.enterHit_of_room hx hfull parity).1⟩

theorem Dev.enterHit_other (d : Dev) (w : Hit) (parity : Bool) {k : Nat} (hk : k ≠ w.pixel) :
    (d.enterHit w parity).tdcPixel k = d.tdcPixel k := by
  unfold Dev.enterHit
  extract_lets tile isOver d₁ d₂
  split
  · have htdc := d.writeWord_tdc 1 tile (!parity)
    generalize d.writeWord 1 tile (!parity) = y at htdc
    have hmark := y.1.tdcPixel_modTdc_ne hk fun t => { t with hitOverflow := false }
    exact (Dev.tdcPixel_congr (Dev.drainTest_tdc _) k).trans (hmark.trans (Dev.tdcPixel_congr htdc k))
  · calc (d₂.raiseLimited ..).tdcPixel k
      _ = d₁.tdcPixel k := Dev.tdcPixel_congr ((d₂.raiseLimited_tdc ..).trans (d₁.modAcqCounters_tdc _)) k
      _ = d.tdcPixel k := d.tdcPixel_modTdc_ne hk _

end Enter

/-! ### A pulse ends (R174 to R176, R182) -/

/-- The hit word of a pulse as it comes to its tile's crossing (R174, R175). -/
def Pulse.hitWord (q : Pulse) (p : Nat) (fall : Option Int) : Hit :=
  let long : Bool := match fall with | none => true | some f => 1048560 ≤ f - q.rise
  let width := match fall with | none => 0 | some f => (f - q.rise).toNat
  { pixel := p, rise := q.rise, tot := if long then 65535 else width / 16, rangeEdge := q.rangeEdge
    overflow := false, noFalling := long, frame := q.frame, parity := .good }

/-- The state after the hit word of a pulse that has ended. -/
def Dev.pulseHit (d : Dev) (p : Nat) (q : Pulse) (fall : Option Int) (parity : Bool) : Dev :=
  (d.modTdc p fun t => { t with pulse := none }).enterHit (q.hitWord p fall) parity

/-- A pulse that ends gives its hit word and then at most a tag word. -/
theorem Dev.completePulse_tagOnly (d : Dev) (p : Nat) (q : Pulse) (fall : Option Int) (parity : Bool) :
    Dev.TagOnly p (d.pulseHit p q fall parity) (d.completePulse p q fall parity) := by
  unfold Dev.completePulse
  extract_lets d₁ long width w d₂
  change Dev.TagOnly p d₂ _
  split
  · exact .refl p d₂
  · exact d₂.closeTag_tagOnly ..

section Ends
variable {d : Dev} {p : Nat} {x : TdcPixel} (hx : d.tdcPixel p = some x) (q : Pulse) (fall : Option Int) (parity : Bool)
include hx

theorem Dev.completePulse_pixel : ∃ o u,
    (d.completePulse p q fall parity).tdcPixel p = some { x with pulse := none, hitOverflow := o, tagOverflow := u } := by
  obtain ⟨o, ho⟩ := Dev.enterHit_pixel (w := q.hitWord p fall) (Dev.tdcPixel_modTdc_same hx _) parity
  obtain ⟨u, hu⟩ := (d.completePulse_tagOnly p q fall parity).pixel _ ho
  exact ⟨o, u, hu⟩

theorem Dev.completePulse_pulse : ((d.completePulse p q fall parity).tdcPixel p).bind (·.pulse) = none := by
  obtain ⟨o, u, h⟩ := Dev.completePulse_pixel hx q fall parity
  rw [h]
  rfl

/-- A full crossing drops the hit word, marks the next one and counts in Running. -/
theorem Dev.completePulse_of_full (hfull : d.hitsFull (tileOf p)) :
    (d.completePulse p q fall parity).acq.hitFifo = d.acq.hitFifo ∧
    ((d.completePulse p q fall parity).tdcPixel p).map (·.hitOverflow) = some true ∧
    (d.completePulse p q fall parity).acq.counters.hitOverflow =
      if d.sys.state = .running then (d.acq.counters.hitOverflow + 1) % 2 ^ 64 else d.acq.counters.hitOverflow := by
  obtain ⟨hpix, hfifo, hlost⟩ := Dev.enterHit_of_full (w := q.hitWord p fall) (Dev.tdcPixel_modTdc_same hx _) hfull parity
  have htag := d.completePulse_tagOnly p q fall parity
  obtain ⟨u, hu⟩ := htag.pixel _ hpix
  refine ⟨htag.hitFifo.trans hfifo, ?_, htag.lost.trans hlost⟩
  rw [hu]
  rfl

/-- Into a crossing with room the hit word enters as the newest, with the mark of a word lost before it. -/
theorem Dev.completePulse_of_room (hroom : ¬ d.hitsFull (tileOf p)) : ∃ bits,
    getD (d.completePulse p q fall parity).acq.hitFifo (tileOf p) [] =
      getD d.acq.hitFifo (tileOf p) [] ++ [{ q.hitWord p fall with overflow := x.hitOverflow, parity := bits }] ∧
    ((d.completePulse p q fall parity).tdcPixel p).map (·.hitOverflow) = some false := by
  obtain ⟨hpix, bits, hfifo⟩ :=
    Dev.enterHit_of_room (w := q.hitWord p fall) (Dev.tdcPixel_modTdc_same hx _) hroom parity
  have htag := d.completePulse_tagOnly p q fall parity
  obtain ⟨u, hu⟩ := htag.pixel _ hpix
  refine ⟨bits, ?_, ?_⟩
  · rw [htag.hitFifo]
    exact hfifo
  · rw [hu]
    rfl

/-- A lost falling edge leaves no pulse, and of the rest of the interpolator all but the marks for the next words. -/
theorem Dev.loseFalling_pixel : ∃ o u,
    (d.loseFalling p).tdcPixel p = some { x with pulse := none, hitOverflow := o, tagOverflow := u } := by
  unfold Dev.loseFalling
  simp only [hx]
  split
  · next hq => exact ⟨x.hitOverflow, x.tagOverflow, by rw [hx, ← hq]⟩
  · next q hq => exact Dev.completePulse_pixel hx q none true

end Ends

theorem Dev.completePulse_other (d : Dev) {p k : Nat} (hk : k ≠ p) (q : Pulse) (fall : Option Int) (parity : Bool) :
    (d.completePulse p q fall parity).tdcPixel k = d.tdcPixel k := by
  rw [(d.completePulse_tagOnly p q fall parity).other k hk, Dev.pulseHit, Dev.enterHit_other _ _ _ hk]
  exact d.tdcPixel_modTdc_ne hk _

theorem Dev.loseFalling_other (d : Dev) {p k : Nat} (hk : k ≠ p) : (d.loseFalling p).tdcPixel k = d.tdcPixel k := by
  unfold Dev.loseFalling
  split
  · rfl
  · split
    · rfl
    · exact d.completePulse_other hk ..

end Sys2Proof.Machine
end

section
/-! Proofs about the edges of a timing discriminator (R73, R163 to R174, R182): which are captured, the time of one that is, and what
TIMING_EDGE does to the interpolator and to the crossing of the hit words. -/

namespace Sys2Proof.Machine

/-! ### The time of an edge (R171, R173) -/

/-- Ticks from the present one to the stop tick of a captured edge (R164). -/
def stopAhead (onBoundary : Bool) : Nat := if onBoundary then 1 else 2

/-- The time of an edge under a calibration pair of distinct counts (R171), its stop tick so many ticks ahead. -/
def Dev.edgeUnder (d : Dev) (p : Nat) (x : TdcPixel) (raw ahead : Nat) (y : CalPair) : Int :=
  128 * ((d.globalNow + ahead : Nat) : Int) - rneQuot ((16 * (raw : Int) - 2 * y.c1 + y.c2) * 128) ((y.c2 : Int) - y.c1)
    - ((Config.edgeDelay p).toNat : Int) + x.tOffset

/-- The time of an edge under the pair of the frame in which it lies: the present one, or the one before (R173). -/
def Dev.edgeAt (d : Dev) (p : Nat) (x : TdcPixel) (raw ahead : Nat) : Int :=
  if 128 * d.frameStart ≤ d.edgeUnder p x raw ahead x.applied then d.edgeUnder p x raw ahead x.applied
  else d.edgeUnder p x raw ahead x.previous

/-- The frame in which an edge lies, by its first tick. -/
def Dev.edgeFrame (d : Dev) (p : Nat) (x : TdcPixel) (raw ahead : Nat) : Int :=
  if 128 * d.frameStart ≤ d.edgeUnder p x raw ahead x.applied then d.frameStart else d.frameStart - 262144

theorem Dev.edgeTimeNow_eq (d : Dev) (p : Nat) {x : TdcPixel} (ha : x.applied.c1 ≠ x.applied.c2)
    (hp : x.previous.c1 ≠ x.previous.c2) (raw ahead : Nat) :
    d.edgeTimeNow p x raw (d.globalNow + ahead) = (d.edgeAt p x raw ahead, d.edgeFrame p x raw ahead) := by
  have happlied : edgeTime (d.globalNow + ahead) (edgeInterval x.applied raw d.free) (Config.edgeDelay p).toNat x.tOffset =
      d.edgeUnder p x raw ahead x.applied := by rw [edgeTime, edgeInterval, if_neg ha, Dev.edgeUnder]
  have hprevious : edgeTime (d.globalNow + ahead) (edgeInterval x.previous raw d.free) (Config.edgeDelay p).toNat x.tOffset =
      d.edgeUnder p x raw ahead x.previous := by rw [edgeTime, edgeInterval, if_neg hp, Dev.edgeUnder]
  simp only [Dev.edgeTimeNow, happlied, hprevious, Dev.edgeAt, Dev.edgeFrame]
  split <;> rfl

/-! ### A captured edge (R164, R174) -/

/-- The state in which the stop tick of a captured edge is set (R165). -/
def Dev.stopSet (d : Dev) (p ahead : Nat) : Dev :=
  Dev.modTdc { d with free := d.free + 1 } p fun t => { t with lastStop := d.sys.ticks + ahead }

section Capture
variable {d : Dev} {p : Nat} {x : TdcPixel} (hx : d.tdcPixel p = some x)
  (ha : x.applied.c1 ≠ x.applied.c2) (hp : x.previous.c1 ≠ x.previous.c2) (raw : Nat) (onBoundary parity : Bool)

include hx in
theorem Dev.stopSet_pixel (ahead : Nat) : (d.stopSet p ahead).tdcPixel p = some { x with lastStop := d.sys.ticks + ahead } :=
  Dev.tdcPixel_modTdc_same (d := { d with free := d.free + 1 }) hx _

include hx ha hp in
/-- A rising edge opens a pulse, and one that is open loses its falling edge. -/
theorem Dev.captureEdge_rising : ∃ y, (d.captureEdge p x true raw onBoundary parity).tdcPixel p = some y ∧
    y.pulse = some ⟨d.edgeAt p x raw (stopAhead onBoundary), false, false, d.edgeFrame p x raw (stopAhead onBoundary)⟩ ∧
    y.lastStop = d.sys.ticks + stopAhead onBoundary ∧ y.lostRise = false := by
  obtain ⟨o, u, hlost⟩ := Dev.loseFalling_pixel (Dev.stopSet_pixel hx (stopAhead onBoundary))
  unfold Dev.captureEdge
  dsimp only
  rw [← stopAhead, d.edgeTimeNow_eq p ha hp raw (stopAhead onBoundary)]
  exact ⟨_, Dev.tdcPixel_modTdc_same hlost _, rfl, rfl, rfl⟩

include hx ha hp in
/-- The falling edge after a rising edge that was lost forms no word (R167). -/
theorem Dev.captureEdge_afterLoss (hl : x.lostRise = true) :
    ((d.captureEdge p x false raw onBoundary parity).tdcPixel p).map (·.lostRise) = some false ∧
    (d.captureEdge p x false raw onBoundary parity).acq = d.acq := by
  unfold Dev.captureEdge
  dsimp only
  rw [← stopAhead, d.edgeTimeNow_eq p ha hp raw (stopAhead onBoundary), if_neg Bool.false_ne_true, if_pos hl]
  refine ⟨?_, rfl⟩
  exact congrArg (Option.map (·.lostRise)) (Dev.tdcPixel_modTdc_same (Dev.stopSet_pixel hx (stopAhead onBoundary)) _)

include ha hp in
theorem Dev.captureEdge_falling (hl : x.lostRise = false) {q : Pulse} (hq : x.pulse = some q) :
    d.captureEdge p x false raw onBoundary parity =
      (d.stopSet p (stopAhead onBoundary)).completePulse p q (some (d.edgeAt p x raw (stopAhead onBoundary))) parity := by
  unfold Dev.captureEdge
  dsimp only
  rw [← stopAhead, d.edgeTimeNow_eq p ha hp raw (stopAhead onBoundary), if_neg Bool.false_ne_true, hl,
    if_neg Bool.false_ne_true, hq]
  rfl

end Capture

/-- The width of a pulse in its hit word: bins of 16, or no falling edge from 1,048,560 fine bins on (R174, R175). -/
theorem Pulse.hitWord_width (q : Pulse) (p : Nat) (f : Int) :
    ((q.hitWord p (some f)).noFalling = true ↔ 1048560 ≤ f - q.rise) ∧
    (1048560 ≤ f - q.rise → (q.hitWord p (some f)).tot = 65535) ∧
    (f - q.rise < 1048560 → (q.hitWord p (some f)).tot = (f - q.rise).toNat / 16) :=
  ⟨decide_eq_true_iff, fun h => if_pos (decide_eq_true h), fun h => if_neg fun hlong => Int.not_le.2 h (of_decide_eq_true hlong)⟩

/-! ### The edges of a timing discriminator (R73, R163 to R167, R182) -/

/-- An edge of a pixel in use whose discriminator can fire (R74, R163). -/
def Dev.firesEdge (d : Dev) (p : Nat) (rising : Bool) : Prop :=
  pixelEnabled d.map.active p = true ∧ (rising = true → silentCode (d.thresholdsNow p).timing = false)

/-- The interpolator captures nothing: a masked pixel, a slot, or a stop tick that is still to come (R165, R166, R182). -/
def Dev.blind (d : Dev) (p : Nat) (x : TdcPixel) : Prop := d.pixelMasked p = true ∨ x.slot = true ∨ d.sys.ticks < x.lastStop

/-- The test of `Dev.timingEdge` for an edge that is none: not in use, or a rising edge of a silent discriminator. -/
theorem noEdge_iff : ∀ enabled rising silent : Bool,
    (!enabled || (rising && silent)) = true ↔ ¬ (enabled = true ∧ (rising = true → silent = false)) := by decide

/-- The test of `Dev.timingEdge` for an edge that is not captured. -/
theorem Dev.blind_iff (d : Dev) (p : Nat) (x : TdcPixel) :
    (d.pixelMasked p || x.slot || Decidable.decide (d.sys.ticks < x.lastStop)) = true ↔ d.blind p x := by
  rw [Bool.or_eq_true, Bool.or_eq_true, decide_eq_true_iff, or_assoc, Dev.blind]

section Edge
variable {d : Dev} {p : Nat} {x : TdcPixel} (hx : d.tdcPixel p = some x) {rising : Bool} (raw : Nat) (onBoundary parity : Bool)
include hx

theorem Dev.timingEdge_of_not_fires (hf : ¬ d.firesEdge p rising) : d.timingEdge p rising raw onBoundary parity = d := by
  simp only [Dev.timingEdge, hx]
  exact if_pos ((noEdge_iff ..).2 hf)

theorem Dev.timingEdge_of_fires (hf : d.firesEdge p rising) : d.timingEdge p rising raw onBoundary parity =
    if d.pixelMasked p || x.slot || d.sys.ticks < x.lastStop then d.loseEdge p rising
    else if d.inTransition p then (if rising then d.modTdc p fun t => { t with lostRise := true } else d)
    else d.captureEdge p x rising raw onBoundary parity := by
  simp only [Dev.timingEdge, hx]
  exact if_neg fun hno => (noEdge_iff ..).1 hno hf

theorem Dev.timingEdge_of_blind (hf : d.firesEdge p rising) (hb : d.blind p x) :
    d.timingEdge p rising raw onBoundary parity = d.loseEdge p rising := by
  rw [Dev.timingEdge_of_fires hx raw onBoundary parity hf]
  exact if_pos ((d.blind_iff p x).2 hb)

theorem Dev.timingEdge_of_captured (hf : d.firesEdge p rising) (hb : ¬ d.blind p x) (ht : d.inTransition p = false) :
    d.timingEdge p rising raw onBoundary parity = d.captureEdge p x rising raw onBoundary parity := by
  rw [Dev.timingEdge_of_fires hx raw onBoundary parity hf, if_neg (mt (d.blind_iff p x).1 hb), ht]
  exact if_neg Bool.false_ne_true

end Edge

section Beside
variable {o d : Dev} (h : o.HitsOnly d) (p : Nat)
include h

theorem Dev.HitsOnly.firesEdge (rising : Bool) : d.firesEdge p rising = o.firesEdge p rising := by
  rw [Dev.firesEdge, h.map, h.thresholdsNow, Dev.firesEdge]

theorem Dev.HitsOnly.blind (x : TdcPixel) : d.blind p x = o.blind p x := by
  rw [Dev.blind, h.pixelMasked, h.sys, Dev.blind]

theorem Dev.HitsOnly.edgeUnder (x : TdcPixel) (raw ahead : Nat) (y : CalPair) :
    d.edgeUnder p x raw ahead y = o.edgeUnder p x raw ahead y := by rw [Dev.edgeUnder, h.globalNow, Dev.edgeUnder]

theorem Dev.HitsOnly.edgeAt (x : TdcPixel) (raw ahead : Nat) : d.edgeAt p x raw ahead = o.edgeAt p x raw ahead := by
  rw [Dev.edgeAt, h.frameStart, h.edgeUnder, h.edgeUnder, Dev.edgeAt]

theorem Dev.HitsOnly.edgeFrame (x : TdcPixel) (raw ahead : Nat) : d.edgeFrame p x raw ahead = o.edgeFrame p x raw ahead := by
  rw [Dev.edgeFrame, h.frameStart, h.edgeUnder, Dev.edgeFrame]

end Beside

/-! ### TIMING_EDGE -/

section Row
variable {s : State} {p : Nat} {x : TdcPixel} (hx : s.dev.tdcPixel p = some x) {rising : Bool}
  (raw hits tags : Nat) (onBoundary parity : Bool)
include hx

theorem timingEdge_of_not_fires (hf : ¬ s.dev.firesEdge p rising) :
    exec (.timingEdge p rising raw onBoundary hits tags parity) s = .next (s.onDev fun _ => s.dev.emptyCrossings p hits tags) := by
  have hc := s.dev.emptyCrossings_crossed p hits tags
  obtain ⟨l, hl⟩ := hc.pixel p x hx
  exact next_onDev_congr (Dev.timingEdge_of_not_fires hl raw onBoundary parity (hc.beside.firesEdge p rising ▸ hf))

/-- A rising edge that is not captured forms no word (R165, R167, R182). -/
theorem timingEdge_lost (hf : s.dev.firesEdge p rising) (hb : s.dev.blind p x) (hr : rising = true) :
    ∃ t : State, exec (.timingEdge p rising raw onBoundary hits tags parity) s = .next t ∧
      (t.dev.tdcPixel p).map (·.lostRise) = some true ∧ (t.dev.tdcPixel p).map (·.pulse) = some x.pulse ∧
      t.dev.acq = (s.dev.emptyCrossings p hits tags).acq := by
  have hc := s.dev.emptyCrossings_crossed p hits tags
  obtain ⟨l, hl⟩ := hc.pixel p x hx
  subst hr
  refine ⟨_, next_onDev_congr (g := fun _ => _) (Dev.timingEdge_of_blind hl raw onBoundary parity
    ((hc.beside.firesEdge p true).symm ▸ hf) ((hc.beside.blind p _).symm ▸ hb)), ?_⟩
  have hpix := Dev.tdcPixel_modTdc_same hl fun t => { t with lostRise := true }
  exact ⟨congrArg (Option.map (·.lostRise)) hpix, congrArg (Option.map (·.pulse)) hpix, rfl⟩

section Captured
variable (hf : s.dev.firesEdge p rising) (hb : ¬ s.dev.blind p x) (ht : s.dev.inTransition p = false)
include hf hb ht

theorem timingEdge_of_captured : ∃ l, (s.dev.emptyCrossings p hits tags).tdcPixel p = some { x with leftHistory := l } ∧
    exec (.timingEdge p rising raw onBoundary hits tags parity) s = .next (s.onDev fun _ =>
      (s.dev.emptyCrossings p hits tags).captureEdge p { x with leftHistory := l } rising raw onBoundary parity) := by
  have hc := s.dev.emptyCrossings_crossed p hits tags
  obtain ⟨l, hl⟩ := hc.pixel p x hx
  exact ⟨l, hl, next_onDev_congr (Dev.timingEdge_of_captured hl raw onBoundary parity ((hc.beside.firesEdge p rising).symm ▸ hf)
    ((hc.beside.blind p _).symm ▸ hb) ((hc.beside.inTransition p).trans ht))⟩

variable (ha : x.applied.c1 ≠ x.applied.c2) (hp : x.previous.c1 ≠ x.previous.c2)
include ha hp

theorem timingEdge_opens (hr : rising = true) :
    ∃ t : State, exec (.timingEdge p rising raw onBoundary hits tags parity) s = .next t ∧
      (t.dev.tdcPixel p).bind (·.pulse) = some ⟨s.dev.edgeAt p x raw (stopAhead onBoundary), false, false,
        s.dev.edgeFrame p x raw (stopAhead onBoundary)⟩ ∧
      (t.dev.tdcPixel p).map (·.lastStop) = some (s.dev.sys.ticks + stopAhead onBoundary) ∧
      (t.dev.tdcPixel p).map (·.lostRise) = some false := by
  have hc := (s.dev.emptyCrossings_crossed p hits tags).beside
  obtain ⟨l, hl, hrun⟩ := timingEdge_of_captured hx raw hits tags onBoundary parity hf hb ht
  obtain ⟨y, hy, hpulse, hstop, hlost⟩ := Dev.captureEdge_rising hl ha hp raw onBoundary parity
  subst hr
  refine ⟨_, hrun, ?_⟩
  rw [State.onDev_dev, hy, ← hc.edgeAt, ← hc.edgeFrame, ← hc.sys]
  exact ⟨hpulse, congrArg some hstop, congrArg some hlost⟩

theorem timingEdge_afterLoss (hr : rising = false) (hlost : x.lostRise = true) :
    ∃ t : State, exec (.timingEdge p rising raw onBoundary hits tags parity) s = .next t ∧
      (t.dev.tdcPixel p).map (·.lostRise) = some false ∧ t.dev.acq = (s.dev.emptyCrossings p hits tags).acq := by
  obtain ⟨l, hl, hrun⟩ := timingEdge_of_captured hx raw hits tags onBoundary parity hf hb ht
  subst hr
  exact ⟨_, hrun, Dev.captureEdge_afterLoss hl ha hp raw onBoundary parity hlost⟩

/-- A falling edge ends the open pulse: beside its stop tick, what the end of a pulse does to the emptied crossings. -/
theorem timingEdge_ends (hr : rising = false) (hlost : x.lostRise = false) {q : Pulse} (hq : x.pulse = some q) : ∃ l,
    (s.dev.emptyCrossings p hits tags).tdcPixel p = some { x with leftHistory := l } ∧
    exec (.timingEdge p rising raw onBoundary hits tags parity) s = .next (s.onDev fun _ =>
      ((s.dev.emptyCrossings p hits tags).stopSet p (stopAhead onBoundary)).completePulse p q
        (some (s.dev.edgeAt p x raw (stopAhead onBoundary))) parity) := by
  have hc := (s.dev.emptyCrossings_crossed p hits tags).beside
  obtain ⟨l, hl, hrun⟩ := timingEdge_of_captured hx raw hits tags onBoundary parity hf hb ht
  subst hr
  refine ⟨l, hl, ?_⟩
  rw [hrun, Dev.captureEdge_falling (x := { x with leftHistory := l }) ha hp raw onBoundary parity hlost hq, hc.edgeAt]
  rfl

theorem timingEdge_hitWord (hr : rising = false) (hlost : x.lostRise = false) {q : Pulse} (hq : x.pulse = some q) :
    let run := exec (.timingEdge p rising raw onBoundary hits tags parity) s
    let d := s.dev.emptyCrossings p hits tags
    let e := s.dev.edgeAt p x raw (stopAhead onBoundary)
    let fifo := getD d.acq.hitFifo (p / 16) []
    let depth := crossingDepth s.dev.map.active 1 0 4096
    (depth ≤ fifo.length → ∃ t : State, run = .next t ∧ (t.dev.tdcPixel p).bind (·.pulse) = none ∧
      t.dev.acq.hitFifo = d.acq.hitFifo ∧ (t.dev.tdcPixel p).map (·.hitOverflow) = some true ∧
      t.dev.acq.counters.hitOverflow =
        (if s.dev.sys.state = .running then (d.acq.counters.hitOverflow + 1) % 2 ^ 64 else d.acq.counters.hitOverflow)) ∧
    (fifo.length < depth → ∃ (t : State) (w : Hit), run = .next t ∧ (t.dev.tdcPixel p).bind (·.pulse) = none ∧
      getD t.dev.acq.hitFifo (p / 16) [] = fifo ++ [w] ∧ (t.dev.tdcPixel p).map (·.hitOverflow) = some false ∧
      w.pixel = p ∧ w.rise = q.rise ∧ w.rangeEdge = q.rangeEdge ∧
      w.overflow = x.hitOverflow ∧ (w.noFalling = true ↔ 1048560 ≤ e - q.rise) ∧
      (1048560 ≤ e - q.rise → w.tot = 65535) ∧ (e - q.rise < 1048560 → w.tot = (e - q.rise).toNat / 16)) := by
  intro run d e fifo depth
  have hc := (s.dev.emptyCrossings_crossed p hits tags).beside
  obtain ⟨l, hl, hrun⟩ := timingEdge_ends hx raw hits tags onBoundary parity hf hb ht ha hp hr hlost hq
  have hpix := Dev.stopSet_pixel hl (stopAhead onBoundary)
  have hfullIff : (d.stopSet p (stopAhead onBoundary)).hitsFull (tileOf p) ↔ depth ≤ fifo.length :=
    .of_eq (congrArg (fun m : MapState => crossingDepth m.active 1 0 4096 ≤ fifo.length) hc.map)
  have hpulse := Dev.completePulse_pulse hpix q (some e) parity
  refine ⟨fun hfull => ⟨_, hrun, hpulse, ?_⟩, fun hroom => ?_⟩
  · rw [← hc.sys]
    exact Dev.completePulse_of_full hpix q (some e) parity (hfullIff.2 hfull)
  · obtain ⟨bits, hfifo, hover⟩ := Dev.completePulse_of_room hpix q (some e) parity (mt hfullIff.1 (Nat.not_le.2 hroom))
    exact ⟨_, _, hrun, hpulse, hfifo, hover, rfl, rfl, rfl, rfl, q.hitWord_width p e⟩

end Captured
end Row

end Sys2Proof.Machine
end

section
/-! Proofs about the limits of a pulse, the start of the slots and the pairs that they give (R166 to R170, R175, R176, R182), and about
the rows of the interpolators together. -/

namespace Sys2Proof.Machine

/-! ### The limits of a pulse without a falling edge (R175, R176) -/

/-- Fine bins since the rising edge of a pulse. -/
def Dev.pulseAge (d : Dev) (q : Pulse) : Int := 128 * (d.globalNow : Int) - q.rise

section Limits
variable {d : Dev} {p : Nat} {x : TdcPixel} (hx : d.tdcPixel p = some x) (parity : Bool)
include hx

theorem Dev.hitTimeout_of_no_pulse (hq : x.pulse = none) : d.hitTimeout p parity = d := by
  simp only [Dev.hitTimeout, hx, hq]

variable {q : Pulse} (hq : x.pulse = some q)
include hq

theorem Dev.hitTimeout_early (ha : d.pulseAge q < 130944) : d.hitTimeout p parity = d := by
  unfold Dev.pulseAge at ha
  have htag : ¬ (!q.tagClosed && !q.rangeEdge && Decidable.decide (1023 * 128 ≤ 128 * (d.globalNow : Int) - q.rise)) = true := by
    rw [decide_eq_false (by omega), Bool.and_false]
    exact Bool.false_ne_true
  have hhit : ¬ 1048560 + 24 * 128 ≤ 128 * (d.globalNow : Int) - q.rise := by omega
  simp only [Dev.hitTimeout, hx, hq]
  rw [if_neg hhit, if_neg htag]

/-- From 1,023 ticks on the tag word closes and the pulse goes on. -/
theorem Dev.hitTimeout_tag (hlo : 130944 ≤ d.pulseAge q) (hhi : d.pulseAge q < 1051632) (ht : q.tagClosed = false)
    (hr : q.rangeEdge = false) : d.hitTimeout p parity =
      (d.modTdc p fun t => { t with pulse := some { q with tagClosed := true } }).closeTag p q.rise 1023 true parity := by
  unfold Dev.pulseAge at hlo hhi
  have htag : (!q.tagClosed && !q.rangeEdge && Decidable.decide (1023 * 128 ≤ 128 * (d.globalNow : Int) - q.rise)) = true := by
    rw [ht, hr, decide_eq_true (by omega)]
    rfl
  have hhit : ¬ 1048560 + 24 * 128 ≤ 128 * (d.globalNow : Int) - q.rise := by omega
  simp only [Dev.hitTimeout, hx, hq]
  rw [if_neg hhit, if_pos htag]

/-- In the end the pulse is completed without a falling edge. -/
theorem Dev.hitTimeout_late (ha : 1051632 ≤ d.pulseAge q) : ((d.hitTimeout p parity).tdcPixel p).bind (·.pulse) = none := by
  have hhit : 1048560 + 24 * 128 ≤ 128 * (d.globalNow : Int) - q.rise := ha
  simp only [Dev.hitTimeout, hx, hq]
  rw [if_pos hhit]
  split
  · obtain ⟨o, ho⟩ := (Dev.closeTag_tagOnly _ p q.rise 1023 true parity).pixel _
      (Dev.tdcPixel_modTdc_same hx fun t => { t with pulse := some { q with tagClosed := true } })
    exact Dev.completePulse_pulse ho ..
  · exact Dev.completePulse_pulse hx ..

end Limits

theorem hitWordTimeout_result (s : State) (p hits tags : Nat) (parity : Bool) {x : TdcPixel} (hx : s.dev.tdcPixel p = some x) :
    let run := exec (.hitWordTimeout p hits tags parity) s
    let d := s.dev.emptyCrossings p hits tags
    (x.pulse = none → run = .next (s.onDev fun _ => d)) ∧
    (∀ q : Pulse, x.pulse = some q →
      (s.dev.pulseAge q < 130944 → run = .next (s.onDev fun _ => d)) ∧
      (130944 ≤ s.dev.pulseAge q → s.dev.pulseAge q < 1051632 → q.tagClosed = false → q.rangeEdge = false →
        ∃ t : State, run = .next t ∧ (t.dev.tdcPixel p).bind (·.pulse) = some { q with tagClosed := true } ∧
          t.dev.acq.hitFifo = d.acq.hitFifo) ∧
      (1051632 ≤ s.dev.pulseAge q → ∃ t : State, run = .next t ∧ (t.dev.tdcPixel p).bind (·.pulse) = none)) := by
  intro run d
  have hc := s.dev.emptyCrossings_crossed p hits tags
  obtain ⟨l, hl⟩ := hc.pixel p x hx
  have hage (q : Pulse) : d.pulseAge q = s.dev.pulseAge q := by rw [Dev.pulseAge, hc.beside.globalNow, Dev.pulseAge]
  refine ⟨fun hq => next_onDev_congr (Dev.hitTimeout_of_no_pulse hl parity hq), fun q hq => ?_⟩
  rw [← hage]
  refine ⟨fun ha => next_onDev_congr (Dev.hitTimeout_early hl parity hq ha), fun hlo hhi ht hr => ?_,
    fun ha => ⟨_, rfl, Dev.hitTimeout_late hl parity hq ha⟩⟩
  have htag := Dev.closeTag_tagOnly (d.modTdc p fun t => { t with pulse := some { q with tagClosed := true } }) p q.rise 1023 true
    parity
  obtain ⟨o, ho⟩ := htag.pixel _ (Dev.tdcPixel_modTdc_same hl _)
  refine ⟨_, next_onDev_congr (g := fun _ => _) (Dev.hitTimeout_tag hl parity hq hlo hhi ht hr), ?_, htag.hitFifo⟩
  rw [State.onDev_dev, ho]
  rfl

/-! ### Calibration slots start (R166, R182) -/

/-- An interpolator in use that runs slots. -/
def Dev.runsSlots (d : Dev) (p : Nat) : Prop := pixelEnabled d.map.active p = true ∧ slotEnabled d.map.active p = true

/-- A slot runs, and no pulse is open. -/
def Dev.inSlot (d : Dev) (p : Nat) : Prop :=
  (d.tdcPixel p).map (·.slot) = some true ∧ (d.tdcPixel p).bind (·.pulse) = none

theorem Dev.startSlot_of_runs {d : Dev} {p : Nat} (hr : d.runsSlots p) :
    d.startSlot p = (d.loseFalling p).modTdc p fun t => { t with slot := true } :=
  if_pos (Bool.and_eq_true_iff.2 hr)

theorem Dev.startSlot_of_not_runs {d : Dev} {p : Nat} (hr : ¬ d.runsSlots p) : d.startSlot p = d :=
  if_neg (mt Bool.and_eq_true_iff.1 hr)

theorem Dev.startSlot_map (d : Dev) (p : Nat) : (d.startSlot p).map = d.map := by
  by_cases hr : d.runsSlots p
  · rw [Dev.startSlot_of_runs hr]
    exact (d.loseFalling_hitsOnly p).map
  · rw [Dev.startSlot_of_not_runs hr]

theorem Dev.startSlot_other (d : Dev) {p k : Nat} (hk : k ≠ p) : (d.startSlot p).tdcPixel k = d.tdcPixel k := by
  by_cases hr : d.runsSlots p
  · rw [Dev.startSlot_of_runs hr]
    exact (Dev.tdcPixel_modTdc_ne _ hk _).trans (d.loseFalling_other hk)
  · rw [Dev.startSlot_of_not_runs hr]

theorem Dev.startSlot_inSlot {d : Dev} {p : Nat} (hp : p < 1024) (hr : d.runsSlots p) : (d.startSlot p).inSlot p := by
  obtain ⟨x, hx⟩ := d.exists_tdcPixel hp
  obtain ⟨o, u, hlost⟩ := Dev.loseFalling_pixel hx
  rw [Dev.startSlot_of_runs hr, Dev.inSlot, Dev.tdcPixel_modTdc_same hlost]
  exact ⟨rfl, rfl⟩

section Slots
variable (d : Dev) {p : Nat} (l : List Nat)

theorem Dev.startSlots_inSlot (hp : p < 1024) (hr : d.runsSlots p) (hmem : p ∈ l) : (l.foldl Dev.startSlot d).inSlot p := by
  have hruns {e : Dev} (he : e.map = d.map) : e.runsSlots p := by rwa [Dev.runsSlots, he]
  refine foldl_reaches (inv := fun e : Dev => e.map = d.map) (goal := fun e => e.inSlot p)
    (fun e k he => (e.startSlot_map k).trans he) (fun e k he hin => ?_) (fun e he => Dev.startSlot_inSlot hp (hruns he)) hmem rfl
  by_cases hk : p = k
  · subst hk
    exact Dev.startSlot_inSlot hp (hruns he)
  · rwa [Dev.inSlot, e.startSlot_other hk]

theorem Dev.startSlots_same (hr : ¬ d.runsSlots p) : (l.foldl Dev.startSlot d).tdcPixel p = d.tdcPixel p := by
  have hboth : (l.foldl Dev.startSlot d).map = d.map ∧ (l.foldl Dev.startSlot d).tdcPixel p = d.tdcPixel p := by
    refine List.foldlRecOn (motive := fun e : Dev => e.map = d.map ∧ e.tdcPixel p = d.tdcPixel p) _ _ ⟨rfl, rfl⟩
      fun e ⟨hm, hsame⟩ k _ => ⟨(e.startSlot_map k).trans hm, ?_⟩
    by_cases hk : p = k
    · subst hk
      rwa [Dev.startSlot_of_not_runs (by rwa [Dev.runsSlots, hm])]
    · exact (e.startSlot_other hk).trans hsame
  exact hboth.2

end Slots

/-- A tag-frame edge is 128 ticks ahead, so slots start (R166). -/
def Dev.slotsDue (d : Dev) : Prop := sinceEdge d.framePhase d.globalNow = 262144 - 128

/-- The slots of all interpolators start, where they are due. -/
def Dev.slotsAtTick (d : Dev) : Dev :=
  if sinceEdge d.framePhase d.globalNow == tagFrameTicks - 128 then (List.range 1024).foldl Dev.startSlot d else d

theorem calSlotStart_exec (s : State) : exec .calSlotStart s = .next (s.onDev Dev.slotsAtTick) := rfl

theorem Dev.slotsAtTick_of_due {d : Dev} (h : d.slotsDue) : d.slotsAtTick = (List.range 1024).foldl Dev.startSlot d :=
  if_pos (beq_iff_eq.2 h)

theorem Dev.slotsAtTick_of_not_due {d : Dev} (h : ¬ d.slotsDue) : d.slotsAtTick = d := if_neg (mt beq_iff_eq.1 h)

theorem calSlotStart_result (s : State) :
    (¬ s.dev.slotsDue → exec .calSlotStart s = .next s) ∧
    (s.dev.slotsDue → ∃ t : State, exec .calSlotStart s = .next t ∧ ∀ p < 1024,
      (s.dev.runsSlots p → t.dev.inSlot p) ∧ (¬ s.dev.runsSlots p → t.dev.tdcPixel p = s.dev.tdcPixel p)) := by
  rw [calSlotStart_exec]
  refine ⟨fun hd => next_onDev_self (Dev.slotsAtTick_of_not_due hd), fun hd => ⟨_, rfl, fun p hp => ?_⟩⟩
  have hmem : p ∈ List.range 1024 := List.mem_range.2 hp
  rw [State.onDev_dev, Dev.slotsAtTick_of_due hd]
  exact ⟨fun hr => s.dev.startSlots_inSlot _ hp hr hmem, s.dev.startSlots_same _⟩

/-! ### The pair of a slot is judged (R168 to R170) -/

theorem Dev.pairInForce_factory (d : Dev) (p : Nat) : d.pairInForce p (factoryPair p) = factoryPair p := ite_self _

/-- The pair that takes the place of one not accepted: the last that was, or the factory pair (R168). -/
def TdcPixel.substitute (x : TdcPixel) (p : Nat) : CalPair :=
  match x.lastAccepted with
  | some (a, b) => ⟨a, b, true, false⟩
  | none => factoryPair p

section Judged
variable {d : Dev} {p c1 c2 : Nat} {x : TdcPixel} (hx : d.tdcPixel p = some x)
include hx

theorem Dev.judgePair_accepted (h : pairAccepted d.map.active p c1 c2 = true) :
    (d.judgePair p c1 c2).tdcPixel p = some { x with
      measured := some (c1, c2), previous := x.applied, applied := d.pairInForce p ⟨c1, c2, false, false⟩
      lastAccepted := some (c1, c2), accepted := (x.accepted + 1) % 2 ^ 64, run := 0, failed := false, slot := false } := by
  simp only [Dev.judgePair, hx]
  rw [if_pos h]
  split
  · rw [Dev.tdcPixel, Dev.raise_tdc]
    exact Dev.tdcPixel_modTdc_same hx _
  · exact Dev.tdcPixel_modTdc_same hx _

theorem Dev.judgePair_rejected (h : pairAccepted d.map.active p c1 c2 = false) : ∃ fails,
    (d.judgePair p c1 c2).tdcPixel p = some { x with
      measured := some (c1, c2), previous := x.applied, applied := d.pairInForce p (x.substitute p)
      rejected := (x.rejected + 1) % 2 ^ 64, run := satInc 16 x.run, failed := fails, slot := false } := by
  simp only [Dev.judgePair, hx]
  rw [h, if_neg Bool.false_ne_true]
  split
  · rw [Dev.tdcPixel, Dev.raise_tdc, Dev.raiseLimited_tdc]
    exact ⟨_, Dev.tdcPixel_modTdc_same hx _⟩
  · rw [Dev.tdcPixel, Dev.raiseLimited_tdc]
    exact ⟨_, Dev.tdcPixel_modTdc_same hx _⟩

end Judged

theorem judgePair_result (s : State) (p c1 c2 : Nat) {x : TdcPixel} (hx : s.dev.tdcPixel p = some x) :
    ∃ y : TdcPixel, (s.dev.judgePair p c1 c2).tdcPixel p = some y ∧ y.slot = false ∧ y.measured = some (c1, c2) ∧
      y.previous = x.applied ∧
      (pairAccepted s.dev.map.active p c1 c2 = true → y.applied = s.dev.pairInForce p ⟨c1, c2, false, false⟩ ∧
        y.lastAccepted = some (c1, c2)) ∧
      (pairAccepted s.dev.map.active p c1 c2 = false → y.lastAccepted = x.lastAccepted ∧
        (∀ a b, x.lastAccepted = some (a, b) → y.applied = s.dev.pairInForce p ⟨a, b, true, false⟩) ∧
        (x.lastAccepted = none → y.applied = factoryPair p)) := by
  cases h : pairAccepted s.dev.map.active p c1 c2 with
  | true =>
    exact ⟨_, Dev.judgePair_accepted hx h, rfl, rfl, rfl, fun _ => ⟨rfl, rfl⟩, fun hno => absurd hno.symm Bool.false_ne_true⟩
  | false =>
    obtain ⟨fails, hpix⟩ := Dev.judgePair_rejected hx h
    refine ⟨_, hpix, rfl, rfl, rfl, fun hno => absurd hno Bool.false_ne_true, fun _ => ⟨rfl, fun a b hl => ?_, fun hl => ?_⟩⟩
    · simp only [TdcPixel.substitute, hl]
    · simp only [TdcPixel.substitute, hl, Dev.pairInForce_factory]

/-! ### The obligation -/

/-- Settles O43: emptying the crossings leaves all of an interpolator that an edge or a limit then acts on, so each row is what it
does to the emptied crossings; and slots start interpolator by interpolator. -/
theorem interpolatorRows : Obligations.InterpolatorRows :=
  ⟨fun _ _ raw hits tags _ onBoundary parity _ hx =>
    ⟨timingEdge_of_not_fires hx raw hits tags onBoundary parity,
      timingEdge_lost hx raw hits tags onBoundary parity,
      fun hf hb ht ha hp =>
        ⟨timingEdge_opens hx raw hits tags onBoundary parity hf hb ht ha hp,
          timingEdge_afterLoss hx raw hits tags onBoundary parity hf hb ht ha hp,
          fun _ hr hl hq => timingEdge_hitWord hx raw hits tags onBoundary parity hf hb ht ha hp hr hl hq⟩⟩,
    fun s p hits tags parity _ hx => hitWordTimeout_result s p hits tags parity hx, calSlotStart_result,
    fun s p c1 c2 _ hx => judgePair_result s p c1 c2 hx⟩

end Sys2Proof.Machine
end
